-- ==== Sys2Proof/Word.lean ====
section
/-!
DEFINITION. The word types of the Ezryn 6400 and the plain records that travel over its ports:
references to fibres, fabric packets (R342), link flits (R338) and Ocush data. Every record here is plain data.
-/
namespace Sys2Proof

/-- A memory byte (R5). -/
abbrev Byte := BitVec 8
/-- An instruction word, or one lane of a vector register (R32, R61). -/
abbrev Word := BitVec 32
/-- A scalar register, a virtual address, a lane mask (R12). -/
abbrev DWord := BitVec 64
/-- A 7-bit vector register field, relative to the window base (R34). -/
abbrev VReg := BitVec 7
/-- A 6-bit scalar register field (R34). -/
abbrev SReg := BitVec 6
/-- A 3-bit predicate register field (R34). -/
abbrev PReg := BitVec 3
/-- A route field: direct, `qa`, `qb`, `qc` (R34). -/
abbrev Rt := BitVec 2
/-- A format tag (R61). -/
abbrev Tag := BitVec 4

/-- Names one fibre record: the workgroup's identity, the WGSLOT of the warp slot, the record 0-8 (R139). -/
structure FRef where
  wg  : Nat
  slot : Nat
  idx : Nat
deriving DecidableEq, Repr

/-- The three barrier extents (R159). -/
inductive BarKind where
  | workgroup | cluster | grid
deriving DecidableEq, Repr

/-- A fabric packet: the 32-byte transport header of R342, the payload and the trailer of guard tags.
`rsv` collects the header's reserved fields. -/
structure Packet where
  dst : BitVec 16
  src : BitVec 16
  ty  : BitVec 8
  tc  : BitVec 2
  route : BitVec 2
  val : Bool
  dup : Bool
  seq : BitVec 16
  mid : BitVec 11
  viam : BitVec 5
  sctx : BitVec 12
  len : BitVec 9
  addr : BitVec 40
  aux : BitVec 32
  tag : BitVec 32
  rsv : BitVec 53
  payload : List Byte
  trailer : List DWord
deriving DecidableEq, Repr

/-- An EOL flit (R338): header fields, 240 payload bytes, CRC-64. `rsv` collects the reserved bits. -/
structure Flit where
  ftype : BitVec 4
  seq : BitVec 12
  ack : BitVec 12
  ackv : Bool
  nak : Bool
  crvc : BitVec 4
  crn : BitVec 8
  pvc : BitVec 4
  first : BitVec 8
  rsv : BitVec 10
  payload : List Byte
  crc : DWord
deriving DecidableEq, Repr

/-- Where a `MEM.RD` or `MEM.WR` of the control node points (R382): physical, or virtual in a context. -/
inductive OcAddr where
  | phys (pa : Nat)
  | virt (ctx : BitVec 16) (va : DWord)
deriving DecidableEq, Repr

/-- The resettable parts of a CU (R388). -/
inductive EnginePart where
  | mx | ce | fe
deriving DecidableEq, Repr

/-- What the scrubber finds in a line it reads (R389): an error that cannot be corrected, in the copy that L2 holds of an HBM line
or in the line itself. -/
inductive LineHealth where
  | clean | correctable | uncorrectable (inL2 : Bool)
deriving DecidableEq, Repr

/-- The unit in which an uncorrectable error was met, with the codes of the kill record (R388). -/
inductive ErrUnit where
  | cellar | l2 | hbm
deriving DecidableEq, Repr

/-- A record of the capability list (R395): what its header says, the words after it, and the words before the next record. -/
structure CapRecord where
  id : BitVec 16
  ver : BitVec 8
  body : List DWord
  gap : List DWord
deriving DecidableEq, Repr, Inhabited

/-- A firmware image as the management flash holds it (R394): its bytes, its security version, its signatures. -/
structure Image where
  bytes : List Byte
  secVersion : Nat
  ecdsaSig : List Byte
  lmsSig : List Byte
deriving DecidableEq, Repr

/-- What PLDM type 2 can ask for (R392). -/
inductive Reading where
  | temperature | power | clkstat
  /-- The errors that could not be corrected, and those that could. -/
  | errors | corrected
deriving DecidableEq, Repr

/-- What happens to a UALink port that retrains (R336): the retrain begins, the partner answers with a lane width, 10 µs pass.
(Log 108 DESIGN CHOICE.) -/
inductive UaTrain where
  | start | answer (width : Nat) | timeout
deriving DecidableEq, Repr

end Sys2Proof
end

