-- ==== Sys2Proof/Syntax.lean ====
section
/-!
DEFINITION. The instructions of the Ezryn 6400: one constructor for each row of spec/opcode_table.json. The fields of an
instruction word keep the letters and widths of the table's row. A hardware step (a row without bits) carries the
instance it acts on: a fibre, an operation and its part, a CU, a port, or what arrives from outside.
-/
namespace Sys2Proof

/-- One instruction of a fibre, or one step of the hardware (R48, spec/95). -/
inductive Instr where
  /-- BRA: Unconditional branch to the clause header at the word offset; ends the clause. (R157) -/
  | bra (o : BitVec 16)
  /-- BRA_Z: Branch if the scalar register is zero. (R157) -/
  | braZ (s : BitVec 6) (o : BitVec 16)
  /-- BRA_NZ: Branch if the scalar register is non-zero. (R157) -/
  | braNz (s : BitVec 6) (o : BitVec 16)
  /-- BRA_LT: Branch if the scalar register is negative as a signed 64-bit value. (R157) -/
  | braLt (s : BitVec 6) (o : BitVec 16)
  /-- BRA_GE: Branch if the scalar register is non-negative. (R157) -/
  | braGe (s : BitVec 6) (o : BitVec 16)
  /-- BRA_ALL: Branch if the predicate is set in every active lane; never splits the fibre. (R157) -/
  | braAll (p : BitVec 3) (o : BitVec 16)
  /-- BRA_ANY: Branch if the predicate is set in some active lane. (R157) -/
  | braAny (p : BitVec 3) (o : BitVec 16)
  /-- BRP: Diverges on a predicate: lanes selected go to the target as a new fibre, or the whole fibre moves or falls through. (R155) -/
  | brp (n : BitVec 1) (p : BitVec 3) (o : BitVec 16)
  /-- CALL: Writes the next header address to the link register and branches. (R157) -/
  | call (l : BitVec 6) (o : BitVec 16)
  /-- BRX: Branches to a scalar register plus a word offset. (R157) -/
  | brx (t : BitVec 6) (o : BitVec 16)
  /-- RET: Branches to the address held in the return register. (R157) -/
  | ret (r : BitVec 6)
  /-- JSET: Sets a rejoin register to expect the fibre's lanes. (R156) -/
  | jset (j : BitVec 4)
  /-- JOIN: Hands the fibre's lanes to a rejoin register and ends the fibre without waiting for flags. (R156) -/
  | join (j : BitVec 4)
  /-- WAITJ: Hands lanes to a rejoin register and blocks until all expected lanes have arrived. (R156) -/
  | waitj (j : BitVec 4)
  /-- FORK: Creates a new fibre in the lowest absent record with given PC, window base and lane mask. (R149) -/
  | fork (d : BitVec 6) (t : BitVec 6) (w : BitVec 6) (p : BitVec 3)
  /-- FEND: Ends the issuing fibre once all its flags are zero. (R150) -/
  | fend
  /-- FYIELD: Ends the clause and lets the slot pass to another ready fibre at the next header. (R152) -/
  | fyield
  /-- FSYNC: Fibre-local barrier over a set of fibres of the slot. (R160) -/
  | fsync (a : BitVec 6)
  /-- FSYNC_M: Fibre-local barrier that merges compatible released fibres. (R160) -/
  | fsyncM (a : BitVec 6)
  /-- FRESUME: Resumes a frozen fibre at its FAULTPC. (R172) -/
  | fresume (k : BitVec 6)
  /-- FRESUME_PC: Resumes a frozen fibre at a given PC, discarding temporaries. (R172) -/
  | fresumePc (k : BitVec 6) (p : BitVec 6)
  /-- FRESUME_END: Ends a frozen fibre as by FEND. (R172) -/
  | fresumeEnd (k : BitVec 6)
  /-- FSTAT_MASK: Reads another fibre's lane mask. (R153) -/
  | fstatMask (d : BitVec 6) (k : BitVec 6)
  /-- FSTAT_PC: Reads another fibre's PC. (R153) -/
  | fstatPc (d : BitVec 6) (k : BitVec 6)
  /-- FSTAT_INFO: Reads another fibre's state, window base and last fault cause. (R153) -/
  | fstatInfo (d : BitVec 6) (k : BitVec 6)
  /-- BAR_WG: Workgroup barrier: registers arrival and blocks until every party arrives. (R159) -/
  | barWg
  /-- BAR_CA: Registers arrival at the cluster barrier without blocking. (R159) -/
  | barCa
  /-- BAR_CW: Blocks until the cluster barrier phase of the fibre's arrival completes. (R159) -/
  | barCw
  /-- BAR_GRID: Grid barrier ending a superstep; faults without GRIDBAR. (R159) -/
  | barGrid
  /-- WAITF: Waits in place until the named flags are zero, with acquire semantics. (R162) -/
  | waitf (m : BitVec 12)
  /-- SETF: Creates one token per named flag over the fibre's lanes. (R162) -/
  | setf (m : BitVec 12)
  /-- CLRF: Completes the oldest matching token on each named flag, as a release at slot scope. (R162) -/
  | clrf (m : BitVec 12)
  /-- TRAP: Raises trap (cause 0x0A) with the code, FAULTPC at the next word. (R173) -/
  | trap (c : BitVec 16)
  /-- BRK: Hands the fibre to the debugger, or raises breakpoint without debugger. (R173) -/
  | brk (c : BitVec 16)
  /-- SYSR: Reads a system register into a scalar register after its privilege check. (R168) -/
  | sysr (s : BitVec 6) (r : BitVec 16)
  /-- SYSW: Writes a scalar register to a system register's writable fields. (R168) -/
  | sysw (s : BitVec 6) (r : BitVec 16)
  /-- ICINV: Posts invalidation of clause buffer entries overlapping a range. (R147) -/
  | icinv (a : BitVec 6) (b : BitVec 6)
  /-- ICINV_D: Invalidates clause buffer entries over a range and waits until every copy is discarded. (R147) -/
  | icinvD (a : BitVec 6) (b : BitVec 6)
  /-- ISYNC: Waits for the fibre's stores to be performed and discards its slot's other clause buffer entries. (R148) -/
  | isync
  /-- PAND: Predicate AND. (R166) -/
  | pand (d : BitVec 3) (a : BitVec 3) (b : BitVec 3)
  /-- POR: Predicate OR. (R166) -/
  | por (d : BitVec 3) (a : BitVec 3) (b : BitVec 3)
  /-- PXOR: Predicate XOR. (R166) -/
  | pxor (d : BitVec 3) (a : BitVec 3) (b : BitVec 3)
  /-- PNOT: Predicate NOT. (R166) -/
  | pnot (d : BitVec 3) (a : BitVec 3)
  /-- PMOV: Predicate move. (R166) -/
  | pmov (d : BitVec 3) (a : BitVec 3)
  /-- PMOV_FS: Sets a predicate from the low W bits of a scalar register. (R166) -/
  | pmovFs (d : BitVec 3) (s : BitVec 6)
  /-- PMOV_TS: Sets a scalar register from a predicate. (R166) -/
  | pmovTs (a : BitVec 3) (s : BitVec 6)
  /-- NOP: Does nothing. (R152) -/
  | nop
  /-- EXIT: Ends every fibre of the issuing slot. (R151) -/
  | exit
  /-- VADD: Element-wise add of two routed sources. (R183) -/
  | vadd (d : BitVec 7) (a : BitVec 7) (x : BitVec 2) (b : BitVec 7) (y : BitVec 2)
  /-- VSUB: Element-wise subtract. (R183) -/
  | vsub (d : BitVec 7) (a : BitVec 7) (x : BitVec 2) (b : BitVec 7) (y : BitVec 2)
  /-- VMUL: Element-wise multiply. (R183) -/
  | vmul (d : BitVec 7) (a : BitVec 7) (x : BitVec 2) (b : BitVec 7) (y : BitVec 2)
  /-- VMULH: High half of the exact integer product. (R183) -/
  | vmulh (d : BitVec 7) (a : BitVec 7) (x : BitVec 2) (b : BitVec 7) (y : BitVec 2)
  /-- VFMA: Fused multiply-add into the destination. (R183) -/
  | vfma (d : BitVec 7) (a : BitVec 7) (x : BitVec 2) (b : BitVec 7) (y : BitVec 2)
  /-- VFMS: Fused multiply-subtract of the destination. (R183) -/
  | vfms (d : BitVec 7) (a : BitVec 7) (x : BitVec 2) (b : BitVec 7) (y : BitVec 2)
  /-- VMADI: Integer multiply-add, low bits. (R183) -/
  | vmadi (d : BitVec 7) (a : BitVec 7) (x : BitVec 2) (b : BitVec 7) (y : BitVec 2)
  /-- VMIN: Element-wise minimum. (R183) -/
  | vmin (d : BitVec 7) (a : BitVec 7) (x : BitVec 2) (b : BitVec 7) (y : BitVec 2)
  /-- VMAX: Element-wise maximum. (R183) -/
  | vmax (d : BitVec 7) (a : BitVec 7) (x : BitVec 2) (b : BitVec 7) (y : BitVec 2)
  /-- VAND: Bitwise AND. (R185) -/
  | vand (d : BitVec 7) (a : BitVec 7) (x : BitVec 2) (b : BitVec 7) (y : BitVec 2)
  /-- VOR: Bitwise OR. (R185) -/
  | vor (d : BitVec 7) (a : BitVec 7) (x : BitVec 2) (b : BitVec 7) (y : BitVec 2)
  /-- VXOR: Bitwise XOR. (R185) -/
  | vxor (d : BitVec 7) (a : BitVec 7) (x : BitVec 2) (b : BitVec 7) (y : BitVec 2)
  /-- VSHL: Shift left. (R185) -/
  | vshl (d : BitVec 7) (a : BitVec 7) (x : BitVec 2) (b : BitVec 7) (y : BitVec 2)
  /-- VSHR: Logical shift right. (R185) -/
  | vshr (d : BitVec 7) (a : BitVec 7) (x : BitVec 2) (b : BitVec 7) (y : BitVec 2)
  /-- VSRA: Arithmetic shift right. (R185) -/
  | vsra (d : BitVec 7) (a : BitVec 7) (x : BitVec 2) (b : BitVec 7) (y : BitVec 2)
  /-- VSCALE: Multiplies float elements by 2 to an I32 power with one rounding. (R184) -/
  | vscale (d : BitVec 7) (a : BitVec 7) (x : BitVec 2) (b : BitVec 7) (y : BitVec 2)
  /-- VDOT4: Adds the lane's element dot product into the destination. (R186) -/
  | vdot4 (d : BitVec 7) (a : BitVec 7) (x : BitVec 2) (b : BitVec 7) (y : BitVec 2)
  /-- VPACK: Converts a value into one element of the destination. (R188) -/
  | vpack (d : BitVec 7) (a : BitVec 7) (x : BitVec 2) (b : BitVec 7) (y : BitVec 2)
  /-- VPERM: Permutes lanes by an index vector. (R187) -/
  | vperm (d : BitVec 7) (a : BitVec 7) (x : BitVec 2) (b : BitVec 7) (y : BitVec 2)
  /-- VCMP: Compares two sources into a predicate. (R189) -/
  | vcmp (p : BitVec 3) (c : BitVec 3) (a : BitVec 7) (x : BitVec 2) (b : BitVec 7) (y : BitVec 2)
  /-- VSEL: Selects a source into lanes where the predicate (or its negation) holds. (R190) -/
  | vsel (d : BitVec 7) (a : BitVec 7) (x : BitVec 2) (p : BitVec 3) (n : BitVec 1)
  /-- VMOVI: Moves a raw immediate with a tag into every active lane. (R191) -/
  | vmovi (d : BitVec 7) (t : BitVec 4) (i : BitVec 9)
  /-- VMOV: Copies a register's bits. (R192) -/
  | vmov (d : BitVec 7) (a : BitVec 7) (x : BitVec 2)
  /-- VABS: Absolute value. (R193) -/
  | vabs (d : BitVec 7) (a : BitVec 7) (x : BitVec 2)
  /-- VNEG: Negation. (R193) -/
  | vneg (d : BitVec 7) (a : BitVec 7) (x : BitVec 2)
  /-- VNOT: Bitwise NOT. (R192) -/
  | vnot (d : BitVec 7) (a : BitVec 7) (x : BitVec 2)
  /-- VCLASS: Writes the float class code of each element. (R194) -/
  | vclass (d : BitVec 7) (a : BitVec 7) (x : BitVec 2)
  /-- VCLZ: Counts leading zeros per element. (R195) -/
  | vclz (d : BitVec 7) (a : BitVec 7) (x : BitVec 2)
  /-- VFFS: Finds the first set bit per element. (R195) -/
  | vffs (d : BitVec 7) (a : BitVec 7) (x : BitVec 2)
  /-- VPOPC: Counts set bits per element. (R195) -/
  | vpopc (d : BitVec 7) (a : BitVec 7) (x : BitVec 2)
  /-- VBREV: Reverses bits per element. (R195) -/
  | vbrev (d : BitVec 7) (a : BitVec 7) (x : BitVec 2)
  /-- VTAG: Writes the source register's tag as I32. (R192) -/
  | vtag (d : BitVec 7) (a : BitVec 7)
  /-- VLANEID: Writes each lane's number as I32. (R192) -/
  | vlaneid (d : BitVec 7)
  /-- VEXP2: Base-2 exponential. (R196) -/
  | vexp2 (d : BitVec 7) (a : BitVec 7) (x : BitVec 2)
  /-- VLOG2: Base-2 logarithm. (R196) -/
  | vlog2 (d : BitVec 7) (a : BitVec 7) (x : BitVec 2)
  /-- VRCP: Reciprocal. (R196) -/
  | vrcp (d : BitVec 7) (a : BitVec 7) (x : BitVec 2)
  /-- VRSQ: Reciprocal square root. (R196) -/
  | vrsq (d : BitVec 7) (a : BitVec 7) (x : BitVec 2)
  /-- VSIN: Sine of pi times the argument. (R196) -/
  | vsin (d : BitVec 7) (a : BitVec 7) (x : BitVec 2)
  /-- VCOS: Cosine of pi times the argument. (R196) -/
  | vcos (d : BitVec 7) (a : BitVec 7) (x : BitVec 2)
  /-- VUNPK: Widens one element of each lane to 32 bits. (R197) -/
  | vunpk (d : BitVec 7) (a : BitVec 7) (x : BitVec 2) (e : BitVec 4)
  /-- VCVT: Converts to the named tag. (R198) -/
  | vcvt (d : BitVec 7) (a : BitVec 7) (x : BitVec 2) (t : BitVec 4)
  /-- VRETAG: Copies bits and sets a new tag. (R199) -/
  | vretag (d : BitVec 7) (a : BitVec 7) (x : BitVec 2) (t : BitVec 4)
  /-- VREDUCE: Reduces active lanes by a fixed tree into a scalar register. (R200) -/
  | vreduce (a : BitVec 7) (x : BitVec 2) (s : BitVec 6) (o : BitVec 3)
  /-- VSCAN: Scans active lanes in order, writing prefixes and the total. (R201) -/
  | vscan (d : BitVec 7) (a : BitVec 7) (x : BitVec 2) (s : BitVec 6) (o : BitVec 3)
  /-- ROUTE: Sets a route register's kind and parameter from an immediate. (R181) -/
  | route (q : BitVec 2) (k : BitVec 3) (p : BitVec 6)
  /-- ROUTE_S: Sets a route register with the parameter from a scalar register. (R181) -/
  | routeS (q : BitVec 2) (k : BitVec 3) (s : BitVec 6)
  /-- PTLD: Loads pattern-table entries from the active lanes. (R182) -/
  | ptld (t : BitVec 4) (a : BitVec 7) (x : BitVec 2)
  /-- VBALLOT: Writes the predicate ANDed with the lane mask to a scalar register. (R202) -/
  | vballot (s : BitVec 6) (p : BitVec 3)
  /-- VVOTE_ANY: Votes true if any active lane's predicate is set. (R202) -/
  | vvoteAny (s : BitVec 6) (d : BitVec 3) (p : BitVec 3)
  /-- VVOTE_ALL: Votes true if all active lanes' predicates are set. (R202) -/
  | vvoteAll (s : BitVec 6) (d : BitVec 3) (p : BitVec 3)
  /-- VVOTE_EQ: Votes true if active lanes' predicates agree. (R202) -/
  | vvoteEq (s : BitVec 6) (d : BitVec 3) (p : BitVec 3)
  /-- SADD: Scalar add. (R163) -/
  | sadd (d : BitVec 6) (a : BitVec 6) (b : BitVec 6)
  /-- SSUB: Scalar subtract. (R163) -/
  | ssub (d : BitVec 6) (a : BitVec 6) (b : BitVec 6)
  /-- SMUL: Scalar multiply, low 64 bits. (R163) -/
  | smul (d : BitVec 6) (a : BitVec 6) (b : BitVec 6)
  /-- SMULH: Scalar signed multiply, high 64 bits. (R163) -/
  | smulh (d : BitVec 6) (a : BitVec 6) (b : BitVec 6)
  /-- SMULH_U: Scalar unsigned multiply, high 64 bits. (R163) -/
  | smulhU (d : BitVec 6) (a : BitVec 6) (b : BitVec 6)
  /-- SDIV: Scalar signed division toward zero; never traps. (R164) -/
  | sdiv (d : BitVec 6) (a : BitVec 6) (b : BitVec 6)
  /-- SDIV_U: Scalar unsigned division. (R164) -/
  | sdivU (d : BitVec 6) (a : BitVec 6) (b : BitVec 6)
  /-- SREM: Scalar signed remainder. (R164) -/
  | srem (d : BitVec 6) (a : BitVec 6) (b : BitVec 6)
  /-- SREM_U: Scalar unsigned remainder. (R164) -/
  | sremU (d : BitVec 6) (a : BitVec 6) (b : BitVec 6)
  /-- SAND: Scalar AND. (R163) -/
  | sand (d : BitVec 6) (a : BitVec 6) (b : BitVec 6)
  /-- SOR: Scalar OR. (R163) -/
  | sor (d : BitVec 6) (a : BitVec 6) (b : BitVec 6)
  /-- SXOR: Scalar XOR. (R163) -/
  | sxor (d : BitVec 6) (a : BitVec 6) (b : BitVec 6)
  /-- SSHL: Scalar shift left. (R163) -/
  | sshl (d : BitVec 6) (a : BitVec 6) (b : BitVec 6)
  /-- SSHR: Scalar logical shift right. (R163) -/
  | sshr (d : BitVec 6) (a : BitVec 6) (b : BitVec 6)
  /-- SSRA: Scalar arithmetic shift right. (R163) -/
  | ssra (d : BitVec 6) (a : BitVec 6) (b : BitVec 6)
  /-- SMIN: Scalar signed minimum. (R163) -/
  | smin (d : BitVec 6) (a : BitVec 6) (b : BitVec 6)
  /-- SMIN_U: Scalar unsigned minimum. (R163) -/
  | sminU (d : BitVec 6) (a : BitVec 6) (b : BitVec 6)
  /-- SMAX: Scalar signed maximum. (R163) -/
  | smax (d : BitVec 6) (a : BitVec 6) (b : BitVec 6)
  /-- SMAX_U: Scalar unsigned maximum. (R163) -/
  | smaxU (d : BitVec 6) (a : BitVec 6) (b : BitVec 6)
  /-- SMOV: Scalar move. (R163) -/
  | smov (d : BitVec 6) (b : BitVec 6)
  /-- SCLZ: Counts leading zeros of a scalar. (R163) -/
  | sclz (d : BitVec 6) (a : BitVec 6)
  /-- SFFS: Finds the first set bit of a scalar. (R163) -/
  | sffs (d : BitVec 6) (a : BitVec 6)
  /-- SPOPC: Counts set bits of a scalar. (R163) -/
  | spopc (d : BitVec 6) (a : BitVec 6)
  /-- SSEL: Selects a or b by whether the destination is non-zero. (R163) -/
  | ssel (d : BitVec 6) (a : BitVec 6) (b : BitVec 6)
  /-- SCMP: Scalar compare writing 1 or 0 by the selected relation. (R163) -/
  | scmp (d : BitVec 6) (a : BitVec 6) (b : BitVec 6) (r : BitVec 4)
  /-- SADD_IMM: Scalar add immediate. (R165) -/
  | saddImm (d : BitVec 6) (a : BitVec 6) (i : BitVec 13)
  /-- SAND_IMM: Scalar AND immediate. (R165) -/
  | sandImm (d : BitVec 6) (a : BitVec 6) (i : BitVec 13)
  /-- SOR_IMM: Scalar OR immediate. (R165) -/
  | sorImm (d : BitVec 6) (a : BitVec 6) (i : BitVec 13)
  /-- SXOR_IMM: Scalar XOR immediate. (R165) -/
  | sxorImm (d : BitVec 6) (a : BitVec 6) (i : BitVec 13)
  /-- SSHL_IMM: Scalar shift left by an immediate count. (R165) -/
  | sshlImm (d : BitVec 6) (a : BitVec 6) (n : BitVec 6)
  /-- SSHR_IMM: Scalar logical shift right by an immediate count. (R165) -/
  | sshrImm (d : BitVec 6) (a : BitVec 6) (n : BitVec 6)
  /-- SSRA_IMM: Scalar arithmetic shift right by an immediate count. (R165) -/
  | ssraImm (d : BitVec 6) (a : BitVec 6) (n : BitVec 6)
  /-- SLI: Loads a sign-extended immediate into a scalar register. (R165) -/
  | sli (d : BitVec 6) (i : BitVec 13)
  /-- SLI_HI: Loads a LIMM value into the high 32 bits of a scalar register. (R165) -/
  | sliHi (d : BitVec 6)
  /-- SMADD: Scalar multiply-add. (R165) -/
  | smadd (d : BitVec 6) (a : BitVec 6) (b : BitVec 6) (c : BitVec 6)
  /-- SBFX: Extracts a bit field, zero- or sign-extended. (R165) -/
  | sbfx (d : BitVec 6) (a : BitVec 6) (p : BitVec 6) (l : BitVec 6) (x : BitVec 1)
  /-- SBFI: Inserts a bit field into the destination. (R165) -/
  | sbfi (d : BitVec 6) (a : BitVec 6) (p : BitVec 6) (l : BitVec 6)
  /-- LD_32: Vector load of 4 bytes per lane with the given tag. (R226) -/
  | ld32 (d : BitVec 7) (a : BitVec 7) (b : BitVec 6) (t : BitVec 4) (f : BitVec 1)
  /-- LD_64: Vector load of 8 bytes per lane into two registers. (R226) -/
  | ld64 (d : BitVec 7) (a : BitVec 7) (b : BitVec 6) (t : BitVec 4) (f : BitVec 1)
  /-- LD_128: Vector load of 16 bytes per lane into four registers. (R226) -/
  | ld128 (d : BitVec 7) (a : BitVec 7) (b : BitVec 6) (t : BitVec 4) (f : BitVec 1)
  /-- LD_N: Narrow vector load extended to 32 bits. (R226) -/
  | ldN (d : BitVec 7) (a : BitVec 7) (b : BitVec 6) (n : BitVec 3) (f : BitVec 1)
  /-- ST_32: Vector store of 4 bytes per lane. (R228) -/
  | st32 (d : BitVec 7) (a : BitVec 7) (b : BitVec 6) (f : BitVec 1)
  /-- ST_64: Vector store of 8 bytes per lane. (R228) -/
  | st64 (d : BitVec 7) (a : BitVec 7) (b : BitVec 6) (f : BitVec 1)
  /-- ST_128: Vector store of 16 bytes per lane. (R228) -/
  | st128 (d : BitVec 7) (a : BitVec 7) (b : BitVec 6) (f : BitVec 1)
  /-- ST_N: Narrow vector store of 1 or 2 bytes per lane. (R228) -/
  | stN (d : BitVec 7) (a : BitVec 7) (b : BitVec 6) (n : BitVec 1) (f : BitVec 1)
  /-- LDS: Scalar load with displacement. (R229) -/
  | lds (d : BitVec 6) (b : BitVec 6) (n : BitVec 3) (f : BitVec 1) (i : BitVec 8)
  /-- STS: Scalar store with displacement. (R229) -/
  | sts (d : BitVec 6) (b : BitVec 6) (n : BitVec 2) (f : BitVec 1) (i : BitVec 8)
  /-- LDB: Broadcast load of one 32-bit word into every active lane. (R230) -/
  | ldb (d : BitVec 7) (b : BitVec 6) (t : BitVec 4) (f : BitVec 1)
  /-- PREF: Prefetches sectors into L1 or L2; never faults after decode. (R231) -/
  | pref (a : BitVec 7) (b : BitVec 6) (n : BitVec 1)
  /-- FENCE: Orders predecessor-class accesses before successor-class accesses at a scope. (R88) -/
  | fence (p : BitVec 8) (s : BitVec 8) (c : BitVec 3)
  /-- WAITC: Arms a condition monitor at the home slice of a location. (R237) -/
  | waitc (a : BitVec 6) (v : BitVec 6) (o : BitVec 4) (z : BitVec 1) (f : BitVec 1)
  /-- DECANT_BIND: Binds a decant window from a descriptor and waits until every CU holds it. (R241) -/
  | decantBind (d : BitVec 6) (a : BitVec 6) (b : BitVec 6)
  /-- DECANT_UNBIND: Frees a decant binding after its accesses complete, returning its error status. (R243) -/
  | decantUnbind (d : BitVec 6) (a : BitVec 6)
  /-- LDW: Copies a whole register named by a register-window address, with its tag. (R233) -/
  | ldw (d : BitVec 7) (b : BitVec 6) (f : BitVec 1)
  /-- STW: Writes a register to the one named by a register-window address, with its tag. (R233) -/
  | stw (d : BitVec 7) (b : BitVec 6) (f : BitVec 1)
  /-- CLST: Stores lanes into the scratchpads of chosen cluster ranks. (R235) -/
  | clst (d : BitVec 7) (a : BitVec 7) (b : BitVec 6) (n : BitVec 2) (f : BitVec 1)
  /-- AMO: Atomic read-modify-write with return of the old value. (R254) -/
  | amo (d : BitVec 7) (a : BitVec 7) (b : BitVec 4) (o : BitVec 3) (r : BitVec 3) (f : BitVec 1)
  /-- AMOR: Atomic read-modify-write without return. (R255) -/
  | amor (d : BitVec 7) (a : BitVec 7) (b : BitVec 4) (o : BitVec 3) (r : BitVec 3) (f : BitVec 1)
  /-- CAS: Compare and swap with success and failure orders. (R257) -/
  | cas (d : BitVec 7) (a : BitVec 7) (b : BitVec 4) (s : BitVec 3) (r : BitVec 3) (f : BitVec 1)
  /-- ACUST: Invokes an installed custom atomic handler, one request per lane. (R261) -/
  | acust (d : BitVec 7) (a : BitVec 7) (b : BitVec 3) (h : BitVec 4) (r : BitVec 2) (f : BitVec 1)
  /-- ASINST: Validates and installs (or removes) a custom atomic handler. (R259) -/
  | asinst (h : BitVec 4) (a : BitVec 6) (b : BitVec 6)
  /-- TLBINV_VA_DEV: Posts invalidation of translations of a VA range at device scope. (R213) -/
  | tlbinvVaDev (a : BitVec 6) (b : BitVec 6)
  /-- TLBINV_VA_SYS: Posts invalidation of a VA range, including peer copies and the share group. (R213) -/
  | tlbinvVaSys (a : BitVec 6) (b : BitVec 6)
  /-- TLBINV_ASID_DEV: Posts invalidation of an ASID at device scope. (R213) -/
  | tlbinvAsidDev (a : BitVec 6)
  /-- TLBINV_ASID_SYS: Posts invalidation of an ASID at system scope. (R213) -/
  | tlbinvAsidSys (a : BitVec 6)
  /-- TLBINV_ALL_DEV: Posts invalidation of every ASID at device scope. (R213) -/
  | tlbinvAllDev
  /-- TLBINV_ALL_SYS: Posts invalidation of every ASID at system scope. (R213) -/
  | tlbinvAllSys
  /-- TLBSYNC_DEV: Waits until the fibre's posted invalidations are complete on the device. (R214) -/
  | tlbsyncDev
  /-- TLBSYNC_SYS: Waits until posted invalidations are complete, including share-group replies. (R214) -/
  | tlbsyncSys
  /-- ATRANS: Probes a translation for read, write or execute and returns the result word. (R215) -/
  | atrans (d : BitVec 6) (a : BitVec 6) (n : BitVec 2)
  /-- MBIND: Binds a shape record address to a gang as operand A, B or epilogue. (R282) -/
  | mbind (a : BitVec 6) (g : BitVec 3) (n : BitVec 2)
  /-- MREADY: Waits until earlier accesses are performed and no window register is pending. (R283) -/
  | mready
  /-- MSIGN: Signs a gang with an expected set, capturing lanes, window and flag. (R284) -/
  | msign (a : BitVec 6) (g : BitVec 3) (f : BitVec 1)
  /-- MMA: Posts one matrix step to a gang. (R286) -/
  | mma (c : BitVec 7) (a : BitVec 6) (g : BitVec 3)
  /-- MTILE: Posts a run of matrix steps to a gang. (R286) -/
  | mtile (c : BitVec 7) (a : BitVec 6) (g : BitVec 3)
  /-- MEPI: Posts an epilogue writing the accumulators densely or as a split segment. (R289) -/
  | mepi (c : BitVec 7) (g : BitVec 3) (m : BitVec 3)
  /-- SPLIT_ENC: Encodes one split tile segment from F32 source. (R291) -/
  | splitEnc (a : BitVec 6) (b : BitVec 6) (f : BitVec 1)
  /-- SPLIT_DEC: Decodes one split segment into a dense destination. (R292) -/
  | splitDec (a : BitVec 6) (b : BitVec 6) (f : BitVec 1)
  /-- MSTAT: Reads a gang's expected set, signed set or state word. (R293) -/
  | mstat (i : BitVec 3) (d : BitVec 6) (g : BitVec 3)
  /-- MRFENCE: Waits for the fibre's stores and discards the CU's cached shape records of the context. (R294) -/
  | mrfence
  /-- SPG_ROW: Accumulates one sparse row product into a sparse accumulator. (R307) -/
  | spgRow (a : BitVec 6) (b : BitVec 6) (f : BitVec 1)
  /-- SPG_FLUSH: Writes a sparse accumulator out to memory. (R308) -/
  | spgFlush (a : BitVec 6) (b : BitVec 6) (f : BitVec 1)
  /-- RACK_HINT: Hints rows of B into the rack, optionally retained. (R309) -/
  | rackHint (a : BitVec 6) (b : BitVec 6)
  /-- RACK_INV: Drops rack lines overlapping a virtual range. (R310) -/
  | rackInv (a : BitVec 6) (b : BitVec 6)
  /-- CP: Linear copy of a byte range. (R326) -/
  | cp (l : BitVec 6) (a : BitVec 6) (b : BitVec 6) (f : BitVec 1)
  /-- CP_G: Linear copy that generates, carries or checks guard tags. (R326) -/
  | cpG (l : BitVec 6) (a : BitVec 6) (b : BitVec 6) (f : BitVec 1)
  /-- CP_T: Tensor copy through two shape records, with optional conversion. (R327) -/
  | cpT (a : BitVec 6) (b : BitVec 6) (f : BitVec 1)
  /-- CP_MC: Multicast fill of the scratchpads of chosen cluster ranks. (R328) -/
  | cpMc (l : BitVec 6) (a : BitVec 6) (b : BitVec 6) (f : BitVec 1)
  /-- CP_STAT: Reads copy engine state. (R329) -/
  | cpStat (i : BitVec 2) (d : BitVec 6)
  /-- PUT: Bulk transfer from local memory to a peer or local destination. (R360) -/
  | put (l : BitVec 6) (a : BitVec 6) (b : BitVec 6) (f : BitVec 1)
  /-- PUT_G: Guarded bulk put. (R360) -/
  | putG (l : BitVec 6) (a : BitVec 6) (b : BitVec 6) (f : BitVec 1)
  /-- GET: Bulk transfer from a peer into local memory. (R360) -/
  | get (l : BitVec 6) (a : BitVec 6) (b : BitVec 6) (f : BitVec 1)
  /-- GET_G: Guarded bulk get. (R360) -/
  | getG (l : BitVec 6) (a : BitVec 6) (b : BitVec 6) (f : BitVec 1)
  /-- TSEND: Arms a put that fires when a receive counter reaches a threshold. (R361) -/
  | tsend (p : BitVec 6) (a : BitVec 6) (b : BitVec 6) (f : BitVec 1)
  /-- CNT_RD: Reads a receive counter. (R362) -/
  | cntRd (d : BitVec 6) (c : BitVec 6)
  /-- CNT_SET: Sets a receive counter and binds or frees its region. (R362) -/
  | cntSet (l : BitVec 6) (a : BitVec 6) (c : BitVec 6)
  /-- CNT_ADD: Adds to a receive counter as a release at device scope. (R362) -/
  | cntAdd (v : BitVec 6) (c : BitVec 6)
  /-- CNTWAIT: Issues a wait that completes when a counter reaches a threshold. (R362) -/
  | cntwait (v : BitVec 6) (c : BitVec 6) (f : BitVec 1)
  /-- QPOST: Posts or unposts a message queue from a descriptor. (R363) -/
  | qpost (q : BitVec 6) (a : BitVec 6)
  /-- MSEND: Sends one message to a queue of a device. (R364) -/
  | msend (l : BitVec 6) (t : BitVec 6) (s : BitVec 6) (f : BitVec 1)
  /-- QPOP: Releases a held slot and pops the oldest filled slot of a queue. (R365) -/
  | qpop (r : BitVec 6) (d : BitVec 6) (q : BitVec 6)
  /-- PEER_STAT: Reads 64 bits of the dead-peer bitmap. (R366) -/
  | peerStat (d : BitVec 6) (i : BitVec 6)
  /-- PEER_CLR: Clears a dead peer, resets windows and resynchronises with it. (R366) -/
  | peerClr (i : BitVec 6)
  /-- SPAWN: Places one item from two scalar registers in a stage queue. (R134) -/
  | spawn (t : BitVec 3) (a : BitVec 6) (b : BitVec 6) (f : BitVec 1)
  /-- SPAWNV: Places one item per active lane in a stage queue. (R134) -/
  | spawnv (d : BitVec 7) (t : BitVec 3) (f : BitVec 1)
  /-- ITEMDONE: Retires the claimed items of the active lanes. (R135) -/
  | itemdone
  /-- LAUNCH: Appends a launch block address to a device-fed queue. (R136) -/
  | launch (a : BitVec 6) (b : BitVec 6) (f : BitVec 1)
  /-- PREEMPT_PT: Declares live registers and polls for a pending pre-emption request. (R137) -/
  | preemptPt (n : BitVec 7) (a : BitVec 6)
  /-- EVREAD: Reads an owned event counter. (R378) -/
  | evread (n : BitVec 4) (d : BitVec 6)
  /-- EVCTL: Writes the control word of an owned event counter. (R378) -/
  | evctl (n : BitVec 4) (c : BitVec 6)
  /-- TMARK: Counts a trace-mark event and writes a trace record when tracing is enabled. (R379) -/
  | tmark (v : BitVec 6)
  /-- MOD: Hint word supplying rounding, saturation, cache, scope, lease and temporary modifiers to the next instruction. (R45) -/
  | mod (m : BitVec 3) (s : BitVec 2) (c : BitVec 3) (o : BitVec 3) (l : BitVec 3) (t : BitVec 3)
  /-- LIMM: Two-word hint supplying a 32-bit immediate to the next instruction. (R43) -/
  | limm (imm : Word)
  /-- CLAUSE_FETCH: Fetches a whole clause into the slot's clause buffer and checks it by R40. (R145) -/
  | clauseFetch (f : FRef)
  /-- FIBRE_SWITCH: At a clause header the slot chooses its next current fibre. (R142) -/
  | fibreSwitch (wg slot : Nat)
  /-- HEADER_WAIT_SATISFIED: A fibre waiting at a header finds its waited flags zero and becomes ready, with acquire. (R42) -/
  | headerWaitSatisfied (f : FRef)
  /-- FIBRE_END_COMPLETE: An ending fibre's flags reach zero and its record becomes absent, leaving barriers and rejoins. (R150) -/
  | fibreEndComplete (f : FRef)
  /-- BARRIER_RELEASE: Every party has arrived at a barrier phase; the phase advances and parties are released. (R159) -/
  | barrierRelease (k : BarKind) (id : Nat)
  /-- REJOIN_RELEASE: All expected lanes have arrived at a rejoin register and the waiter continues with them. (R156) -/
  | rejoinRelease (wg slot : Nat) (j : BitVec 4)
  /-- FSYNC_RELEASE: Every fibre of the set waits at FSYNC; they are released and merged where possible. (R160) -/
  | fsyncRelease (wg slot : Nat) (set : BitVec 8)
  /-- ASYNC_FAULT_FREEZE: A fibre with a pending asynchronous fault freezes at a header, WAITF, FEND or EXIT. (R169) -/
  | asyncFaultFreeze (f : FRef)
  /-- HANDLER_FIBRE_START: A handler fibre starts in record 8 for a frozen fibre once record 8 is absent. (R170) -/
  | handlerFibreStart (wg slot : Nat)
  /-- LOAD_SPLIT: After GRACE aclk at a header, a fibre with a partly arrived split load splits off its late lanes. (R353) -/
  | loadSplit (f : FRef)
  /-- WRITE_THROUGH: A write arrives at its home slice, is performed, sets WVT and replies with the GWCT. (R82) -/
  | writeThrough (op part : Nat)
  /-- HOME_READ: A load miss or no-lease read is served at the home slice, granting a lease where allowed. (R81) -/
  | homeRead (op part : Nat)
  /-- SECTOR_FILL: A fill arrives at L1, merges unacknowledged stores, takes its lease and writes the load's registers. (R221) -/
  | sectorFill (op part : Nat)
  /-- GWCT_REPLY: A store's GWCT reply reaches the CU, freeing its write-through entry and completing the store. (R82) -/
  | gwctReply (op part : Nat)
  /-- MONITOR_ARM: A condition monitor takes an entry at its home slice and makes its first test. (R104) -/
  | monitorArm (op : Nat)
  /-- MONITOR_COMPLETE: A satisfied monitor's captured value reaches the fibre and its flag decrements. (R237) -/
  | monitorComplete (op : Nat)
  /-- FENCE_COMPLETE: A waiting FENCE finds its predecessors performed and its lease waits passed. (R88) -/
  | fenceComplete (f : FRef)
  /-- PAGE_WALK: A walker completes a page walk and fills translation caches for waiting lanes. (R209) -/
  | pageWalk (cu : Nat) (asid : BitVec 16) (page : DWord)
  /-- INVALIDATION_APPLY: A posted TLBINV removes matching translations across the device. (R213) -/
  | invalidationApply (inv : Nat)
  /-- ATOMIC_SERVICE_SLOT: A service fibre serves one atomic request from the next source in its ring. (R250) -/
  | atomicServiceSlot (group : Nat)
  /-- ATOMIC_REPLY: An atomic reply writes old values into the requester's registers and frees its return slot. (R251) -/
  | atomicReply (op part : Nat)
  /-- MX_QUEUE_ENTRY: A matrix operation takes its MX queue entry, reads its records and makes its issue checks. (R275) -/
  | mxQueueEntry (cu : Nat)
  /-- MATRIX_STEP: A K-step's operands arrive and the kiln, GSE and press commit the step. (R286) -/
  | matrixStep (cu : Nat)
  /-- MX_OPERATION_COMPLETE: A matrix operation completes, decrementing every signer's flag and idling the gang. (R273) -/
  | mxOperationComplete (cu : Nat)
  /-- GSE_OPERATION: A queued SPG.ROW or SPG.FLUSH runs in chunks and commits its result. (R306) -/
  | gseOperation (cu : Nat)
  /-- COPY_START: A queued CE operation takes a free channel. (R315) -/
  | copyStart (cu chan : Nat)
  /-- COPY_COMPLETE: A CE operation's last unit is performed and its flag decrements. (R317) -/
  | copyComplete (op : Nat)
  /-- SPAWN_APPEND: A spawn operation finds room and appends its items to the stage queue. (R134) -/
  | spawnAppend (op : Nat)
  /-- LAUNCH_APPEND: A LAUNCH operation finds FIFO room and appends its block address. (R136) -/
  | launchAppend (op : Nat)
  /-- LAUNCH_BLOCK_PROCESS: The front end reads a launch block and tests, launches or skips it, writing STATUS. (R111) -/
  | launchBlockProcess (q : Nat)
  /-- LAUNCH_TEST_RETEST: A waiting launch test is retested after a write to TADDR. (R110) -/
  | launchTestRetest (q : Nat)
  /-- PLACEMENT: On freed capacity or a new grid, pending clusters are placed by priority and round robin. (R117) -/
  | placement
  /-- AGE_PROMOTION: A pending cluster waiting 1 ms is promoted ahead of younger entries of its level. (R117) -/
  | agePromotion (grid : Nat)
  /-- GRID_COMPLETE: A grid's workgroups have ended and its accesses are performed; SVAL and STATUS are written. (R113) -/
  | gridComplete (grid : Nat)
  /-- STAGE_PACKING: The packing unit starts a stage fibre with up to W items in a free assigned slot. (R121) -/
  | stagePacking (wg slot : Nat)
  /-- PACK_HEAD_TIMEOUT: The head item has waited 256 aclk, allowing a partial pack. (R121) -/
  | packHeadTimeout (cluster stage : Nat)
  /-- SLOT_REBALANCE: Every 1,024 aclk free pipeline slots are reassigned to stages. (R123) -/
  | slotRebalance (wg : Nat)
  /-- STEAL_REQUEST: A queue engine with an empty stealable queue sends a steal request to a victim. (R124) -/
  | stealRequest (cluster stage : Nat)
  /-- STEAL_ANSWER: A victim's queue engine moves items from its tail to the requester. (R124) -/
  | stealAnswer (cluster stage : Nat)
  /-- STEAL_RETRY: 256 aclk after an empty answer the next steal request is sent. (R124) -/
  | stealRetry (cluster stage : Nat)
  /-- PIPELINE_END: All workgroups of a pipeline grid end together when every queue is empty and slots free. (R122) -/
  | pipelineEnd (grid : Nat)
  /-- MIGRATION: The WE moves a cluster whole to another rectangle. (R125) -/
  | migration (cluster x y : Nat)
  /-- FORWARDING_EXPIRY: A migration's forwarding entry expires after 64 microseconds. (R125) -/
  | forwardingExpiry (fwd : Nat)
  /-- PREEMPTION: A cluster is drained, stopped, settled, frozen and saved. (R127) -/
  | preemption (cluster level : Nat)
  /-- RESTORE: A saved cluster is placed, its images read and its operations restarted. (R131) -/
  | restore (cluster x y : Nat)
  /-- TSEND_FIRE: An armed send's counter reaches its threshold and it becomes a put. (R355) -/
  | tsendFire (op : Nat)
  /-- CNTWAIT_COMPLETE: A counter reaches the CNTWAIT threshold and the wait completes with acquire. (R362) -/
  | cntwaitComplete (op : Nat)
  /-- PACKET_SEND: A waiting sequenced packet enters the window and retry buffer and is sent on its route. (R345) -/
  | packetSend (tx : Nat)
  /-- PACKET_FORWARD: A device forwards a transit packet by its route fields and stage. (R335) -/
  | packetForward (p : Packet) (arrivedGlobal : Bool) (stage : Nat)
  /-- READ_PACKET: A target serves a READ and answers RDATA with the remaining wait. (R344) -/
  | readPacket (p : Packet)
  /-- WRITE_PACKET: A target performs a WRITE and acknowledges after its GWCT. (R344) -/
  | writePacket (p : Packet)
  /-- ATOMIC_PACKET: A target applies an ATOMIC through its service fibres or answers from the dedup cache. (R344) -/
  | atomicPacket (p : Packet)
  /-- PUT_PACKET: A target writes PUT payload, counts landings and acknowledges. (R344) -/
  | putPacket (p : Packet)
  /-- PUTG_PACKET: A target writes guarded PUTG payload with stamped or carried tags. (R344) -/
  | putgPacket (p : Packet)
  /-- GET_PACKET: A target reads a GET range and answers with GETDATA packets. (R344) -/
  | getPacket (p : Packet)
  /-- GETG_PACKET: A target answers a guarded GETG with tagged GETDATA. (R344) -/
  | getgPacket (p : Packet)
  /-- MSG_PACKET: A target places a message in a free queue slot or answers BUSY. (R358) -/
  | msgPacket (p : Packet)
  /-- CTRL_INVALIDATION: A target applies a share-group invalidation and acknowledges when complete. (R344) -/
  | ctrlInvalidation (p : Packet)
  /-- CTRL_RESYNC: A target resets its windows and dedup cache for a source and acknowledges. (R366) -/
  | ctrlResync (p : Packet)
  /-- RDATA: Read data arrives at the source with the remaining wait. (R344) -/
  | rdata (p : Packet)
  /-- ACK: An acknowledgement releases a packet from the retry buffer at the source. (R347) -/
  | ack (p : Packet)
  /-- ARESULT: Atomic results and target flags arrive at the source. (R344) -/
  | aresult (p : Packet)
  /-- GETDATA: Part of a get's data arrives and is written locally. (R344) -/
  | getdata (p : Packet)
  /-- BUSY: A message was not accepted; the source stops its timer and waits for GRANT or backoff. (R358) -/
  | busy (p : Packet)
  /-- GRANT: A reserved slot lets the source resend its message with the same SEQ. (R358) -/
  | grant (p : Packet)
  /-- REFUSED: A target refusal faults the source operation. (R351) -/
  | refused (p : Packet)
  /-- MSG_BACKOFF_RESEND: Without a grant, a BUSY message is resent after exponential backoff. (R358) -/
  | msgBackoffResend (tx : Nat)
  /-- GRANT_LAPSE: A slot reservation unused for FERTIMER lapses and passes to the next source. (R358) -/
  | grantLapse (queue : Nat)
  /-- FE_REPLAY_TIMER: A packet's replay timer fires and it is resent on the next route. (R348) -/
  | feReplayTimer (tx : Nat)
  /-- EOL_DATA_FLIT: A data flit is received and accepted in order or NAKed. (R339) -/
  | eolDataFlit (port : Nat) (fl : Flit)
  /-- EOL_NAK: A NAK makes the transmitter replay from ACK plus one. (R339) -/
  | eolNak (port : Nat) (fl : Flit)
  /-- EOL_REPLAY_TIMEOUT: 4 microseconds without ACK progress cause a replay; eight without progress start a retrain. (R339) -/
  | eolReplayTimeout (port : Nat)
  /-- TS1: A TS1 control flit with matching version and width moves a DOWN port to TRAIN. (R341) -/
  | ts1 (port : Nat) (fl : Flit)
  /-- TS1_TIMER: A DOWN port sends TS1 every microsecond. (R341) -/
  | ts1Timer (port : Nat)
  /-- TS2: A received TS2 moves a training port to CREDIT. (R341) -/
  | ts2 (port : Nat) (fl : Flit)
  /-- CREDIT_INIT: Credit init from the partner completes credit exchange and the port goes UP. (R341) -/
  | creditInit (port : Nat) (fl : Flit)
  /-- TRAIN_TIMEOUT: TRAIN or RETRAIN runs out of its 10 microseconds; DOWN or failed DOWN follows. (R341) -/
  | trainTimeout (port : Nat)
  /-- FEC_LOCK_LOSS: 1 microsecond without FEC lock sends an UP port to RETRAIN. (R341) -/
  | fecLockLoss (port : Nat)
  /-- LOCAL_PORT_RETRAIN: A UALink port retrains; after three failures it goes down and its frames are discarded. (R336) -/
  | localPortRetrain (port : Nat) (ev : UaTrain)
  /-- CTX_CREATE: Ocush command creating a context. (R383) -/
  | ctxCreate (ctxid : BitVec 16) (asid : BitVec 16) (root : DWord) (priv : Bool) (save size : DWord) (share : List (BitVec 16))
  /-- CTX_DESTROY: Ocush command ending a context without grids and freeing its resources. (R382) -/
  | ctxDestroy (ctxid : BitVec 16)
  /-- CTX_KILL: Ocush command killing a context. (R382) -/
  | ctxKill (ctxid : BitVec 16)
  /-- QUEUE_BIND: Ocush command binding a launch queue to a context. (R382) -/
  | queueBind (q : Nat) (ctxid : BitVec 16) (deviceFed : Bool)
  /-- QUEUE_UNBIND: Ocush command unbinding an idle launch queue. (R382) -/
  | queueUnbind (q : Nat)
  /-- MEM_RD: Ocush command reading memory. (R382) -/
  | memRd (a : OcAddr) (n : Nat)
  /-- MEM_WR: Ocush command writing memory with device-scope waits. (R382) -/
  | memWr (a : OcAddr) (data : List Byte)
  /-- REG_RD: Ocush command reading a 64-bit MMIO register. (R382) -/
  | regRd (pa : Nat)
  /-- REG_WR: Ocush command writing a 64-bit MMIO register. (R382) -/
  | regWr (pa : Nat) (v : DWord)
  /-- DBG_HALT: Debugger command halting a fibre. (R370) -/
  | dbgHalt (f : FRef)
  /-- DBG_RESUME: Debugger command releasing halted fibres. (R374) -/
  | dbgResume (f : FRef) (wholeGroup : Bool)
  /-- DBG_STEP: Debugger command releasing one fibre for one clause or issue unit. (R373) -/
  | dbgStep (f : FRef)
  /-- DBG_READ: Debugger command reading a halted fibre's state. (R382) -/
  | dbgRead (f : FRef) (off : Nat)
  /-- DBG_WRITE: Debugger command writing a halted fibre's state. (R382) -/
  | dbgWrite (f : FRef) (off : Nat) (v : DWord)
  /-- UNKNOWN_COMMAND: An unassigned Ocush command code is answered with status 0xFF. (R382) -/
  | unknownCommand (code : BitVec 8)
  /-- DOORBELL_WRITE: A write to a host-fed queue's doorbell starts or resumes its processing. (R387) -/
  | doorbellWrite (q : Nat) (v : DWord)
  /-- FERTIMER_WRITE: A write to the FE control block sets FERTIMER if in range. (R386) -/
  | fertimerWrite (v : DWord)
  /-- MMIO_REGISTER_WRITE: A write to an MMIO register without behaviour of its own, such as the route table. (R386) -/
  | mmioRegisterWrite (pa : Nat) (v : DWord)
  /-- EVOWN_WRITE: Writing a counter's owner disables the counter. (R376) -/
  | evownWrite (cu : Nat) (n : BitVec 4) (v : DWord)
  /-- FREEZE: The FREEZE pin or command stops all clocks at one edge for scan read-out. (R375) -/
  | freeze (lowNs : Nat)
  /-- MODULE_RESET: The RESET pin or reset command returns the main side to reset values and runs boot. (R393) -/
  | moduleReset (lowNs : Nat)
  /-- BOOT: The boot ROM verifies and loads firmware, which trains HBM, zeroes it and reports ready. (R394) -/
  | boot
  /-- UNCORRECTABLE_ERROR: An uncorrectable error kills the line's owner context and poisons the line. (R388) -/
  | uncorrectableError (u : ErrUnit) (pa : Nat)
  /-- SCRUB: The scrubber reads a line and corrects or acts on errors. (R389) -/
  | scrub (pa : Nat) (h : LineHealth)
  /-- SCRUB_POISONED_LINE: The scrubber rewrites a poisoned line with zeros and owner tag 0. (R388) -/
  | scrubPoisonedLine (pa : Nat)
  /-- ENGINE_RESET: The management controller resets a failing MX, CE or FE part, killing contexts using it. (R388) -/
  | engineReset (cu : Nat) (part : EnginePart)
  /-- DROOP_STRETCH: A droop detector stretches the next clock cycle. (R390) -/
  | droopStretch (cu : Option Nat)
  /-- POWER_CONTROL: Every 100 microseconds power is measured and aclk or kiln issue adjusted to the cap. (R391) -/
  | powerControl (milliwatts : Nat)
  /-- THERMAL_LIMIT: Junction temperature reaches 110 or 120 degrees C, limiting aclk or freezing the module. (R391) -/
  | thermalLimit (celsius : Nat)
  /-- SET_DEVID: Management command setting the device id. (R392) -/
  | setDevid (id : BitVec 16)
  /-- SET_POWER_CAP: Management command setting the power cap. (R391) -/
  | setPowerCap (watts : Nat)
  /-- MANAGEMENT_FREEZE: Management command freezing the module. (R375) -/
  | managementFreeze
  /-- MANAGEMENT_RESET: Management command resetting the module. (R393) -/
  | managementReset
  /-- PLDM_MONITORING: PLDM type 2 request for temperature, power, CLKSTAT or error counts. (R392) -/
  | pldmMonitoring (r : Reading)
  /-- PLDM_FIRMWARE_UPDATE: PLDM type 5 firmware update message. (R392) -/
  | pldmFirmwareUpdate (img : Image)
  /-- GET_VERSION: SPDM GET_VERSION request. (R392) -/
  | getVersion
  /-- GET_CAPABILITIES: SPDM GET_CAPABILITIES request. (R392) -/
  | getCapabilities
  /-- NEGOTIATE_ALGORITHMS: SPDM NEGOTIATE_ALGORITHMS request, ECDSA P-384 and SHA-384 only. (R392) -/
  | negotiateAlgorithms (ecdsaP384 sha384 : Bool)
  /-- GET_DIGESTS: SPDM GET_DIGESTS request. (R392) -/
  | getDigests
  /-- GET_CERTIFICATE: SPDM GET_CERTIFICATE request for slot 0. (R392) -/
  | getCertificate (slot : Nat)
  /-- CHALLENGE: SPDM CHALLENGE request. (R392) -/
  | challenge (nonce : List Byte)
  /-- GET_MEASUREMENTS: SPDM GET_MEASUREMENTS request for firmware digest, fuse state and boot state. (R392) -/
  | getMeasurements
  /-- CODEWORD: An RS(544,514) codeword arrives on a wavelength and is decoded, counting toward gaining FEC lock (8 good) or losing it (4 bad) and delivering its slices for deskew and flit reassembly. (R340) -/
  | codeword (port wave : Nat) (msg : Option (BitVec 20 × List Byte))
  /-- IDLE_FLIT: An idle EOL flit is received, and its ACK, NAK and credit-return fields act on the transmitter. (R338) -/
  | idleFlit (port : Nat) (fl : Flit)
  /-- GWCT_WAIT_END: A copy of lease time reaches the GWCT or observed time that a pending operation waits on. That operation then proceeds: a flag decrement at cluster or device scope, a release atomic, a barrier arrival, a target ACK (R101) or the first loads after restore (R106). (R93) -/
  | gwctWaitEnd (op : Nat)
deriving DecidableEq, Repr

end Sys2Proof
end

