-- ==== Sys2Proof/Config.lean ====
section
/-!
DEFINITION. What an implementation fixes and the spec leaves open: constants without a body. No proof can see a value of
one, so a statement that mentions one holds for every value. The assumption log names each of them.
-/
namespace Sys2Proof.Config

/-- An undefined register lane (R91), one for each value of the state's counter of free values. (Log 16 DESIGN CHOICE.) -/
opaque freeLane : Nat → Word
/-- The first record of the capability list, and those after it (R395): the spec gives their form and not their contents.
(Log 15 DESIGN CHOICE.) -/
opaque firstCap : CapRecord
/-- The records of the capability list after the first. (Log 15 DESIGN CHOICE.) -/
opaque moreCaps : List CapRecord

/-- May a record have this ID: one of the five that are defined, or one of Alkular's own (R395)? -/
def capId (n : BitVec 16) : Bool := (decide (1 ≤ n.toNat) && decide (n.toNat ≤ 5)) || n.getLsbD 15

/-- The record as the list holds it: an ID that the rule knows, and a LEN of at most 255 words (R395). -/
def CapRecord.fit (r : CapRecord) : CapRecord :=
  { r with id := if capId r.id then r.id else r.id ||| 0x8000#16, body := r.body.take 254 }

/-- The words of the records from byte offset `at'`, each with its header: NEXT is the place of the next record, 0 at the end
(R395). -/
def capWords (at' : Nat) : List CapRecord → List DWord
  | [] => []
  | r :: rs =>
    let len := 1 + r.body.length
    let next := at' + 8 * (len + r.gap.length)
    BitVec.ofNat 64 (r.id.toNat + r.ver.toNat * 2 ^ 16 + len * 2 ^ 24 + (if rs.isEmpty then 0 else next) * 2 ^ 32) ::
      (r.body ++ (if rs.isEmpty then [] else r.gap ++ capWords next rs))

/-- The longest beginning of a list of records that fits into `room` words. -/
def capsFit (room : Nat) : List CapRecord → List CapRecord
  | [] => []
  | r :: rs =>
    let n := 1 + r.body.length + r.gap.length
    if n ≤ room then r :: capsFit (room - n) rs else []

/-- The records of the 64 KiB block: at least the first (R386, R395). -/
def caps : List CapRecord :=
  let r := { CapRecord.fit firstCap with gap := firstCap.gap.take 1024 }
  r :: capsFit (8192 - (1 + r.body.length + r.gap.length)) (moreCaps.map CapRecord.fit)

/-- Byte `n` of the capability list from 0xC_0000_0000_0000 (R386, R395). -/
def capability (n : Nat) : Byte := ((((capWords 0 caps).getD (n / 8) 0).toNat / 2 ^ (8 * (n % 8))) : Nat)

/-- The record in which a reply travels (R382): its status and its data; the spec gives no layout. (Log 107 DESIGN CHOICE.) -/
opaque replyBytes : BitVec 8 → List Byte → List Byte
/-- The record in which a notification travels (R384): its code and its words. (Log 107 DESIGN CHOICE.) -/
opaque noteBytes : BitVec 8 → List DWord → List Byte
/-- The record in which the firmware reports ready (R394). (Log 107 DESIGN CHOICE.) -/
opaque readyBytes : List Byte
/-- The command that a 64-byte record of the control node holds, if its code is one of the table's (R382).
(Log 107 DESIGN CHOICE.) -/
opaque commandOf : List Byte → Option Instr
/-- The timing exponent and the sizes that GET_CAPABILITIES reports, byte by byte (R392). -/
opaque spdmSize : Nat → Byte
/-- What the special function units return inside their error bounds, by function code and argument (R196).
(Log 16 DESIGN CHOICE, 40 DESIGN CHOICE.) -/
opaque special : Nat → Word → Word
/-- The SHA-384 digest of a byte string (R392, R394). (Log 15 DESIGN CHOICE.) -/
opaque sha384 : List Byte → List Byte
/-- Whether an ECDSA P-384 signature verifies against the key in the fuses (R394). (Log 15 DESIGN CHOICE.) -/
opaque ecdsaOk : List Byte → List Byte → Bool
/-- Whether an LMS signature verifies against the key in the fuses (R394). (Log 15 DESIGN CHOICE.) -/
opaque lmsOk : List Byte → List Byte → Bool
/-- The device certificate chain of slot 0 (R392). (Log 15 DESIGN CHOICE.) -/
opaque certificate : List Byte
/-- The signature of an SPDM response with the device key (R392). (Log 15 DESIGN CHOICE.) -/
opaque spdmSign : List Byte → List Byte
/-- What the spec leaves open without saying a value, one for each value of the state's counter. (Log 16 DESIGN CHOICE.) -/
opaque freeWord : Nat → DWord

end Sys2Proof.Config
end

