-- ==== Sys2Proof/Machine/Types.lean ====
section
/-!
DEFINITION. The records of the fibre side of the machine: registers, clauses, fibres, warp slots, workgroups and the
operations in flight. Everything is plain data with a reset value.
-/
namespace Sys2Proof.Machine

/-- A finite table: the first pair of a key counts; a key that is not listed has the reader's default. -/
abbrev Tbl (κ α : Type) := List (κ × α)

/-- The scopes of R24, with the codes of R46. -/
inductive Scope where
  | fibre | slot | workgroup | cluster | device | system
deriving DecidableEq, Repr

/-- A vector register or a clause temporary: its tag and its lanes (R61); a lane that is not listed is zero. -/
structure VVal where
  tag : Tag
  lanes : List Word
deriving DecidableEq, Repr

/-- A route register: kind and parameter (R179). -/
structure RouteReg where
  kind : BitVec 3
  param : BitVec 6
deriving DecidableEq, Repr

/-- A clause as the clause buffer holds it: header address, header, extension word, instruction words (R38, R39, R145). -/
structure Clause where
  addr : DWord
  header : Word
  ext : Option Word
  words : List Word
deriving DecidableEq, Repr

/-- Words a clause occupies before its first instruction word. -/
def Clause.lead (c : Clause) : Nat := 1 + (match c.ext with | some _ => 1 | none => 0)

/-- A fault record: what FSQ registers 0x0010 to 0x0016 show (R167). -/
structure FaultRec where
  cause : BitVec 8
  async : Bool
  multi : Bool
  lane : Option Nat
  detail : BitVec 47
  pc : DWord
  addr : DWord
  lanes : DWord
  ipc : DWord
  cpos : DWord
  spos : DWord
deriving DecidableEq, Repr

/-- A fault of an asynchronous operation that has completed, waiting for the fibre's freeze point (R169). (Log 28 DEDUCED.) -/
structure AsyncFault where
  rec' : FaultRec
  flag : Option Nat
  /-- The lease time at which the operation completed: two completions of one time count as one aclk (R169). -/
  at' : Nat
deriving DecidableEq, Repr

/-- The states of a fibre record (R139). -/
inductive FSt where
  | absent | ready | blocked | frozen
deriving DecidableEq, Repr

/-- What a blocked fibre waits for (R139). -/
inductive Blk where
  | none
  | header
  | barWg (phase : Nat)
  | barGrid (phase : Nat)
  | barCw
  | waitj (j : Nat)
  | fsync (set : BitVec 8) (merge : Bool) (word : DWord)
  | ending
deriving DecidableEq, Repr

/-- Where a fibre came from when it took a branch, so that a target that is no header faults at the branch (R40, R155): the
clause, the unit, its temporaries (R37), and the link register of a `CALL` with the value it had (R47). (Log 22 DEDUCED.) -/
structure Via where
  clause : Clause
  unit0 : Nat
  t : Tbl Nat VVal
  link : Option (Nat × DWord)
deriving DecidableEq, Repr

/-- A fence in progress: classes before, classes after, scope, and the first operation identity after it (R88, R89). -/
structure FenceSt where
  pred : BitVec 8
  succ : BitVec 8
  scope : Scope
  mark : Nat
  /-- Address of the fence's issue unit. -/
  pc : DWord
deriving DecidableEq, Repr

/-- A completed write and its GWCT, kept while a fence of the fibre may have to wait for it (R88, R106). -/
structure WLog where
  id : Nat
  cls : BitVec 8
  gwct : Nat
deriving DecidableEq, Repr

/-- What the debugger holds of a fibre (R370-R374): it runs, is halted, steps to its next header or unit, or is to stop at its
next header or unit because a fibre of its workgroup halted. -/
inductive Dbg where
  | run | halted | stepClause | stepUnit | stopClause | stopUnit
deriving DecidableEq, Repr

/-- A fibre record (R12, R139). (Log 4 DESIGN CHOICE.) -/
structure Fibre where
  st : FSt
  blk : Blk
  /-- Identity of the fibre in the record: the model's own, so that an operation never reaches a later fibre (R27). -/
  fid : Nat
  /-- The header the fibre stands at, or the header of the clause it is in. -/
  pc : DWord
  /-- The clause it has loaded, at its header or inside it. -/
  clause : Option Clause
  /-- Its first word may issue or has issued: the header is passed (R42). -/
  inside : Bool
  /-- The next word to issue. -/
  idx : Nat
  /-- First word of the issue unit in progress (R44). -/
  unit0 : Nat
  /-- Words before the first instruction word of the clause it was inside when it gave the clause up (R146). -/
  lead : Nat
  hMod : Option Word
  hLimm : Option Word
  via : Option Via
  mask : DWord
  base : BitVec 10
  s : Tbl Nat DWord
  p : Tbl Nat DWord
  q : Tbl Nat RouteReg
  t : Tbl Nat VVal
  sticky : BitVec 9
  fsel : BitVec 4
  fsplit : DWord
  fault : Option FaultRec
  /-- The fault record that an earlier fibre left in the record (R167, R169). -/
  old : Option FaultRec
  pend : List AsyncFault
  /-- The tag word of the last guard fault of a CE operation (R329). -/
  ceTag : DWord
  live : Option (BitVec 7)
  ot : Nat
  wlog : List WLog
  fence : Option FenceSt
  /-- Fences still in progress of fibres that joined it or merged into it (R78). -/
  fences : List FenceSt
  /-- Phase of an unreturned BAR.CA and the first identity after it (R159). -/
  ca : Option (Nat × Nat)
  /-- First operation identity after the arrival at the barrier the fibre is blocked on. -/
  mark : Nat
  yield : Bool
  /-- Order in which fibres reached their headers (R142), and the lease time at which this one did (R353). -/
  since : Nat
  came : Nat
  /-- The current unit waits in place (R26, R31, R153). -/
  wait : Bool
  /-- What the unit that waits in place has done or read already, so that its next try does not do it again: an `ICINV.D` has
  made its discards (R147), an `ASINST` holds the words it has read (R259). -/
  begun : Option (List Word)
  /-- An EXIT of the slot ends the fibre at its next clause boundary (R151). -/
  doomed : Bool
  dbg : Dbg
  /-- The breakpoints that halted the fibre before the unit it is to issue, with their addresses (R372). -/
  bpSeen : List (Nat × DWord)
  /-- Index of the fibre a handler serves, and whether that fibre has left its freeze since (R170). -/
  serves : Nat
  served : Bool
deriving DecidableEq, Repr

/-- A record with no fibre. (Log 8 DESIGN CHOICE.) -/
def Fibre.absent : Fibre :=
  { st := .absent, blk := .none, fid := 0, pc := 0, clause := none, inside := false, idx := 0, unit0 := 0, lead := 0,
    hMod := none, hLimm := none, via := none, mask := 0, base := 0, s := [], p := [], q := [], t := [], sticky := 0,
    fsel := 0, fsplit := 0, fault := none, old := none, pend := [], ceTag := 0, live := none, ot := 0, wlog := [],
    fence := none, fences := [], ca := none, mark := 0, yield := false, since := 0, came := 0, wait := false, begun := none, doomed := false,
    dbg := .run, bpSeen := [], serves := 0, served := false }

/-- The fault record that a record shows: that of its fibre's last fault, else what an earlier fibre left (R167, R169). -/
def Fibre.record (f : Fibre) : Option FaultRec := match f.fault with | some r => some r | none => f.old

/-- The record after its fibre has gone: its fault record stays until the next fault (R169). -/
def Fibre.gone (f : Fibre) : Fibre := { Fibre.absent with old := f.record }

/-- A fibre whose clause the buffer no longer holds: it is to be fetched again before it issues (R145, R146).
(Log 24 DEDUCED, 27 DEDUCED.) -/
def Fibre.refetch (f : Fibre) : Fibre :=
  { f with
    clause := none, lead := (match f.clause with | some c => c.lead | none => f.lead)
    blk := if f.st = .ready then .header else f.blk }

/-- A rejoin register (R156). -/
structure Rejoin where
  expected : DWord
  arrived : DWord
  base : BitVec 10
  waiter : Option Nat
  sticky : BitVec 9
  /-- The fibres that joined, whose program order the waiter inherits (R78), with their observed time, write times and fences in
  progress. -/
  joined : List Nat
  ot : Nat
  wlog : List WLog
  fences : List FenceSt
deriving DecidableEq, Repr

/-- An idle rejoin register with an empty expected mask (R156). -/
def Rejoin.idle : Rejoin := { expected := 0, arrived := 0, base := 0, waiter := none, sticky := 0, joined := [], ot := 0, wlog := [], fences := [] }

/-- A clause buffer entry: ASID, clause, order of last use, and whether it is marked invalid (R145, R146). -/
structure CEntry where
  asid : BitVec 16
  clause : Clause
  used : Nat
  dead : Bool
deriving DecidableEq, Repr

/-- A warp slot (R12). Slots are numbered by WGSLOT in their workgroup; `number` is the SLOT of R17. -/
structure Slot where
  number : Nat
  v : Tbl Nat VVal
  j : Tbl Nat Rejoin
  cur : Nat
  cbuf : List CEntry
  /-- Frozen fibres that wait for a handler, in fault order (R170). -/
  hq : List Nat
  /-- Stage the balancer has assigned the slot to, and rounds the slot's stage has waited (R121, R123). -/
  stage : Option Nat
  freed : Bool
  /-- Stage whose items the slot runs, and the lanes that hold a claimed item (R121, R135). -/
  runs : Option Nat
  items : DWord
deriving DecidableEq, Repr

/-- A slot that no workgroup has placed. -/
def Slot.empty : Slot :=
  { number := 0, v := [], j := [], cur := 0, cbuf := [], hq := [], stage := none, freed := false, runs := none, items := 0 }

/-- Where a byte lives once its address is resolved (R20, R206). The last field is a byte offset. -/
inductive Loc where
  | mem (pa : Nat)
  | scratch (wg off : Nat)
  | regw (wg slot off : Nat)
  | pt (wg off : Nat)
  | peer (dev : BitVec 16) (pa : Nat)
  | decant (ctx : BitVec 12) (k off : Nat)
deriving DecidableEq, Repr

/-- How far one sector request of an operation has come. -/
inductive PSt where
  | todo
  | sent
  | bound
  | performed
  | done
deriving DecidableEq, Repr

/-- One sector request (R219) or atomic request (R249): its location, the lanes with their byte offsets, the bytes it
writes, the data bound to it, and what its reply carries. A request without lanes is one for a whole register (R233). -/
structure Part where
  loc : Loc
  va : DWord
  lanes : List (Nat × Nat)
  /-- The lanes that reach the sector through another page than the first: the sector's address there, and whether that page is
  writable, and its level (R97, R257). -/
  alt : Tbl Nat (DWord × Bool × Nat)
  wr : List (Nat × Byte)
  data : List Byte
  st : PSt
  wvt : Nat
  gwct : Nat
  /-- Lease class or request bound of the page and whether L1 may keep the sector (R80, R222). -/
  lease : Option Nat
  alloc : Bool
  /-- Expiry granted by the home (R80). -/
  expiry : Nat
  /-- The page is writable, UNCACHED, MMIO or COMPRESS as the translation said (R97, R208). -/
  writable : Bool
  uncached : Bool
  /-- It joined another request's sector-miss entry and holds none itself (R220). -/
  joined : Bool
  flags : BitVec 9
  fault : Option FaultRec
deriving DecidableEq, Repr

/-- A count of an operation in a completion flag: slot, flag number and lanes (R25). A matrix operation has one for each
signing fibre. -/
structure FlagCnt where
  wg : Nat
  slot : Nat
  flag : Option Nat
  lanes : DWord
  fid : Nat
deriving DecidableEq, Repr

/-- How a load's bytes become registers (R226, R229, R230, R233). -/
inductive LoadDst where
  /-- `n` bytes per lane into the registers from `vd`; `ext` is the LD.N form plus one, 0 for whole registers. -/
  | vec (vd n ext : Nat)
  | scal (sd n : Nat) (signed : Bool)
  | bcast (vd : Nat)
  | reg (vd : Nat)
  | none
deriving DecidableEq, Repr

/-- The operation of a built-in atomic (R252): the OP code, whether it is 64 bits wide, the tags that type it. -/
structure AtomTy where
  op : Nat
  wide : Bool
  tag : Tag
  tagHi : Tag
deriving DecidableEq, Repr

end Sys2Proof.Machine
end

