-- ==== Sys2Proof/Machine/TypesWork.lean ====
section
/-!
DEFINITION. The records of the work engine and of the contexts: launch records, grids, clusters, workgroups, launch
queues, pipelines, contexts. Everything is plain data with a reset value.
-/
namespace Sys2Proof.Machine

/-- The fields of a launch record (R114). -/
structure Launch where
  entry : DWord
  args : DWord
  x0 : Nat
  y0 : Nat
  w : Nat
  h : Nat
  k : Nat
  widthCode : Nat
  cshape : Nat
  prio : Nat
  fibres : Nat
  slots : Nat
  regs : Nat
  ctxid : BitVec 12
  scratch : Nat
  gridbar : Bool
  inherit : Bool
  pipe : Bool
  handler : Bool
  save : DWord
  hpc : DWord
  inhlo : Nat
  inhhi : Nat
  pipedecl : DWord
  wbase : List Nat
  /-- A reserved bit or value is set (R115, code 0x0101). -/
  bad : Bool
deriving DecidableEq, Repr

/-- A launch record of zeros. -/
def Launch.zero : Launch :=
  { entry := 0, args := 0, x0 := 0, y0 := 0, w := 1, h := 1, k := 1, widthCode := 0, cshape := 0, prio := 0,
    fibres := 1, slots := 1, regs := 0, ctxid := 0, scratch := 0, gridbar := false, inherit := false, pipe := false,
    handler := false, save := 0, hpc := 0, inhlo := 0, inhhi := 0, pipedecl := 0, wbase := [], bad := false }

/-- A stage entry of a pipeline declaration (R119). -/
structure Stage where
  entry : DWord
  qbase : DWord
  depth : Nat
  stealable : Bool
deriving DecidableEq, Repr

/-- Progress of a cluster of a grid (R116, R127, R131). -/
inductive CPlace where
  | pending | resident | stopping | saved | ended
deriving DecidableEq, Repr

/-- A stage queue of a cluster: waiting items (16 bytes each, with the time they arrived), items claimed, the assigned
stealing state (R120, R121, R124). -/
structure StageQ where
  items : List (BitVec 128)
  /-- Items appended since placement, less those stolen from the tail: the place of the next in the ring (R120). -/
  tail : Nat
  /-- The head item has waited 256 aclk (R121). -/
  headDue : Bool
  claimed : Nat
  lfsr : BitVec 16
  /-- The victim of an outstanding steal request (R124). -/
  victim : Option Nat
  /-- The last answer was empty and 256 aclk have not passed (R124). -/
  backoff : Bool
  /-- Consecutive rounds in which the stage received no slot (R123), by rank of the workgroup's CU. -/
  starved : Tbl Nat Nat
deriving DecidableEq, Repr

/-- An empty stage queue of a cluster with seed `c + 1`; each stage's queue has an LFSR of its own (R124).
(Log 164 DESIGN CHOICE.) -/
def StageQ.empty (c : Nat) : StageQ :=
  { items := [], tail := 0, headDue := false, claimed := 0, lfsr := BitVec.ofNat 16 (c + 1), victim := none, backoff := false,
    starved := [] }

/-- A cluster (R12, R116). (Log 124 DEDUCED.) -/
structure Cluster where
  grid : Nat
  inst : Nat
  /-- Number c of R120, taken in its original rectangle. -/
  c : Nat
  ox : Nat
  oy : Nat
  x : Nat
  y : Nat
  cw : Nat
  ch : Nat
  place : CPlace
  /-- Workgroups by rank. -/
  wgs : List Nat
  /-- Phase of the cluster barrier (R159). -/
  phase : Nat
  stages : Tbl Nat StageQ
  /-- Lease time at which it became pending (R117). -/
  since : Nat
  promoted : Bool
  placedAt : Nat
  frozen : Bool
  /-- Lease time at which its save began (R106). -/
  saveT : Nat
  /-- It stops for a migration to this origin and not for a save (R125). -/
  moveTo : Option (Nat × Nat)
deriving DecidableEq, Repr

/-- A grid (R12, R113). -/
structure Grid where
  ctx : BitVec 12
  launch : Launch
  queue : Nat
  block : DWord
  signal : Option (DWord × DWord)
  stages : List Stage
  phase : Nat
  clusters : List Nat
  /-- The largest GWCT of the grid's completed writes and of its signal (R113). -/
  gwct : Nat
  /-- The largest WVT the front end read before the launch (R85). -/
  ot : Nat
  /-- The largest observed time of its ended fibres and completed operations, for the release at its end (R95, R113). -/
  seen : Nat
  /-- Its final STATUS is written (R113). -/
  done : Bool
deriving DecidableEq, Repr

/-- Phase of a launch queue's processing (R111). -/
inductive QSt where
  | parked | run
  /-- A test waits for a service slot, or for a write at its word. -/
  | testing
  /-- A write satisfied the condition a waiting test was armed with, or a SEM test waits for the times of its release (R95). -/
  | hit
  /-- The STATUS of the block in hand waits for the times of its release (R95, R111). -/
  | status
  /-- The previous launch has to complete first. -/
  | serial
  | stopped
deriving DecidableEq, Repr

/-- A condition monitor's test (R236), and that of a waiting launch test (R110). -/
structure MonCond where
  op : BitVec 4
  size : Nat
  v : DWord
deriving DecidableEq, Repr

/-- A launch queue (R108, R111). (Log 185 DEDUCED.) -/
structure LQueue where
  ctx : Option (BitVec 12)
  deviceFed : Bool
  /-- Block addresses, each with the priority of the grid that issued its `LAUNCH` (R136). -/
  fifo : List (DWord × Nat)
  block : DWord
  /-- The priority that bounds the launches of the chain in hand, for a device-fed queue (R136). -/
  limit : Option Nat
  /-- Address of the link word by which the next block is reached (R111). -/
  via : Option DWord
  /-- The doorbell was written since the last link was read (R387). -/
  bell : Bool
  st : QSt
  /-- The queue's last grid. -/
  last : Option Nat
  /-- The block read, while its test or the previous launch is waited for (R111: the block is read once). -/
  held : List Byte
  /-- The physical address and condition a waiting test is armed with (R110). -/
  watch : Option (Nat × MonCond)
  /-- The STATUS to be written to the block in hand, and the offset of the link to follow then (R111). -/
  code : Nat
  link : Nat
  /-- The write times of the front end's writes for this queue, and the largest it has read (R82, R85). -/
  gwct : Nat
  ot : Nat
deriving DecidableEq, Repr

/-- A queue bound to no context. -/
def LQueue.unbound : LQueue :=
  { ctx := none, deviceFed := false, fifo := [], block := 0, limit := none, via := none, bell := false, st := .parked,
    last := none, held := [], watch := none, code := 0, link := 0, gwct := 0, ot := 0 }

/-- A decant binding (R240-R243). -/
structure Decant where
  base : DWord
  size : Nat
  idxbase : DWord
  srcbase : DWord
  count : Nat
  bound : Nat
  esize : Nat
  errIndex : Bool
  errXlate : Bool
deriving DecidableEq, Repr

/-- A context (R383) with what it owns on the device. -/
structure Ctx where
  live : Bool
  asid : BitVec 16
  root : Nat
  priv : Bool
  save : DWord
  size : Nat
  /-- Recorded translations of the save area: page and frame (R208). -/
  rec' : List (Nat × Nat)
  share : List (BitVec 16)
  decants : Tbl Nat Decant
  handlers : Tbl Nat (List Word)
  dbgctl : BitVec 3
  bpa : Tbl Nat DWord
  bpl : Tbl Nat DWord
  trbase : DWord
  trctl : DWord
deriving DecidableEq, Repr

/-- No context. -/
def Ctx.absent : Ctx :=
  { live := false, asid := 0, root := 0, priv := false, save := 0, size := 0, rec' := [], share := [], decants := [],
    handlers := [], dbgctl := 0, bpa := [], bpl := [], trbase := 0, trctl := 0 }

/-- A receive counter of a workgroup: value and the region that counts into it (R354). -/
structure RxCounter where
  value : Word
  region : Option (DWord × Nat)
deriving DecidableEq, Repr

/-- The state of a gang register (R271). -/
inductive GSt where
  | idle | gathering | issued
deriving DecidableEq, Repr

/-- A signature of a gang (R271, R284): member bit, fibre, captured mask, window base and flag, address of its `MSIGN`.
(Log 56 DEDUCED.) -/
structure Signer where
  bit : Nat
  who : FRef
  fid : Nat
  mask : DWord
  base : BitVec 10
  flag : Option Nat
  ipc : DWord
  /-- The first identity after the signature, where its interval of R273 begins. -/
  since : Nat
deriving DecidableEq, Repr

/-- A posted gang operation (R271, R288): 1 MMA, 2 MTILE, 3 MEPI with its minor, the accumulator base, the step word, the
hint word and the copies of the bindings. -/
structure MxPost where
  op : Nat
  minor : Nat
  acc : Nat
  word : DWord
  hint : Word
  a : DWord
  b : DWord
  e : DWord
  /-- Rows of the accumulators: DIM1 of the record that gives them (R272). -/
  m : Nat
deriving DecidableEq, Repr

/-- A gang register (R271); `cause` and `step` are those of R293; `opId` is the identity of the operation in flight. -/
structure Gang where
  st : GSt
  e : DWord
  signers : List Signer
  bindA : DWord
  bindB : DWord
  bindE : DWord
  post : Option MxPost
  opId : Option Nat
  cause : BitVec 8
  step : BitVec 16
deriving DecidableEq, Repr

/-- An idle gang with every other part zero (R271). -/
def Gang.idle : Gang :=
  { st := .idle, e := 0, signers := [], bindA := 0, bindB := 0, bindE := 0, post := none, opId := none, cause := 0,
    step := 0 }

/-- A workgroup (R12). -/
structure Wg where
  live : Bool
  ctx : BitVec 12
  grid : Nat
  cluster : Nat
  num : Nat
  inst : Nat
  rank : Nat
  /-- Its CU, numbered 16 y + x (R23). -/
  cu : Nat
  banks : List Nat
  nslots : Nat
  /-- Warp width W. -/
  warp : Nat
  /-- Registers per lane. -/
  regs : Nat
  /-- Scratchpad size, a multiple of 128 (R20). -/
  ssize : Nat
  scratch : Tbl Nat Byte
  gangs : Tbl Nat Gang
  pt : Tbl Nat (BitVec 6)
  counters : Tbl Nat RxCounter
  /-- Phase of BAR.WG (R159). -/
  phase : Nat
  /-- Level of a pending pre-emption request (R137). -/
  preempt : Option Nat
  /-- Lease time its CU must reach before a load issues (R106). -/
  leaseWait : Nat
deriving DecidableEq, Repr

/-- A workgroup that is not placed. -/
def Wg.unplaced : Wg :=
  { live := false, ctx := 0, grid := 0, cluster := 0, num := 0, inst := 0, rank := 0, cu := 0, banks := [], nslots := 0,
    warp := 16, regs := 0, ssize := 0, scratch := [], gangs := [], pt := [], counters := [], phase := 0, preempt := none,
    leaseWait := 0 }

/-- What a workgroup left in its banks (R19): the workgroup with its banks and scratchpad, the registers of its slots, and the sectors,
by byte of the cellar, over which L1 has since filled a line. (Log 145 DESIGN CHOICE.) -/
structure Left where
  wg : Wg
  regs : List (Tbl Nat VVal)
  filled : List Nat
deriving DecidableEq, Repr

end Sys2Proof.Machine
end

