-- ==== Sys2Proof/Machine/TypesOp.lean ====
section
/-!
DEFINITION. The operations in flight (R25, R27, R93) and the per-CU records of the engines: caches, queues, translation
structures, matrix and copy state, event counters. Everything is plain data with a reset value.
-/
namespace Sys2Proof.Machine

/-- A shape record as read (R267); `bad` says that a reserved field or code is set. -/
structure ShapeRec where
  addr : DWord
  base : DWord
  dim0 : Nat
  dim1 : Nat
  dim2 : Nat
  dim3 : Nat
  stride1 : Nat
  stride2 : Nat
  stride3 : Nat
  fmt : Nat
  mode : Bool
  guard : Bool
  version : Nat
  theta : Word
  scalebase : DWord
  cache : Nat
  ahead : Nat
  rsv : Bool
deriving DecidableEq, Repr

/-- A copy engine operation as captured at issue, with its committed offset (R317, R325-R328). (Log 157 DESIGN CHOICE.) -/
structure CopyArgs where
  /-- 0 CP, 1 CP.G, 2 CP.T, 3 CP.MC. -/
  kind : Nat
  dst : DWord
  src : DWord
  len : Nat
  guard : DWord
  hint : Word
  off : Nat
  /-- The expected version under SEG, once the header block was read (R323). -/
  segver : Option Nat
  /-- Under SEG, the first block with its tag, written last (R323). -/
  first : Option (List Byte × DWord)
  /-- Source bytes read with the units before, at an address: an aligned 8-byte unit is read at once (R77). -/
  held : Option (DWord × List Byte)
  recD : Option ShapeRec
  recS : Option ShapeRec
deriving DecidableEq, Repr

/-- A stretch of a range as translated: its offset in the range and the place of its first byte. -/
structure Run where
  off : Nat
  loc : Loc
deriving DecidableEq, Repr

/-- A bulk transfer of the fabric engine as captured at issue (R359, R360): destination and source addresses with their
translations, and the guard word of a guarded one. (Log 157 DESIGN CHOICE.) -/
structure XferArgs where
  get : Bool
  guard : Option DWord
  len : Nat
  dva : DWord
  sva : DWord
  dst : List Run
  src : List Run
  /-- Bytes handed to packets so far, and bytes acknowledged or written. -/
  sent : Nat
  acked : Nat
  /-- Bytes by offset of an 8-byte unit that lies across two packets, so that the unit is read, and written, at once (R77): of a
  put the bytes read ahead, of a get those that wait for the rest of their unit. -/
  hold : List (Nat × Byte)
  /-- The stretches, as offset and length, that a get has written. -/
  wrote : List (Nat × Nat)
deriving DecidableEq, Repr

/-- What an operation in flight does, with its operands as captured at issue. -/
inductive OpKind where
  | load (dst : LoadDst)
  | store
  | atomic (ty : AtomTy) (ret : Bool) (vd : Nat)
  | cas (wide : Bool) (vd : Nat)
  | acust (hid : Nat) (code : List Word) (vd : Nat)
  | monitor (c : MonCond) (sd : Nat)
  | token
  | gang (g : Nat) (post : MxPost) (signers : List Signer)
  | split (enc : Bool) (a b : DWord) (hint : Word)
  | spgRow (desc : DWord) (row off : Nat)
  | spgFlush (dst : DWord) (word : DWord) (header : Option Loc)
  | copy (c : CopyArgs)
  | spawn (stage : Nat) (items : List (BitVec 128))
  | launch (block : DWord) (q prio : Nat)
  | xfer (x : XferArgs)
  | tsend (x : XferArgs) (counter : Nat) (threshold : Word)
  | msend (dev : BitVec 16) (queue : Nat) (word : DWord) (data : List Byte)
  | cntwait (counter : Nat) (threshold : DWord)
  /-- A trace record whose SEQ is still to be written at a place (R379). -/
  | trace (va : DWord) (pa : Nat) (seq : DWord)
deriving DecidableEq, Repr

/-- How far an operation as a whole has come: it waits for its queue entry or gate, it is queued, it runs, or its accesses
are performed and it waits for the times or acknowledgements of its scope (R93). -/
inductive OpSt where
  | issued | queued | running | settling
deriving DecidableEq, Repr

/-- What a release waits for (R95): the accesses before an identity, the fibre's observed time and the latest GWCT of its
completed writes, as far as they lie before that identity. -/
structure Gate where
  mark : Nat
  ot : Nat
  gwct : Nat
deriving DecidableEq, Repr

/-- An operation in flight. -/
structure Op where
  id : Nat
  kind : OpKind
  st : OpSt
  counts : List FlagCnt
  who : FRef
  fid : Nat
  /-- The fibres in whose program order the operation lies, each with the identity at which it came there (R78). -/
  holders : Tbl Nat Nat
  ctx : BitVec 12
  cu : Nat
  lanes : DWord
  ipc : DWord
  cls : BitVec 8
  scope : Scope
  parts : List Part
  /-- The captured data registers of an atomic, by lane. -/
  argv : Tbl Nat (List Word)
  /-- Of a matrix operation: registers written since its first signature or its issue, the lanes, and the identity current at the
  write (R91, R273). -/
  notes : List (Nat × DWord × Nat)
  /-- The fibre's later accesses wait until it has read (R95). -/
  acq : Bool
  /-- A split load: its lanes stop being served one by one (R353). -/
  split : Bool
  /-- Its accesses wait until those before this identity are performed at its scope (R95). -/
  gate : Option Gate
  gwct : Nat
  ot : Nat
  sticky : BitVec 9
  fault : Option FaultRec
  /-- The tag word of its guard fault (R329). -/
  tagWord : DWord
deriving DecidableEq, Repr

/-- A sector of L1 (R218, R80, R28); `place` is the byte of the cellar at which its 128-byte line stands.
(Log 145 DESIGN CHOICE.) -/
structure L1Sec where
  pa : Nat
  place : Nat
  data : List Byte
  expiry : Nat
  wvt : Nat
  owner : BitVec 12
deriving DecidableEq, Repr

/-- A cached leaf: ASID, first byte of the page, page size code 0-3, the entry's bits, the frame (R209, R215). -/
structure TLeaf where
  asid : BitVec 16
  base : Nat
  size : Nat
  pte : DWord
  frame : Nat
  /-- Device of a PEER leaf. -/
  dev : BitVec 16
deriving DecidableEq, Repr

/-- A cached table pointer: ASID, level of the table it points to, first byte of the range it covers, the table (R209). -/
structure TTable where
  asid : BitVec 16
  level : Nat
  base : Nat
  table : Nat
deriving DecidableEq, Repr

/-- A translation or permission failure (R210, R211). -/
structure XFail where
  cause : BitVec 8
  reason : Nat
  level : Nat
deriving DecidableEq, Repr

/-- A prefetch that waits for a walk: its fibre, address and hint word, and whether it asks for the home slice only (R231). -/
structure PrefReq where
  who : FRef
  fid : Nat
  va : DWord
  hint : Word
  l2 : Bool
deriving DecidableEq, Repr

/-- A coalescer entry: page, the fibres whose lanes wait, the prefetches that wait, and the failure of its walk if it failed
(R209). -/
structure Coal where
  asid : BitVec 16
  page : DWord
  waiters : List (FRef × Nat)
  prefs : List PrefReq
  fail : Option XFail
deriving DecidableEq, Repr

/-- A rack sector: virtual and physical address, lease expiry (none for a read-only page), WVT, retained mark (R304). -/
structure RackSec where
  asid : BitVec 16
  va : DWord
  pa : Nat
  data : List Byte
  expiry : Option Nat
  wvt : Nat
  retained : Bool
  /-- The range of the page through which it was filled. -/
  page : Nat
  bytes : Nat
deriving DecidableEq, Repr

/-- A matrix operation that has its queue entry (R275, R278, R286): identity, records, next unit and end. The unit is a step
of `MMA` and `MTILE`, a write of a destination image. `acc` holds the accumulators by row and gang lane, read when the
operation took its entry. `img` is the destination image once pass 1 is made: for each write its place, address and bytes. -/
structure MxRun where
  op : Nat
  recA : ShapeRec
  recB : ShapeRec
  t : Nat
  tEnd : Nat
  acc : List (List Nat)
  img : Option (List (Loc × DWord × List Byte))
deriving DecidableEq, Repr

/-- An event counter of a CU (R376-R378): 48-bit count, overflow, event, enable, context filter, owner. -/
structure EvCnt where
  count : BitVec 48
  ovf : Bool
  event : BitVec 8
  en : Bool
  ctxonly : Bool
  owner : DWord
deriving DecidableEq, Repr

/-- A counter at reset. -/
def EvCnt.zero : EvCnt := { count := 0, ovf := false, event := 0, en := false, ctxonly := false, owner := 0 }

/-- The per-CU part of the engines (R10). -/
structure Cu where
  l1 : List L1Sec
  qleaf : Tbl Nat (List TLeaf)
  leaves : List TLeaf
  tables : List TTable
  coal : List Coal
  recs : List (BitVec 16 × DWord × ShapeRec × Nat)
  mxq : List Nat
  /-- The operations with a queue entry, oldest first (R275). -/
  mxRuns : List MxRun
  gseq : List Nat
  /-- Products of the GSE below the next 64, and bytes of the CE below the next 128, of the event counts (R376). -/
  gseFrac : Nat
  ceFrac : Nat
  /-- Issue units since lease time last advanced, of the event counts (R376). -/
  units : Nat
  ceq : List Nat
  chans : Tbl Nat Nat
  rack : List RackSec
  ev : Tbl Nat EvCnt
deriving DecidableEq, Repr

/-- A CU with every cache and queue empty. (Log 8 DESIGN CHOICE.) -/
def Cu.empty : Cu :=
  { l1 := [], qleaf := [], leaves := [], tables := [], coal := [], recs := [], mxq := [], mxRuns := [], gseq := [],
    gseFrac := 0, ceFrac := 0, units := 0, ceq := [], chans := [], rack := [], ev := [] }

/-- An armed or queued condition monitor at its home slice (R104, R238). -/
structure Mon where
  op : Nat
  slice : Nat
  armed : Bool
deriving DecidableEq, Repr

/-- A source of a service fibre's ring (R250): a warp slot of a CU, the front end, a peer device. -/
inductive ASrc where
  | slot (cu number : Nat)
  | frontEnd
  | peer (dev : BitVec 16)
deriving DecidableEq, Repr

/-- An atomic request in a service fibre's queue (R250): of a local operation's part, of a launch queue's SEM test, or of a
peer's packet. -/
inductive AReq where
  | op (id part : Nat)
  | test (q : Nat)
  | packet (p : Packet)
deriving DecidableEq, Repr

/-- What a posted invalidation covers (R213). -/
inductive InvRange where
  | all
  | asid (a : BitVec 16)
  | va (a : BitVec 16) (lo hi : Nat)
deriving DecidableEq, Repr

/-- A posted invalidation (R213, R214). -/
structure Inv where
  id : Nat
  fid : Nat
  range : InvRange
  sys : Bool
  applied : Bool
  /-- First operation identity after it was applied: earlier accesses must be performed (R214). -/
  mark : Nat
  /-- Share-group devices that have not answered. -/
  waiting : List (BitVec 16)
  /-- A fabric transaction asked for it: source and sequence to acknowledge (R344). -/
  reply : Option Packet
deriving DecidableEq, Repr

end Sys2Proof.Machine
end

