-- ==== Sys2Proof/Machine/TypesFab.lean ====
section
/-!
DEFINITION. The records of the fabric engine, of the links and of the control side, with their reset values. Everything is
plain data.
-/
namespace Sys2Proof.Machine

/-- Where a packet of this source stands (R345, R348, R358). -/
inductive TxSt where
  | waiting | sent | busy
deriving DecidableEq, Repr

/-- A sequenced packet of this source, from the moment it is made until it is answered (R345-R348). -/
structure TxPkt where
  id : Nat
  pkt : Packet
  st : TxSt
  /-- Lease time at which its replay timer or its backoff ends. -/
  deadline : Nat
  /-- Backoff of the next resend after BUSY in microseconds: 1, 2, 4, … 64 (R358). -/
  backoff : Nat
  replayed : Bool
  /-- The operation and part it serves, or the posted invalidation; 0 for none. -/
  op : Nat
  part : Nat
  /-- The bytes of a get's range that have arrived: offset and length (R344). -/
  got : List (Nat × Nat)
deriving DecidableEq, Repr

/-- A bound receive region: one run of physically consecutive bytes (R354). -/
structure Region where
  wg : Nat
  counter : Nat
  pa : Nat
  len : Nat
deriving DecidableEq, Repr

/-- The state of a queue slot (R357); `writing` is a slot whose message has not passed its GWCT (R358). -/
inductive MSlot where
  | free | writing | filled | held
deriving DecidableEq, Repr

/-- A posted message queue (R357, R358). -/
structure MsgQ where
  ctx : BitVec 12
  base : DWord
  /-- Physical addresses of the queue area's pages, from the page BASE lies in. -/
  pages : List Nat
  nslots : Nat
  cnt : Option Nat
  wg : Nat
  slots : Tbl Nat MSlot
  /-- Written and filled slots in order of arrival. -/
  order : List Nat
  /-- The wait bitmap: each source with its message that was answered BUSY last. -/
  waiting : Tbl (BitVec 16) Packet
  lastGrant : BitVec 16
  /-- Reserved slots: slot, source, lease time at which the reservation lapses. -/
  reserved : List (Nat × BitVec 16 × Nat)
deriving DecidableEq, Repr

/-- Transaction classes of a UALink frame; `other` stands for every class that the ports do not support (R336). -/
inductive UaClass where
  | read | atomic | write | other
deriving DecidableEq, Repr

/-- The transmitter of an EOL port: the flits handed to it and not yet striped, and the count of its next codeword (R340). -/
structure Line where
  wait : List Flit
  count : Nat
deriving DecidableEq, Repr

/-- What the module has sent: replies and notifications of the Ocush port, packets, flits as they are handed to a port's transmitter,
codewords of a wavelength with their frame word and slices (R340), management answers. -/
inductive Msg where
  | reply (status : BitVec 8) (data : List Byte)
  | note (code : BitVec 8) (data : List DWord)
  /-- A UALink frame of a local port: its transaction class, its packet, the port, the channel (R336). -/
  | frame (cls : UaClass) (p : Packet) (port : Nat) (chan : Nat)
  /-- A local port asks its partner to replay, after a frame whose CRC fails (R336). -/
  | askAgain (port : Nat)
  | flit (port : Nat) (f : Flit)
  | codeword (port wave : Nat) (frame : BitVec 20) (slices : List Byte)
  | mgmt (data : List Byte)
  /-- The firmware reports ready (R394). -/
  | ready
  /-- What the scan interface read of the frozen module (R375). -/
  | scan (data : List Byte)
deriving DecidableEq, Repr

/-- What is owed for a packet whose effect is performed and whose GWCT has not passed (R101, R347), for a local piece of a
transfer, or for a read that waits for a poisoned line to be rewritten (R351). -/
structure Owed where
  id : Nat
  reply : Option Packet
  gwct : Nat
  /-- Bytes landed, to be counted before the answer: physical address and length (R354). -/
  landed : List (Nat × Nat)
  /-- A queue whose slot is filled, its counter advancing by one. -/
  queue : Option (Nat × Nat)
  /-- The local transfer that wrote the bytes, and how many; 0 for none. -/
  op : Nat
  len : Nat
  /-- A request to be served again when its lines are rewritten. -/
  read : Option Packet
  /-- A reply to a command of the control node (R382). -/
  say : Option Msg
deriving DecidableEq, Repr

/-- The base-die part of the fabric engine. -/
structure Fe where
  devid : BitVec 16
  fertimer : DWord
  replays : DWord
  spur : DWord
  disc : DWord
  members : Word
  gateways : Tbl Nat DWord
  nextSeq : Tbl (BitVec 16 × BitVec 2) (BitVec 16)
  tx : List TxPkt
  rx : Tbl (BitVec 16 × BitVec 2) (BitVec 16 × List Nat)
  dedup : Tbl (BitVec 16) (List (BitVec 16 × Packet))
  owed : List Owed
  dead : List (BitVec 16)
  /-- Peers whose resynchronisation is not acknowledged, each with the fibre that waits for it (R366). -/
  resync : List (BitVec 16 × FRef × Nat)
  regions : List Region
  queues : Tbl Nat MsgQ
  /-- Packets that were replayed: destination, class, number (R347). -/
  replayed : List (BitVec 16 × BitVec 2 × BitVec 16)
deriving DecidableEq, Repr

/-- The fabric engine after a module reset (R367, R393). (Log 8 DESIGN CHOICE.) -/
def Fe.reset : Fe :=
  { devid := 0, fertimer := 100000, replays := 0, spur := 0, disc := 0, members := 0, gateways := [], nextSeq := [],
    tx := [], rx := [], dedup := [], owed := [], dead := [], resync := [], regions := [], queues := [], replayed := [] }

/-- A local UALink port (R336). (Log 108 DESIGN CHOICE.) -/
structure LocalPort where
  up : Bool
  fails : Nat
  /-- Lease time at which the retrain in progress began. -/
  since : Option Nat
  /-- The link replay buffer: frames sent and not yet acknowledged, each with its channel. -/
  held : List (Nat × Packet)
  /-- The transmit queue: frames that wait for the end of a retrain, each with its channel. -/
  queue : List (Nat × Packet)
  /-- Frames received of a class that the port does not support, discarded (R336). -/
  other : Nat
deriving DecidableEq, Repr

/-- A local port that has not trained. -/
def LocalPort.down : LocalPort := { up := false, fails := 0, since := none, held := [], queue := [], other := 0 }

/-- The states of an EOL port (R341). -/
inductive LinkSt where
  | down | train | credit | up | retrain
deriving DecidableEq, Repr

/-- FEC lock of a wavelength: locked, consecutive good codewords, consecutive bad ones, last count (R340). -/
structure Wave where
  locked : Bool
  good : Nat
  bad : Nat
  count : Nat
deriving DecidableEq, Repr

/-- A wavelength without lock. -/
def Wave.dark : Wave := { locked := false, good := 0, bad := 0, count := 0 }

/-- An EOL port (R337-R341). -/
structure Port where
  st : LinkSt
  failed : Bool
  waves : Tbl Nat Wave
  /-- Codeword slices waiting for deskew: codeword count and wavelength, bytes. -/
  slices : List ((Nat × Nat) × List Byte)
  /-- Lease time at which the state, or in UP the loss of FEC lock, began. -/
  since : Nat
  retrains : Nat
  /-- In RETRAIN: TS2 was received again. -/
  ts2 : Bool
  partner : BitVec 16
  partnerPort : BitVec 8
  txSeq : BitVec 12
  held : List Flit
  ackAt : Nat
  replays : Nat
  rxNext : BitVec 12
  lastNak : Option Nat
  credits : Tbl Nat Nat
  /-- Held flits that a retrain has left to be sent again and that wait for credit. -/
  again : List Flit
  /-- Packets and records that wait for credit: channel and bytes. -/
  queue : List (Nat × List Byte)
  /-- Received payload bytes of each channel not yet cut into packets. -/
  stream : Tbl Nat (List Byte)
  lastTs1 : Nat
deriving DecidableEq, Repr

/-- A port in DOWN. -/
def Port.down : Port :=
  { st := .down, failed := false, waves := [], slices := [], since := 0, retrains := 0, ts2 := false, partner := 0,
    partnerPort := 0, txSeq := 0, held := [], ackAt := 0, replays := 0, rxNext := 0, lastNak := none, credits := [],
    again := [], queue := [], stream := [], lastTs1 := 0 }

/-- What the module as a whole is doing (R375, R393, R394); `links` is the end of boot, when the firmware brings up the links. -/
inductive Phase where
  | boot | links | ready | recovery | frozen
deriving DecidableEq, Repr

/-- The control and management side (R388-R394). -/
structure Ctl where
  phase : Phase
  aclk : Nat
  capped : Bool
  thermal : Bool
  droop : Bool
  short : Bool
  capw : Nat
  droopAt : Nat
  /-- Power of the last ten measurements in mW, newest first (R391). -/
  power : List Nat
  celsius : Nat
  /-- Spacing of kiln issue, in steps (R391). -/
  spacing : Nat
  flash : Option Image
  secCounter : Nat
  loaded : Option Image
  /-- Correctable errors of the scrubber's pass (R389). -/
  corrected : Nat
  /-- Uncorrectable errors since reset, of the error counts (R392). -/
  errors : Nat
  /-- Errors corrected since reset (R392). -/
  fixed : Nat
  spdmVersion : Bool
  spdmCaps : Bool
  spdmAlgs : Bool
deriving DecidableEq, Repr

/-- Reset values of R391; an empty flash. (Log 8 DESIGN CHOICE, 9 DESIGN CHOICE.) -/
def Ctl.reset : Ctl :=
  { phase := .boot, aclk := 940, capped := false, thermal := false, droop := false, short := false, capw := 4200,
    droopAt := 0, power := [], celsius := 0, spacing := 0, flash := none, secCounter := 0, loaded := none,
    corrected := 0, errors := 0, fixed := 0, spdmVersion := false, spdmCaps := false, spdmAlgs := false }

/-- A forwarding entry of a migration (R125). (Log 125 DESIGN CHOICE.) -/
structure Forward where
  id : Nat
  cu : Nat
  wg : Nat
  expires : Nat
deriving DecidableEq, Repr

/-- A line of a read-only peer page held in the local L2 for a context, with the time the target's remaining wait ends by the
local copy of lease time (R85, R100). (Log 53 DEDUCED.) -/
structure PeerSec where
  asid : BitVec 16
  ctx : BitVec 12
  va : DWord
  dev : BitVec 16
  pa : Nat
  wvt : Nat
  data : List Byte
  /-- The range of the page through which it was filled. -/
  page : Nat
  bytes : Nat
deriving DecidableEq, Repr

end Sys2Proof.Machine
end

