-- ==== Sys2Proof/Machine/State.lean ====
section
/-!
DEFINITION. The state of the module: everything the spec gives it, as plain data, with the reasons a step can stop and the
state right after reset.
-/
namespace Sys2Proof.Machine

/-- Reasons the machine stops with a fault. None of the spec's faults stops the machine: they freeze a fibre, refuse a
command or kill a context, all of which are next states (R29). -/
inductive Fault where
  /-- Raised by nothing in this model; kept so that a stop would have a name. Safe: a stop claims nothing. -/
  | stuck
deriving DecidableEq, Repr

/-- Reasons the machine refuses. -/
inductive Refusal where
  /-- Raised by an arm of `exec` whose instruction has no meaning yet. Safe: nothing is claimed of it. -/
  | notModelled (mnemonic : String)
deriving DecidableEq, Repr

/-- What the context runtime does with a frozen fibre: resumes it, resumes it at a header, or ends it (R30, R171). -/
inductive Resume where
  | again
  | goTo (pc : DWord)
  | fin
deriving DecidableEq, Repr

/-- What the management controller's scan interface reads of a frozen module (R375): eight bytes at a physical address, which is
HBM through its L2 slice or a bank of a cellar, eight bytes of a workgroup's records and registers by their place in its save image,
the value of a flag in a fibre, a system register as a fibre sees it, or a launch queue. (Log 182 DESIGN CHOICE.) -/
inductive Scan where
  | bytes (pa : Nat)
  | image (wg off : Nat)
  | flag (r : FRef) (n : Nat)
  | register (r : FRef) (n : Nat)
  | queue (n : Nat)
deriving DecidableEq, Repr

/-- Which agent moves next, and what the outside sends: one entry of the agenda.
(Log 1 DESIGN CHOICE, 2 DESIGN CHOICE, 108 DESIGN CHOICE.) -/
inductive Turn where
  /-- The warp slot issues the next word of its current fibre (R141). -/
  | fibre (wg slot : Nat)
  /-- A hardware step, or something that arrives from outside. -/
  | event (i : Instr)
  /-- A packet reaches the router: by a global link or not, and the stage of its channel (R334, R335). -/
  | packet (p : Packet) (arrivedGlobal : Bool) (stage : Nat)
  /-- A flit is reassembled at a port (R340). -/
  | flit (port : Nat) (fl : Flit)
  /-- A UALink frame arrives at a local port: its transaction class, whether its CRC holds, its packet, and the stage of its channel
  (R336). -/
  | frame (port : Nat) (cls : UaClass) (good : Bool) (p : Packet) (stage : Nat)
  /-- The partner of a local port acknowledges its oldest frames, and may ask for the others again (R336). -/
  | frameReply (port : Nat) (n : Nat) (again : Bool)
  /-- A 64-byte record arrives on channel 0 of the Ocush link (R382). -/
  | record (bs : List Byte)
  /-- A command arrives on the management port: its I3C target address, and what it asks (R392). -/
  | management (target : BitVec 7) (i : Instr)
  /-- The context runtime resumes or ends a fibre (R171). -/
  | resume (r : FRef) (how : Resume)
  /-- The control node writes a debug or trace register of a context (R371, R379). -/
  | debug (ctx : BitVec 12) (n : Nat) (v : DWord)
  /-- The scan interface of a frozen module is read (R375). -/
  | scan (what : Scan)
  /-- Lease time advances by some nanoseconds; the listed copies take the listed lags, where R80 allows them. -/
  | tick (ns : Nat) (lags : List (Nat × Nat))
deriving DecidableEq, Repr

/-- Recorded expiry and write visibility time of a sector (R80, R82). -/
structure SecMeta where
  recExp : Nat
  wvt : Nat
deriving DecidableEq, Repr

/-- The module (R10, R12, R28, R80, R206). (Log 3 DESIGN CHOICE.) -/
structure State where
  -- lease time (R80)
  now : Nat
  /-- Lag of each copy of lease time in ns: CU n has key n, slice n has key 256 + n, the shared base-die units 2048. -/
  lags : Tbl Nat Nat
  -- the model's own
  nextId : Nat
  freeCtr : Nat
  agenda : List Turn
  actor : FRef
  rr : Nat
  -- work
  fibres : Tbl FRef Fibre
  slots : Tbl (Nat × Nat) Slot
  wgs : Tbl Nat Wg
  clusters : Tbl Nat Cluster
  grids : Tbl Nat Grid
  queues : Tbl Nat LQueue
  ctxs : Tbl (BitVec 12) Ctx
  /-- CUs reserved for pending clusters, each with the highest level that reserves it (R117). -/
  reserved : Tbl Nat Nat
  lastPlaced : Tbl Nat Nat
  lastIssue : Tbl Nat Nat
  forwards : List Forward
  /-- Matrix operations of saved or moving workgroups at their committed steps (R279). -/
  savedRuns : List MxRun
  -- operations and engines
  ops : List Op
  cus : Tbl Nat Cu
  mons : List Mon
  ase : List (Nat × ASrc × AReq)
  ring : Tbl Nat Nat
  invs : List Inv
  -- memory (R206, R318, R28, R388)
  mem : List Host.Cell
  sects : Tbl Nat SecMeta
  guards : Tbl Nat DWord
  owners : Tbl Nat (BitVec 12)
  poison : List (Nat × BitVec 12)
  peerL2 : List PeerSec
  /-- Bytes of cellar banks, by on-chip address, that hold no register, scratchpad byte or L1 line, as written through the on-chip
  physical map (R23). -/
  slack : Tbl Nat Byte
  /-- What workgroups that left have left in their banks, the last first (R19). -/
  left : List Left
  -- fabric, links, control
  fe : Fe
  locals : Tbl Nat LocalPort
  ports : Tbl Nat Port
  /-- What the transmitters of the EOL ports still have to stripe over their wavelengths (R337, R340). -/
  lines : Tbl Nat Line
  ctl : Ctl
  /-- Everything the module has said, the oldest first. -/
  out : List Msg
  /-- How many entries of `out` are past the Ocush port's transmit queue: a reply or notification after them waits (R382, R384). -/
  said : Nat
deriving DecidableEq, Repr

/-- The module right after a module reset (R6, R393): no context, no work, empty caches and queues, memory zero.
(Log 3 DESIGN CHOICE, 6 DESIGN CHOICE, 7 DESIGN CHOICE, 8 DESIGN CHOICE.) -/
def State.reset : State :=
  { now := 0, lags := [], nextId := 1, freeCtr := 0, agenda := [], actor := { wg := 0, slot := 0, idx := 0 }, rr := 0,
    fibres := [], slots := [], wgs := [], clusters := [], grids := [], queues := [], ctxs := [], reserved := [],
    lastPlaced := [], lastIssue := [], forwards := [], savedRuns := [], ops := [], cus := [], mons := [], ase := [],
    ring := [], invs := [], mem := [], sects := [], guards := [], owners := [], poison := [], peerL2 := [], slack := [],
    left := [], fe := Fe.reset, locals := [], ports := [], lines := [], ctl := Ctl.reset, out := [], said := 0 }

end Sys2Proof.Machine
end

