-- ==== Sys2Proof/WellFormed.lean ====
section
/-!
DEFINITION. Which instructions have no reserved or forbidden field value. Each check names the rule that makes the value
illegal; the value raises illegal instruction, cause 0x01 (R7, R36, R47), when the instruction issues. A hardware step has
no encoding and is always well formed.
-/
namespace Sys2Proof

/-- The system register numbers that some chapter lists (R167, R216, R367, R371, R376, R379, R391). -/
def sysRegListed (n : Nat) : Bool :=
  n ≤ 5 || (0x10 ≤ n && n ≤ 0x16) || n == 0x200 || n == 0x201 || (0x800 ≤ n && n ≤ 0x805) || n == 0xA00 ||
  (0xA04 ≤ n && n ≤ 0xA0B) || (0xA10 ≤ n && n ≤ 0xA1F) || n == 0xA21 || n == 0xA22 || n == 0xB00

/-- A tag a load, `LDB` or `VMOVI` may give: 0x1-0xD (R191, R225, R230). -/
def dataTag (t : Tag) : Bool := 1 ≤ t.toNat && t.toNat ≤ 13

/-- No field of the instruction holds a value that its rule reserves or forbids. (Log 18 DESIGN CHOICE.) -/
def wellFormed : Instr → Bool
  | .waitf m | .setf m | .clrf m => m != 0                                  -- R162
  | .sysr _ r | .sysw _ r => sysRegListed r.toNat                           -- R167
  | .vmovi _ t _ => dataTag t                                               -- R191
  | .vunpk _ _ _ e => e.toNat ≤ 9                                           -- R197
  | .vcvt d _ _ t => t != 0 && (t.toNat < 14 || d.toNat % 2 == 0)           -- R198
  | .vretag _ _ _ t => t != 0                                               -- R199
  | .vreduce _ _ _ o => o.toNat ≤ 5                                         -- R200
  | .vscan _ _ _ _ o => o.toNat ≤ 4                                         -- R201
  | .route q k p => q != 0 && k.toNat ≤ 4 && (k.toNat != 4 || p.toNat < 16) -- R36, R181
  | .routeS q k _ => q != 0 && k.toNat ≤ 4                                  -- R36, R181
  | .scmp _ _ _ r => r.toNat ≤ 9                                            -- R163
  | .sbfx _ _ p l _ | .sbfi _ _ p l => p.toNat + l.toNat + 1 ≤ 64           -- R165
  | .ld32 _ _ _ t _ => dataTag t                                            -- R225
  | .ld64 d _ _ t _ => 1 ≤ t.toNat && t.toNat ≤ 14 && d.toNat % 2 == 0
  | .ld128 d _ _ t _ => dataTag t && d.toNat % 4 == 0
  | .ldN _ _ _ n _ => n.toNat ≤ 5
  | .st64 d _ _ _ => d.toNat % 2 == 0                                       -- R227
  | .st128 d _ _ _ => d.toNat % 4 == 0
  | .lds _ _ n _ _ => n.toNat ≤ 6                                           -- R229
  | .ldb _ _ t _ => dataTag t                                               -- R230
  | .fence p s c => p != 0 && s != 0 && c != 0 && c != 7                    -- R87
  | .waitc _ _ o _ _ => o.toNat ≤ 7                                         -- R236
  | .clst d _ _ n _ => n.toNat ≤ 2 && d.toNat % (2 ^ n.toNat) == 0          -- R234
  | .amo _ _ _ o r _ => o != 7 && r.toNat ≤ 4                               -- R253, R35
  | .amor _ _ _ o r _ => o.toNat ≤ 5 && (r == 0 || r == 2 || r == 4)        -- R255
  | .cas d _ _ s r _ => s.toNat ≤ 4 && (r == 0 || r == 1 || r == 4) && d.toNat % 2 == 0  -- R97, R256
  | .acust d _ _ _ _ _ => d.toNat % 2 == 0                                  -- R261
  | .atrans _ _ n => n.toNat ≤ 2                                            -- R215
  | .mbind _ _ n => n.toNat ≤ 2                                             -- R282
  | .mepi _ _ m => m.toNat ≤ 5                                              -- R287
  | .mstat i _ _ => i.toNat ≤ 2                                             -- R293
  | .cpG l _ _ _ | .putG l _ _ _ | .getG l _ _ _ | .tsend l _ _ _ | .msend l _ _ _ => l.toNat % 2 == 0  -- R324, R359
  | .cpStat i _ => i.toNat ≤ 2                                              -- R329
  | .spawnv d _ _ => d.toNat % 4 == 0                                       -- R133
  | .mod rm sat c o l _ => rm.toNat ≤ 4 && sat.toNat ≤ 2 && c.toNat ≤ 4 && o.toNat ≤ 6 && l.toNat ≤ 6   -- R45, R46
  | _ => true

end Sys2Proof
end

