-- ==== Sys2Proof/Machine/Ops.lean ====
section
/-!
DEFINITION. The named operations over tables, registers, memory, flags and operations in flight that the meanings share,
taking a fault, and moving a fibre between clauses.
-/
namespace Sys2Proof.Machine

-- Tables --------------------------------------------------------------------------------------------------------------

/-- The value of a key, or the default. (Log 17 DESIGN CHOICE.) -/
def Tbl.get {κ α : Type} [DecidableEq κ] (t : Tbl κ α) (k : κ) (d : α) : α :=
  match t with
  | [] => d
  | (k', v) :: t' => if k' = k then v else Tbl.get t' k d

/-- Is the key listed? -/
def Tbl.has {κ α : Type} [DecidableEq κ] (t : Tbl κ α) (k : κ) : Bool :=
  match t with
  | [] => false
  | (k', _) :: t' => if k' = k then true else Tbl.has t' k

/-- Replaces the value of a key, or lists it last. (Log 17 DESIGN CHOICE.) -/
def Tbl.set {κ α : Type} [DecidableEq κ] (t : Tbl κ α) (k : κ) (v : α) : Tbl κ α :=
  match t with
  | [] => [(k, v)]
  | (k', v') :: t' => if k' = k then (k, v) :: t' else (k', v') :: Tbl.set t' k v

/-- Removes a key. -/
def Tbl.del {κ α : Type} [DecidableEq κ] (t : Tbl κ α) (k : κ) : Tbl κ α := t.filter (fun e => e.1 ≠ k)

/-- The keys in order. -/
def Tbl.keys {κ α : Type} (t : Tbl κ α) : List κ := t.map (·.1)

-- Bits and lanes ------------------------------------------------------------------------------------------------------

/-- Bits `lo` to `lo + n - 1` of a number. -/
def bitsN (x lo n : Nat) : Nat := x / 2 ^ lo % 2 ^ n

/-- The field of `n` bits at `lo` of a 64-bit word. -/
def fld (x : DWord) (lo n : Nat) : Nat := bitsN x.toNat lo n

/-- Sign extension of a 32-bit word to 64 bits. -/
def sext32 (w : Word) : DWord := w.signExtend 64

/-- A mask of the low `w` bits (R166). (Log 29 DEDUCED.) -/
def fullMask (w : Nat) : DWord := BitVec.ofNat 64 (2 ^ w - 1)

/-- The lanes of a mask in ascending order. -/
def lanesOf (m : DWord) : List Nat := (List.range 64).filter (fun l => m.getLsbD l)

/-- The mask of a list of lanes. -/
def maskOf (ls : List Nat) : DWord := ls.foldl (fun m l => m ||| (1#64 <<< l)) 0

/-- Replaces element `n`, padding with zeros. -/
def setNth (l : List Word) (n : Nat) (w : Word) : List Word :=
  match l, n with
  | [], 0 => [w]
  | [], n + 1 => 0 :: setNth [] n w
  | _ :: t, 0 => w :: t
  | x :: t, n + 1 => x :: setNth t n w

/-- Lane `l` of a register (R61). -/
def VVal.lane (v : VVal) (l : Nat) : Word := v.lanes.getD l 0

/-- An unwritten register of a slot: zero, INVALID (R19). -/
def VVal.invalid : VVal := { tag := 0, lanes := [] }

/-- An unwritten temporary: zero, I32 (R37). -/
def VVal.temp : VVal := { tag := 1, lanes := [] }

/-- The register with tag `tag` and lane `l` of `mask` replaced by `f l`, for lanes below `w`. -/
def VVal.write (v : VVal) (w : Nat) (mask : DWord) (tag : Tag) (f : Nat → Word) : VVal :=
  { tag := tag, lanes := (List.range w).map (fun l => if mask.getLsbD l then f l else v.lane l) }

/-- Little-endian value of bytes (R5). -/
def leNat : List Byte → Nat
  | [] => 0
  | b :: t => b.toNat + 256 * leNat t

/-- `n` little-endian bytes of a number (R5). -/
def leBytes (x : Nat) : Nat → List Byte
  | 0 => []
  | n + 1 => BitVec.ofNat 8 x :: leBytes (x / 256) n

-- Scopes --------------------------------------------------------------------------------------------------------------

/-- Width of a scope, as its code in R46. -/
def Scope.code : Scope → Nat
  | .fibre => 1 | .slot => 2 | .workgroup => 3 | .cluster => 4 | .device => 5 | .system => 6

/-- The scope of a code of R46. -/
def scopeOf : Nat → Option Scope
  | 1 => some .fibre | 2 => some .slot | 3 => some .workgroup | 4 => some .cluster | 5 => some .device
  | 6 => some .system | _ => none

/-- The wider of two scopes. -/
def Scope.max (a b : Scope) : Scope := if a.code < b.code then b else a

/-- Class bits of R86. -/
def clsR : BitVec 8 := 1
def clsW : BitVec 8 := 2
def clsCR : BitVec 8 := 4
def clsCW : BitVec 8 := 8
def clsMR : BitVec 8 := 16
def clsMW : BitVec 8 := 32
def clsGR : BitVec 8 := 64
def clsGW : BitVec 8 := 128
/-- The four write classes. -/
def clsWrites : BitVec 8 := 0xAA
/-- The four read classes. -/
def clsReads : BitVec 8 := 0x55

-- Records of the state ------------------------------------------------------------------------------------------------

/-- The fibre record named, absent if it was never made. -/
def State.fib (s : State) (r : FRef) : Fibre := Tbl.get s.fibres r Fibre.absent

/-- Replaces a fibre record. -/
def State.setFib (s : State) (r : FRef) (f : Fibre) : State := { s with fibres := Tbl.set s.fibres r f }

/-- The warp slot with WGSLOT `k` of a workgroup. -/
def State.slot (s : State) (wg k : Nat) : Slot := Tbl.get s.slots (wg, k) Slot.empty

/-- Replaces a warp slot. -/
def State.setSlot (s : State) (wg k : Nat) (t : Slot) : State := { s with slots := Tbl.set s.slots (wg, k) t }

/-- A workgroup. -/
def State.wg (s : State) (n : Nat) : Wg := Tbl.get s.wgs n Wg.unplaced

/-- Replaces a workgroup. -/
def State.setWg (s : State) (n : Nat) (w : Wg) : State := { s with wgs := Tbl.set s.wgs n w }

/-- A cluster that was never made. -/
def Cluster.blank : Cluster :=
  { grid := 0, inst := 0, c := 0, ox := 0, oy := 0, x := 0, y := 0, cw := 1, ch := 1, place := .ended, wgs := [],
    phase := 0, stages := [], since := 0, promoted := false, placedAt := 0, frozen := false, saveT := 0, moveTo := none }

/-- A cluster. -/
def State.cluster (s : State) (n : Nat) : Cluster := Tbl.get s.clusters n Cluster.blank

/-- Replaces a cluster. -/
def State.setCluster (s : State) (n : Nat) (c : Cluster) : State := { s with clusters := Tbl.set s.clusters n c }

/-- A grid that was never launched. -/
def Grid.blank : Grid :=
  { ctx := 0, launch := Launch.zero, queue := 0, block := 0, signal := none, stages := [], phase := 0, clusters := [],
    gwct := 0, ot := 0, seen := 0, done := true }

/-- A grid. -/
def State.grid (s : State) (n : Nat) : Grid := Tbl.get s.grids n Grid.blank

/-- Replaces a grid. -/
def State.setGrid (s : State) (n : Nat) (g : Grid) : State := { s with grids := Tbl.set s.grids n g }

/-- A launch queue. -/
def State.queue (s : State) (n : Nat) : LQueue := Tbl.get s.queues n LQueue.unbound

/-- Replaces a launch queue. -/
def State.setQueue (s : State) (n : Nat) (q : LQueue) : State := { s with queues := Tbl.set s.queues n q }

/-- A context. -/
def State.ctx (s : State) (c : BitVec 12) : Ctx := Tbl.get s.ctxs c Ctx.absent

/-- Replaces a context. -/
def State.setCtx (s : State) (c : BitVec 12) (x : Ctx) : State := { s with ctxs := Tbl.set s.ctxs c x }

/-- The per-CU part of the engines of CU `n`. -/
def State.cu (s : State) (n : Nat) : Cu := Tbl.get s.cus n Cu.empty

/-- Replaces the per-CU part of the engines. -/
def State.setCu (s : State) (n : Nat) (c : Cu) : State := { s with cus := Tbl.set s.cus n c }

/-- The fibre whose instruction runs. -/
def State.me (s : State) : Fibre := s.fib s.actor

/-- Replaces the record of the running fibre. -/
def State.setMe (s : State) (f : Fibre) : State := s.setFib s.actor f

/-- The slot of the running fibre. -/
def State.mySlot (s : State) : Slot := s.slot s.actor.wg s.actor.slot

/-- Replaces the slot of the running fibre. -/
def State.setMySlot (s : State) (t : Slot) : State := s.setSlot s.actor.wg s.actor.slot t

/-- The workgroup of the running fibre. -/
def State.myWg (s : State) : Wg := s.wg s.actor.wg

/-- The context of the running fibre. -/
def State.myCtx (s : State) : Ctx := s.ctx s.myWg.ctx

/-- Warp width W of the running fibre's slot. -/
def State.width (s : State) : Nat := s.myWg.warp

/-- The launch record of a workgroup's grid. -/
def State.launchOf (s : State) (wg : Nat) : Launch := (s.grid (s.wg wg).grid).launch

/-- Scalar register `n` of the running fibre. -/
def State.sreg (s : State) (n : Nat) : DWord := Tbl.get s.me.s n 0

/-- Writes a scalar register of the running fibre. -/
def State.setS (s : State) (n : Nat) (v : DWord) : State := s.setMe { s.me with s := Tbl.set s.me.s n v }

/-- Predicate register `n` of the running fibre. -/
def State.preg (s : State) (n : Nat) : DWord := Tbl.get s.me.p n 0

/-- Writes a predicate: only bits below W exist (R166). (Log 29 DEDUCED.) -/
def State.setP (s : State) (n : Nat) (v : DWord) : State :=
  s.setMe { s.me with p := Tbl.set s.me.p n (v &&& fullMask s.width) }

/-- A fresh identity. -/
def State.bump (s : State) : State := { s with nextId := s.nextId + 1 }

/-- Sends a message. -/
def State.send (s : State) (m : Msg) : State := { s with out := s.out ++ [m] }

/-- ORs flags into the sticky register of the running fibre (R67). -/
def State.raise (s : State) (fl : BitVec 9) : State := s.setMe { s.me with sticky := s.me.sticky ||| fl }

-- Lease time (R80) ----------------------------------------------------------------------------------------------------

/-- An agent's copy of lease time: never ahead of the master, behind it by its lag. (Log 11 DESIGN CHOICE.) -/
def State.lease (s : State) (agent : Nat) : Nat := s.now - Tbl.get s.lags agent 0

/-- The lease time of a slice's copy. (Log 11 DESIGN CHOICE.) -/
def State.sliceTime (s : State) (slice : Nat) : Nat := s.lease (256 + slice)

-- Physical memory (R206, R386) ----------------------------------------------------------------------------------------

/-- End of HBM. -/
def hbmEnd : Nat := 0xC000000000
/-- Base of the on-chip physical map. -/
def chipBase : Nat := 0x8000000000000
/-- The range of MMIO. -/
def mmioBase : Nat := 0xC000000000000

/-- Does the address lie in HBM? -/
def inHbm (pa : Nat) : Bool := pa < hbmEnd
/-- Does the address lie in the on-chip physical map: 256 apertures of 4 MiB up to the last CU? -/
def inChip (pa : Nat) : Bool := chipBase ≤ pa && pa < chipBase + 192 * 0x400000
/-- Does the address lie in MMIO? -/
def inMmio (pa : Nat) : Bool := mmioBase ≤ pa && pa < mmioBase + 0x40000000

/-- The byte an address reads as in the list; an unlisted byte of HBM is zero (R394). (Log 7 DESIGN CHOICE.) -/
def Mem.read (m : List Host.Cell) (a : Nat) : Byte :=
  match m with
  | [] => 0
  | (k, b) :: t => if k = a then b else if a < k then 0 else Mem.read t a

/-- Writes a byte and keeps the canonical form: addresses rising, no zero listed. -/
def Mem.write (m : List Host.Cell) (a : Nat) (b : Byte) : List Host.Cell :=
  match m with
  | [] => if b = 0 then [] else [(a, b)]
  | (k, c) :: t =>
    if k = a then (if b = 0 then t else (a, b) :: t)
    else if a < k then (if b = 0 then (k, c) :: t else (a, b) :: (k, c) :: t)
    else (k, c) :: Mem.write t a b

/-- The canonical form of memory above an address. -/
def Mem.wfFrom (lo : Nat) : List Host.Cell → Bool
  | [] => true
  | (k, b) :: t => decide (lo ≤ k) && decide (b ≠ 0) && Mem.wfFrom (k + 1) t

/-- The canonical form: addresses strictly rising, no entry equal to what an unlisted address reads as. -/
def Mem.wf (m : List Host.Cell) : Bool := Mem.wfFrom 0 m

/-- One byte of HBM. -/
def State.hbm (s : State) (a : Nat) : Byte := Mem.read s.mem a

/-- `n` bytes of HBM from `a`. -/
def State.hbmBytes (s : State) (a n : Nat) : List Byte := (List.range n).map (fun i => s.hbm (a + i))

/-- Writes bytes of HBM from `a`. -/
def State.putHbm (s : State) (a : Nat) (bs : List Byte) : State :=
  { s with mem := (bs.foldl (fun (p : Nat × List Host.Cell) b => (p.1 + 1, Mem.write p.2 p.1 b)) (a, s.mem)).2 }

/-- Home slice of a local physical address (R396). -/
def homeHash (pa : Nat) : Nat :=
  let x := pa / 128
  (bitsN x 0 16) ^^^ (bitsN x 16 16) ^^^ (bitsN x 32 13)

/-- The slice that homes an address (R396). -/
def homeOf (pa : Nat) : Nat := homeHash pa % 864

/-- The service fibre that owns an address (R248). -/
def ownerOf (pa : Nat) : Nat := homeHash pa % 48

/-- The 32-byte sector an address lies in. -/
def sectorOf (pa : Nat) : Nat := pa / 32 * 32

/-- The 128-byte block an address lies in. -/
def blockOf (pa : Nat) : Nat := pa / 128 * 128

/-- Recorded expiry and WVT of a sector. -/
def State.secMeta (s : State) (pa : Nat) : SecMeta := Tbl.get s.sects (sectorOf pa) { recExp := 0, wvt := 0 }

/-- Guard tag of the block of an address (R318). -/
def State.guardTag (s : State) (pa : Nat) : DWord := Tbl.get s.guards (blockOf pa) 0

/-- Is the line of the address poisoned (R388)? -/
def State.poisoned (s : State) (pa : Nat) : Bool := s.poison.any (fun e => e.1 == blockOf pa)

-- Cellars (R18, R23, R217) --------------------------------------------------------------------------------------------

/-- Bytes of a slot's registers: W × registers × 4 (R18). -/
def Wg.slotBytes (w : Wg) : Nat := w.warp * w.regs * 4

/-- Banks of a workgroup's register files (R18). -/
def Wg.regBanks (w : Wg) : Nat := (w.nslots * w.slotBytes + 32767) / 32768

/-- Banks of its scratchpad (R18). -/
def Wg.padBanks (w : Wg) : Nat := (w.ssize + 32767) / 32768

/-- Physical register `n` of a slot. -/
def State.vreg (s : State) (wg k n : Nat) : VVal := Tbl.get (s.slot wg k).v n VVal.invalid

/-- A scratchpad byte: zero until written (R19). -/
def State.pad (s : State) (wg off : Nat) : Byte := Tbl.get (s.wg wg).scratch off 0

/-- Is physical register `n` of a slot an accumulator of a matrix operation in flight, from its posting to its completion
(R91)? (Log 16 DESIGN CHOICE, 56 DEDUCED.) -/
def State.accOf (s : State) (wg k n : Nat) (o : Op) : Bool :=
  match o.kind with
  | .gang _ post signers =>
    post.op != 0 && signers.any (fun g => g.who.wg == wg && g.who.slot == k &&
      decide (g.base.toNat + post.acc ≤ n ∧ n < g.base.toNat + post.acc + post.m))
  | _ => false

/-- A physical register of a slot as an agent reads it: an accumulator of a matrix operation in flight reads as a free value in
every lane, under tag F32 (R91, R233, R245). -/
def State.vshow (s : State) (wg k n : Nat) : VVal :=
  let v := s.vreg wg k n
  if s.ops.any (fun o => s.accOf wg k n o) then
    { tag := 3, lanes := (List.range 64).map (fun l => Config.freeLane (s.freeCtr * 65536 + n * 64 + l)) }
  else v

/-- Key of a register in the set of registers written during a matrix operation (R91). -/
def regKey (k n : Nat) : Nat := k * 1024 + n

/-- A register write in some lanes by an agent other than operation `me`: a matrix operation of the workgroup that is signed or
issued remembers it (R91). -/
def State.noteBut (s : State) (me wg k n : Nat) (m : DWord) : State :=
  let note := fun (o : Op) =>
    if o.who.wg = wg ∧ o.id ≠ me then
      { o with notes := (regKey k n, m, s.nextId) :: o.notes.filter (fun e => !(e.1 == regKey k n && (e.2.1 &&& ~~~m) == 0)) }
    else o
  { s with ops := s.ops.map (fun o => match o.kind with
      | .gang _ _ [] => o
      | .gang .. | .split .. => note o
      | _ => o) }

/-- A register write by an agent that is no matrix operation (R91). (Log 56 DEDUCED.) -/
def State.noteWrite (s : State) (wg k n : Nat) (m : DWord) : State := s.noteBut 0 wg k n m

/-- Writes a physical register of a slot without the note. -/
def State.setVRaw (s : State) (wg k n : Nat) (v : VVal) : State :=
  s.setSlot wg k { s.slot wg k with v := Tbl.set (s.slot wg k).v n v }

/-- Writes some lanes of a physical register of a slot: `v` is the register after it. -/
def State.setV (s : State) (wg k n : Nat) (m : DWord) (v : VVal) : State := (s.noteWrite wg k n m).setVRaw wg k n v

/-- Writes a scratchpad byte. -/
def State.setPad (s : State) (wg off : Nat) (b : Byte) : State :=
  s.setWg wg { s.wg wg with scratch := Tbl.set (s.wg wg).scratch off b }

/-- A byte of a register window of a slot: register, lane and byte by its offset (R20). -/
def State.regByte (s : State) (wg k off : Nat) : Byte :=
  let w := (s.wg wg).warp
  let v := s.vshow wg k (off / 4 / w)
  BitVec.ofNat 8 ((v.lane (off / 4 % w)).toNat / 256 ^ (off % 4))

/-- Writes a register window byte; an INVALID register becomes I32 (R21). -/
def State.setRegByte (s : State) (wg k off : Nat) (b : Byte) : State :=
  let w := (s.wg wg).warp
  let n := off / 4 / w
  let l := off / 4 % w
  let v := s.vreg wg k n
  let x := (v.lane l).toNat
  let sh := 256 ^ (off % 4)
  let x' := x - (x / sh % 256) * sh + b.toNat * sh
  s.setV wg k n (1#64 <<< l) { tag := if v.tag = 0 then 1 else v.tag, lanes := setNth v.lanes l (BitVec.ofNat 32 x') }

/-- A pattern table byte: bits 5:0 hold data, bits 7:6 read as zero (R21). -/
def State.ptByte (s : State) (wg off : Nat) : Byte :=
  (Tbl.get (s.wg wg).pt off (BitVec.ofNat 6 (off % 64))).setWidth 8

/-- Writes a pattern table byte (R21). -/
def State.setPtByte (s : State) (wg off : Nat) (b : Byte) : State :=
  s.setWg wg { s.wg wg with pt := Tbl.set (s.wg wg).pt off (b.setWidth 6) }

/-- The workgroup that holds bank `b` of CU `c`, with the bank's place among its banks. -/
def State.bankHolder (s : State) (c b : Nat) : Option (Nat × Nat) :=
  s.wgs.findSome? (fun e =>
    if e.2.live && e.2.cu == c then ((e.2.banks.findIdx? (· == b)).map (fun i => (e.1, i))) else none)

/-- The register or scratchpad byte of a workgroup `g` that stands at byte `b` of its bank of rank `i` (R217). -/
def Wg.bankCell (w : Wg) (g i b : Nat) : Option Loc :=
  if i < w.regBanks then
    let o := i * 32768 + b
    if o < w.nslots * w.slotBytes then some (.regw g (o / w.slotBytes) (o % w.slotBytes)) else none
  else
    let o := (b / 128) * (128 * w.padBanks) + (i - w.regBanks) * 128 + b % 128
    if o < w.ssize then some (.scratch g o) else none

/-- The location of byte `b` of a CU's cellar: a workgroup's register or scratchpad byte, or nothing (R23, R217). -/
def State.cellarLoc (s : State) (c b : Nat) : Option Loc :=
  if b < 96 * 32768 then
    match s.bankHolder c (b / 32768) with
    | some (g, i) => (s.wg g).bankCell g i (b % 32768)
    | none => none
  else none

/-- The service fibre that a CU hosts: that of its 2 × 2 group, on the CU of even x and y (R247). -/
def groupAt (x y : Nat) : Option Nat := if x % 2 = 0 ∧ y % 2 = 0 then some (x / 2 + 8 * (y / 2)) else none

/-- The CU that hosts the service fibre of a group, of which there are 48 (R247). -/
def hostOf (g : Nat) : Option (Nat × Nat) := if g < 48 then some (2 * (g % 8), 2 * (g / 8)) else none

/-- Banks of a CU that workgroups and L1 share: a host CU of the ASE keeps two for its service slot (R11, R18, R247).
(Log 119 DESIGN CHOICE.) -/
def bankCap (x y : Nat) : Nat := match groupAt x y with | some _ => 94 | none => 96

/-- The CU of an on-chip physical address (R23). -/
def chipCu (pa : Nat) : Nat := (pa - chipBase) / 0x400000

/-- The byte of its CU's aperture that an on-chip physical address names (R23). -/
def chipOff (pa : Nat) : Nat := (pa - chipBase) % 0x400000

/-- The cellar location of an on-chip physical address (R23). (Log 145 DESIGN CHOICE.) -/
def State.chipLoc (s : State) (pa : Nat) : Option Loc := s.cellarLoc (chipCu pa) (chipOff pa)

/-- The physical address of a location's byte: of a register or scratchpad byte, its place in the on-chip map (R23, R217). -/
def State.cellarPa (s : State) : Loc → Option Nat
  | .mem pa => some pa
  | .regw g k off =>
    let w := s.wg g
    let o := k * w.slotBytes + off
    w.banks[o / 32768]?.map (fun b => chipBase + w.cu * 0x400000 + b * 32768 + o % 32768)
  | .scratch g off =>
    let w := s.wg g
    let x := off / 128
    w.banks[w.regBanks + x % w.padBanks]?.map (fun b => chipBase + w.cu * 0x400000 + b * 32768 + x / w.padBanks * 128 + off % 128)
  | _ => none

/-- Is a byte of a location in a poisoned line (R388)? -/
def State.locPoisoned (s : State) (l : Loc) : Bool := !s.poison.isEmpty && (s.cellarPa l).any s.poisoned

/-- Is a register of the acting fibre's slot in a poisoned line of its cellar (R388)? (Log 137 DESIGN CHOICE.) -/
def State.regPoisoned (s : State) (r : FRef) (n : Nat) : Bool :=
  let w := 4 * (s.wg r.wg).warp
  !s.poison.isEmpty && (List.range (w / 64)).any (fun i => s.locPoisoned (.regw r.wg r.slot (n * w + 64 * i)))

/-- The L1 sector that stands at byte `b` of a CU's cellar (R218). -/
def State.l1At (s : State) (cu b : Nat) : Option L1Sec :=
  (s.cu cu).l1.find? (fun x => x.place == b / 128 * 128 && x.pa % 128 / 32 == b % 128 / 32)

/-- The byte that a workgroup left at byte `b` of its CU's cellar (R19): the one its register or scratchpad byte there held, as
long as no L1 line has been filled over it. -/
def Left.byteAt (x : Left) (b : Nat) : Option Byte :=
  if x.filled.contains (sectorOf b) then none
  else match x.wg.banks.findIdx? (· == b / 32768) with
    | none => none
    | some i => match x.wg.bankCell 0 i (b % 32768) with
      | some (.regw _ k o) =>
        some (BitVec.ofNat 8 (((Tbl.get (x.regs.getD k []) (o / 4 / x.wg.warp) VVal.invalid).lane (o / 4 % x.wg.warp)).toNat / 256 ^ (o % 4)))
      | some (.scratch _ o) => some (Tbl.get x.wg.scratch o 0)
      | _ => none

/-- A byte of the on-chip map that is no register or scratchpad byte of a workgroup placed there: of an L1 line, as it was written
through the map, as the last workgroup there left it, or left open; the top 1 MiB of an aperture reads as zero (R19, R23).
(Log 145 DESIGN CHOICE.) -/
def State.spareByte (s : State) (pa : Nat) : Byte :=
  if 96 * 32768 ≤ chipOff pa then 0
  else match s.l1At (chipCu pa) (chipOff pa) with
    | some x => x.data.getD (pa % 32) 0
    | none =>
      if Tbl.has s.slack pa then Tbl.get s.slack pa 0
      else match (s.left.filter (fun x => x.wg.cu == chipCu pa)).findSome? (fun x => x.byteAt (chipOff pa)) with
        | some b => b
        | none => (Config.freeWord (s.freeCtr * 2 ^ 64 + pa)).setWidth 8

/-- Writes such a byte. -/
def State.setSpareByte (s : State) (pa : Nat) (b : Byte) : State :=
  if 96 * 32768 ≤ chipOff pa then s
  else match s.l1At (chipCu pa) (chipOff pa) with
    | some x =>
      let u := s.cu (chipCu pa)
      s.setCu (chipCu pa) { u with l1 := u.l1.map (fun y => if y.pa = x.pa then { y with data := y.data.set (pa % 32) b } else y) }
    | none => { s with slack := Tbl.set s.slack pa b }

/-- Banks of a CU have passed to a workgroup: the L1 lines that stand in them are invalidated without a write, and what its
registers and scratchpad now cover is theirs (R19). -/
def State.passBanks (s : State) (cu : Nat) (banks : List Nat) : State :=
  let u := s.cu cu
  let s1 : State := { s with slack := s.slack.filter (fun e =>
    !(chipCu e.1 == cu && banks.contains (chipOff e.1 / 32768) && (s.chipLoc e.1).isSome)) }
  if u.l1.any (fun x => banks.contains (x.place / 32768)) then
    s1.setCu cu { u with l1 := u.l1.filter (fun x => !banks.contains (x.place / 32768)) }
  else s1

/-- A workgroup leaves its banks, which are not cleared: their bytes stay as its registers and scratchpad were (R19).
(Log 145 DESIGN CHOICE.) -/
def State.leaveBanks (s : State) (g : Nat) : State :=
  let w := s.wg g
  if w.banks.isEmpty then s
  else
    { s.setWg g { w with banks := [] } with
      left := { wg := w, regs := (List.range w.nslots).map (fun k => (s.slot g k).v), filled := [] } :: s.left }

-- Operations in flight ------------------------------------------------------------------------------------------------

/-- The operation with an identity. -/
def State.op (s : State) (id : Nat) : Option Op := s.ops.find? (fun o => o.id == id)

/-- Replaces an operation. -/
def State.setOp (s : State) (o : Op) : State :=
  { s with ops := s.ops.map (fun x => if x.id = o.id then o else x) }

/-- Takes an operation that counts in no flag out of those in flight. -/
def State.dropOp (s : State) (id : Nat) : State := { s with ops := s.ops.filter (fun o => o.id ≠ id) }

/-- Replaces part `k` of an operation. -/
def Op.setPart (o : Op) (k : Nat) (p : Part) : Op := { o with parts := o.parts.set k p }

/-- The value of flag `n` in a fibre of slot (wg, slot) with lane mask `m` (R25). -/
def State.flagval (s : State) (wg slot n : Nat) (m : DWord) : Nat :=
  (s.ops.map (fun o => (o.counts.filter (fun c =>
    c.wg == wg && c.slot == slot && c.flag == some n && (c.lanes &&& m) != 0)).length)).sum

/-- Are all twelve flags of a fibre zero (R150)? -/
def State.flagsZero (s : State) (r : FRef) : Bool :=
  (List.range 12).all (fun n => s.flagval r.wg r.slot n (s.fib r).mask == 0)

/-- Are the flags named in a mask of twelve bits zero (R42, R162)? -/
def State.flagsClear (s : State) (r : FRef) (m : BitVec 12) : Bool :=
  (List.range 12).all (fun n => !m.getLsbD n || s.flagval r.wg r.slot n (s.fib r).mask == 0)

/-- The records 0 to 8 of a slot. -/
def slotRefs (wg slot : Nat) : List FRef := (List.range 9).map (fun k => { wg := wg, slot := slot, idx := k })

/-- The records of every slot of a workgroup. -/
def State.wgRefs (s : State) (wg : Nat) : List FRef :=
  ((List.range (s.wg wg).nslots).map (fun k => slotRefs wg k)).flatten

/-- The fibres that are not absent of a list of records. -/
def State.live (s : State) (rs : List FRef) : List FRef := rs.filter (fun r => (s.fib r).st != .absent)

/-- The lowest absent record 0-7 of a slot (R149). -/
def State.freeRecord (s : State) (wg slot : Nat) : Option Nat :=
  (List.range 8).find? (fun k => (s.fib { wg := wg, slot := slot, idx := k }).st == .absent)

/-- The largest WVT among the values an operation has read (R85). -/
def Op.seen (o : Op) : Nat := (o.parts.map (·.wvt)).foldl Nat.max o.ot

/-- Is a request of a write performed at its home, by a peer's acknowledgement for peer memory (R147, R148, R294)? -/
def Part.atHome (p : Part) : Bool := p.st == .performed || p.st == .done

/-- Has an operation a packet that has not yet entered the retry buffer? -/
def State.packetWaits (s : State) (id : Nat) : Bool := s.fe.tx.any (fun t => t.op == id && t.st == .waiting)

/-- Has an operation made its accesses, in the sense of R88 without its GWCT wait, at a scope? A satisfied monitor is performed
before its value is delivered (R104). A write to peer memory counts below system scope once its packets are in the retry buffer;
an atomic that returns a value reads as well, and its value is bound when its answer is here. -/
def State.opPerformed (s : State) (o : Op) (c : Scope) : Bool :=
  match o.kind with
  | .token => true
  | .monitor .. => s.mons.any (fun m => m.op == o.id && m.armed) || o.parts.all (fun p => p.st == .bound || p.st == .done)
  | .load .. => o.parts.all (fun p => p.st == .bound || p.st == .done)
  | .store | .atomic _ false _ =>
    o.parts.all (fun p => p.st == .done ||
      (match p.loc with
       | .peer .. => (p.st == .sent || p.st == .performed) && decide (c.code ≤ 5)
       | _ => p.st == .performed && decide (c.code ≤ 3)))
  | .atomic .. | .cas .. | .acust .. => o.parts.all (fun p => p.st == .done)
  | .xfer x =>
    o.st == .settling ||
    (!x.get && decide (c.code ≤ 5) && (decide (x.sent = x.len) || o.fault.isSome) && !s.packetWaits o.id &&
     !s.fe.owed.any (fun y => y.op == o.id))
  | .msend .. => o.st == .settling || (decide (c.code ≤ 5) && !s.packetWaits o.id)
  | _ => o.st == .settling

/-- Are the fibre's accesses before identity `mark` with a class in `P` performed at scope `c`, with the GWCT waits, and
with the wait on its observed time if `ot` (R88, R95, R98)? -/
def State.earlierDone (s : State) (r : FRef) (mark : Nat) (P : BitVec 8) (c : Scope) (ot : Bool) : Bool :=
  let f := s.fib r
  let lt := s.lease (s.wg r.wg).cu
  s.ops.all (fun o =>
    let k := Tbl.get o.holders f.fid mark
    !(decide (k < mark) && (o.cls &&& P) != 0) ||
      (s.opPerformed o c && (decide (c.code ≤ 3) || (o.cls &&& P &&& clsWrites) == 0 || decide (o.gwct ≤ lt)))) &&
  (decide (c.code ≤ 3) ||
    (f.wlog.all (fun w => !(decide (w.id < mark) && (w.cls &&& P) != 0) || decide (w.gwct ≤ lt)) &&
     (!ot || (decide (f.ot ≤ lt) &&
       s.ops.all (fun o => !(decide (Tbl.get o.holders f.fid mark < mark) && (o.cls &&& P) != 0) || decide (o.seen ≤ lt))))))

/-- The 64-bit FAULTINFO of a fault record (R167). -/
def FaultRec.info (r : FaultRec) : DWord :=
  BitVec.ofNat 64 (r.cause.toNat + (if r.async then 256 else 0) + (if r.multi then 512 else 0) +
    (match r.lane with | some l => 1024 + (l % 64) * 2048 | none => 0) + r.detail.toNat * 131072)

/-- Notification 0x81: the fault record with the slot's identity (R171, R384). (Log 33 DESIGN CHOICE.) -/
def State.notifyFault (s : State) (r : FRef) (fr : FaultRec) : State :=
  s.send (.note 0x81 [BitVec.ofNat 64 r.wg, BitVec.ofNat 64 r.slot, BitVec.ofNat 64 r.idx, fr.pc, fr.info, fr.addr,
    fr.lanes, fr.ipc, fr.cpos, fr.spos])

/-- Adds `n` events of a code on a CU, caused by an agent of context `c` or by none (R376, R377). (Log 126 DESIGN CHOICE.) -/
def State.countEv (s : State) (cu code n : Nat) (c : Option (BitVec 12)) : State :=
  let u := s.cu cu
  s.setCu cu { u with ev := u.ev.map (fun e =>
    if e.2.en && e.2.event.toNat == code &&
       (!e.2.ctxonly || c.isNone || some (e.2.owner.setWidth 12) == c) then
      let x := e.2.count.toNat + n
      (e.1, { e.2 with count := BitVec.ofNat 48 x, ovf := e.2.ovf || decide (2 ^ 48 ≤ x) })
    else e) }

/-- Delivers the fault of a completed asynchronous operation to its fibre (R169): a fibre that is frozen, or halted (R370), loses it and shows MULTI,
a fibre that has ended or is being ended by another's EXIT has it reported to the runtime, any other keeps it.
(Log 152 DESIGN CHOICE.) -/
def State.deliver (s : State) (r : FRef) (fid : Nat) (flag : Option Nat) (fr : FaultRec) : State :=
  let f := s.fib r
  if f.st = .absent ∨ f.fid ≠ fid ∨ f.doomed then s.notifyFault r fr
  else if f.st = .frozen ∨ f.dbg = .halted then
    s.setFib r { f with fault := f.fault.map (fun x => { x with multi := true }) }
  else s.setFib r { f with pend := f.pend ++ [{ rec' := fr, flag := flag, at' := s.now }] }

/-- The GWCT an operation leaves to a fibre in whose program order it lies, with those before it (R88). -/
def Op.logTo (o : Op) (fid : Nat) (l : List WLog) : List WLog :=
  if (o.cls &&& clsWrites) = 0 ∨ o.gwct = 0 then l else { id := Tbl.get o.holders fid 0, cls := o.cls, gwct := o.gwct } :: l

/-- What an operation leaves to a rejoin register: to the program order of the fibres that have joined there (R78).
(Log 181 DEDUCED.) -/
def Rejoin.inherit (x : Rejoin) (o : Op) : Rejoin :=
  match x.joined.find? (fun d => Tbl.has o.holders d) with
  | some d => { x with ot := Nat.max x.ot o.ot, wlog := o.logTo d x.wlog }
  | none => x

/-- What an operation that completes leaves to the release of a later one of the same program order: the release waits for its
times as well (R88, R95). -/
def Op.sawBefore (x o : Op) : Op :=
  match x.gate with
  | some g =>
    if Tbl.has o.holders x.fid && decide (Tbl.get o.holders x.fid 0 < g.mark) then
      { x with gate := some { g with
          ot := Nat.max g.ot o.ot
          gwct := if (o.cls &&& clsWrites) = 0 then g.gwct else Nat.max g.gwct o.gwct } }
    else x
  | none => x

/-- Hands what an operation leaves behind to the fibres in whose program order it lies, to the rejoin registers at which such
fibres have joined, and to their releases that wait: its observed time and the GWCT of its writes (R78, R85, R88, R95). -/
def State.inherit (s : State) (o : Op) : State :=
  { s with
    ops := s.ops.map (·.sawBefore o)
    fibres := s.fibres.map (fun e =>
      if e.2.st ≠ .absent ∧ Tbl.has o.holders e.2.fid then
        (e.1, { e.2 with ot := Nat.max e.2.ot o.ot, wlog := o.logTo e.2.fid e.2.wlog })
      else e)
    slots := s.slots.map (fun e => (e.1, { e.2 with j := e.2.j.map (fun x => (x.1, x.2.inherit o)) })) }

/-- ORs an operation's flags into a fibre that still lives (R68). -/
def State.raiseIn (s : State) (r : FRef) (fid : Nat) (fl : BitVec 9) : State :=
  let f := s.fib r
  if f.st ≠ .absent ∧ f.fid = fid then s.setFib r { f with sticky := f.sticky ||| fl } else s

/-- The flag an operation counts in for its issuing fibre. -/
def Op.flag (o : Op) : Option Nat := (o.counts.head?).bind (·.flag)

/-- Is the operation the copy engine's? -/
def Op.isCopy (o : Op) : Bool := match o.kind with | .copy _ => true | _ => false

/-- Is the operation a `CAS`? -/
def Op.isCas (o : Op) : Bool := match o.kind with | .cas .. => true | _ => false

/-- Completes an operation: observed time and GWCT, sticky flags, fault, and the decrement of its flags (R27, R68, R169). Its
grid keeps the GWCT, for its own completion (R113). -/
def State.complete (s : State) (o : Op) : State :=
  let s1 := s.inherit o
  let s2 := match o.kind with
    | .gang _ _ signers => signers.foldl (fun (t : State) (g : Signer) =>
        let t1 := t.raiseIn g.who g.fid o.sticky
        match o.fault with
        | some fr => t1.deliver g.who g.fid g.flag { fr with ipc := g.ipc }
        | none => t1) s1
    | _ =>
      let t1 := s1.raiseIn o.who o.fid o.sticky
      match o.fault with
      | some fr =>
        let t2 := t1.deliver o.who o.fid o.flag fr
        let f := t2.fib o.who
        if fr.cause = 0x24 ∧ o.isCopy ∧ f.fid = o.fid ∧ f.st ≠ FSt.absent then t2.setFib o.who { f with ceTag := o.tagWord } else t2
      | none => t1
  let g := (s2.wg o.who.wg).grid
  let s3 := if Tbl.has s2.grids g then
      s2.setGrid g { s2.grid g with
        gwct := if (o.cls &&& clsWrites) ≠ 0 then Nat.max (s2.grid g).gwct o.gwct else (s2.grid g).gwct
        seen := Nat.max (s2.grid g).seen o.ot } else s2
  { s3 with ops := s3.ops.filter (fun x => x.id ≠ o.id), mons := s3.mons.filter (fun m => m.op ≠ o.id) }

/-- Completes an operation whose accesses are performed as soon as its scope allows: at cluster scope and wider when the
CU's lease time has reached its GWCT (R93); one that faults after it wrote waits as well. -/
def State.settle (s : State) (o : Op) : State :=
  if decide (o.scope.code ≤ 3) || (o.cls &&& clsWrites) == 0 || decide (o.gwct ≤ s.lease o.cu) then
    s.complete o
  else s.setOp { o with st := .settling }

/-- Has an operation's write reached its home, or of an engine's ended (R148, R213)? -/
def Op.home (o : Op) : Bool :=
  match o.kind with
  | .store | .atomic .. | .cas .. | .acust .. => o.parts.all Part.atHome
  | _ => o.st == .settling

/-- Is every write of a fibre before identity `mark` performed at its home, a write to a peer's memory by its acknowledgement
(R148, R213, R294)? -/
def State.storesHome (s : State) (r : FRef) (mark : Nat) (P : BitVec 8) : Bool :=
  let f := s.fib r
  s.ops.all (fun o => !(decide (Tbl.get o.holders f.fid mark < mark) && (o.cls &&& P) != 0) || o.home)

/-- Is every write of an operation's fibre before it at its home (R387)? -/
def State.writesBefore (s : State) (o : Op) : Bool :=
  s.ops.all (fun e => !(decide (e.id < o.id) && Tbl.has e.holders o.fid && (e.cls &&& clsWrites) != 0) || e.home)

/-- The gate of an operation of the running fibre that is a release (R95). -/
def State.gateHere (s : State) : Gate :=
  { mark := s.nextId, ot := s.me.ot, gwct := (s.me.wlog.map (·.gwct)).foldl Nat.max 0 }

/-- May the operation's accesses begin: are the accesses of its program order before its gate performed at its scope, with the
waits of R88 for GWCTs and observed time, whether or not its fibre still lives (R95)? -/
def State.gateOpen (s : State) (o : Op) : Bool :=
  match o.gate with
  | none => true
  | some g =>
    let lt := s.lease (s.wg o.who.wg).cu
    s.ops.all (fun x => !decide (Tbl.get x.holders o.fid g.mark < g.mark) ||
      (s.opPerformed x o.scope &&
       (decide (o.scope.code ≤ 3) ||
        (((x.cls &&& clsWrites) == 0 || decide (x.gwct ≤ lt)) && decide (x.seen ≤ lt))))) &&
    (decide (o.scope.code ≤ 3) || (decide (g.ot ≤ lt) && decide (g.gwct ≤ lt)))

/-- Is the workgroup out of its CU, in a save image (R127)? -/
def State.isSaved (s : State) (wg : Nat) : Bool := (s.cluster (s.wg wg).cluster).place == .saved

-- Positions, faults and headers ---------------------------------------------------------------------------------------

/-- Address of word `i` of a clause. -/
def Clause.wordAddr (c : Clause) (i : Nat) : DWord := c.addr + BitVec.ofNat 64 (4 * (c.lead + i))

/-- Address of the header after a clause. -/
def Clause.next (c : Clause) : DWord := c.wordAddr c.words.length

/-- Address of the first word of the fibre's issue unit, or of the header it stands at. -/
def Fibre.unitPc (f : Fibre) : DWord :=
  match f.clause with
  | some c => if f.inside then c.wordAddr f.unit0 else f.pc
  | none => if f.inside then f.pc + BitVec.ofNat 64 (4 * (f.lead + f.unit0)) else f.pc

/-- Address of the word the fibre issues. -/
def Fibre.wordPc (f : Fibre) : DWord :=
  match f.clause with
  | some c => if f.inside then c.wordAddr f.idx else f.pc
  | none => if f.inside then f.pc + BitVec.ofNat 64 (4 * (f.lead + f.idx)) else f.pc

/-- The slot's current fibre issues from its clause no longer: the entry marked invalid that it was issuing from is discarded
(R146). -/
def State.dropDead (s : State) (r : FRef) : State :=
  let t := s.slot r.wg r.slot
  if t.cur = r.idx then s.setSlot r.wg r.slot { t with cbuf := t.cbuf.filter (fun e => !e.dead) } else s

/-- A fibre that stops inside a clause whose entry is marked invalid gives the entry up and will fetch its clause again (R146). -/
def State.shedDead (s : State) (r : FRef) : State :=
  let f := s.fib r
  let t := s.slot r.wg r.slot
  if f.inside && t.cur == r.idx && t.cbuf.any (·.dead) then (s.dropDead r).setFib r f.refetch else s

/-- Freezes a fibre with a fault record: it stands before its issue unit and keeps its temporaries (R37, R47, R169). With a
handler in the launch the fibre joins the handler order of its slot; otherwise, and for a handler fibre, the runtime is
notified (R170, R171). Asynchronous faults that are pending when a precise one is taken stay pending, and MULTI stays 0.
(Log 146 DEDUCED.) -/
def State.freeze (s : State) (r : FRef) (fr : FaultRec) : State :=
  let s0 := s.shedDead r
  let f := s0.fib r
  let s1 := s0.setFib r { f with
    st := .frozen, blk := .none, fault := some fr, idx := f.unit0, hMod := none,
    hLimm := none, wait := false, begun := none, dbg := .run, bpSeen := [] }
  let w := s.wg r.wg
  let s2 := s1.countEv w.cu 0x11 1 (some w.ctx)
  if r.idx ≠ 8 ∧ (s.launchOf r.wg).handler then
    let t := s2.slot r.wg r.slot
    s2.setSlot r.wg r.slot { t with hq := t.hq ++ [r.idx] }
  else s2.notifyFault r fr

/-- Freezes a fibre with the asynchronous fault it reaches: the one that completed first, on one time the lower flag; MULTI
says that others were pending, and they are lost (R169). (Log 146 DEDUCED.) -/
def State.freezeAsync (s : State) (r : FRef) (pc : DWord) : State :=
  let f := s.fib r
  let key := fun (e : AsyncFault) => e.at' * 16 + e.flag.getD 15
  match f.pend with
  | [] => s
  | e0 :: es =>
    let e := es.foldl (fun a b => if key b < key a then b else a) e0
    (s.setFib r { f with pend := [] }).freeze r { e.rec' with async := true, multi := e.rec'.multi || !es.isEmpty, pc := pc }

/-- Is a fault pending on a flag of a mask? -/
def Fibre.pendOn (f : Fibre) (m : BitVec 12) : Bool :=
  f.pend.any (fun e => match e.flag with | some n => m.getLsbD n | none => false)

/-- The WAIT mask of a header (R38). -/
def Clause.waitMask (c : Clause) : BitVec 12 := BitVec.ofNat 12 (bitsN c.header.toNat 13 12)

/-- Must a fibre at its header freeze: a fault is pending on a flag its header waits on, or of an operation without a flag? -/
def Fibre.freezesAt (f : Fibre) (c : Clause) : Bool :=
  f.pendOn c.waitMask || f.pend.any (fun e => e.flag.isNone)

/-- Freezes a fibre that stands where a pending asynchronous fault freezes it: at a header whose wait mask has the operation's flag,
or ending by its own `FEND` or `EXIT` (R169). -/
def State.freezeDue (s : State) (r : FRef) : State :=
  if s.isSaved r.wg then s
  else
    let f := s.fib r
    if f.pend.isEmpty ∨ f.doomed ∨ f.dbg = .halted then s
    else if f.st = .blocked ∧ f.blk = .ending then s.freezeAsync r f.unitPc
    else if f.st = .blocked ∧ f.blk = .header ∧ ¬ f.inside then
      match f.clause with
      | some c => if f.freezesAt c then s.freezeAsync r f.pc else s
      | none => s
    else s

/-- A precise fault record of the running fibre at its issue unit. (Log 30 DESIGN CHOICE.) -/
def faultAt (pc : DWord) (cause : BitVec 8) (detail : Nat) (addr lanes : DWord) (lane : Option Nat) :
    FaultRec :=
  { cause := cause, async := false, multi := false, lane := lane, detail := BitVec.ofNat 47 detail, pc := pc,
    addr := addr, lanes := lanes, ipc := pc, cpos := 0, spos := 0 }

/-- Halts one fibre where it stands (R370): its state is kept under the halt, its record shows the cause, the debugger is
notified (code 0x85). (Log 33 DESIGN CHOICE, 130 DEDUCED.) -/
def State.haltOne (s : State) (r : FRef) (cause : BitVec 8) (detail : Nat) (pc : DWord) : State :=
  let s := s.shedDead r
  let f := s.fib r
  let fr := faultAt pc cause detail 0 0 none
  let w := s.wg r.wg
  ((s.setFib r { f with dbg := .halted, fault := some fr, wait := false }).countEv w.cu 0x11 1 (some w.ctx)).send
    (.note 0x85 [BitVec.ofNat 64 r.wg, BitVec.ofNat 64 r.slot, BitVec.ofNat 64 r.idx, fr.pc, fr.info])

/-- Does the fibre run for a step of the debugger (R373)? (Log 180 DESIGN CHOICE.) -/
def Fibre.steps (f : Fibre) : Bool := f.dbg == .stepClause || f.dbg == .stepUnit

/-- A halt of a fibre: in all-stop mode the other fibres of its workgroup halt with cause 0x73, a blocked one or one between
clauses where it stands, another at its next header, or with INSN at its next unit (R374). (Log 180 DESIGN CHOICE.) -/
def State.halt (s : State) (r : FRef) (cause : BitVec 8) (detail : Nat) (pc : DWord) : State :=
  let s1 := s.haltOne r cause detail pc
  let c := s.ctx (s.wg r.wg).ctx
  if c.dbgctl.getLsbD 1 then
    (s1.live (s1.wgRefs r.wg)).foldl (fun (t : State) q =>
      let f := t.fib q
      if q = r ∨ f.dbg = .halted ∨ f.st = .frozen ∨ (f.st = .ready ∧ f.inside ∧ f.steps) then t
      else if f.st = .blocked ∨ ¬ f.inside ∨ (c.dbgctl.getLsbD 2 ∧ f.idx = f.unit0) then t.haltOne q 0x73 0 f.unitPc
      else t.setFib q { f with dbg := if c.dbgctl.getLsbD 2 then .stopUnit else .stopClause }) s1
  else s1

/-- Takes a precise fault of the running fibre, FAULTPC its issue unit's first word (R47, R169). (Log 30 DESIGN CHOICE.) -/
def State.take (s : State) (cause : BitVec 8) (detail : Nat) : State :=
  s.freeze s.actor (faultAt s.me.unitPc cause detail 0 0 none)

/-- The same with an address and lanes. (Log 30 DESIGN CHOICE.) -/
def State.takeAt (s : State) (cause : BitVec 8) (detail : Nat) (addr lanes : DWord) (lane : Option Nat) : State :=
  s.freeze s.actor (faultAt s.me.unitPc cause detail addr lanes lane)

/-- Cancels the monitors that a fibre still has armed or queued: each completes without a captured value (R238).
(Log 23 DEDUCED, 147 DEDUCED.) -/
def State.cancelMons (s : State) (r : FRef) : State :=
  (s.ops.filter (fun o => o.who == r && o.fid == (s.fib r).fid &&
    (match o.kind with | .monitor .. => o.parts.all (fun p => p.st == .todo) | _ => false))).foldl (fun (t : State) o => t.complete o) s

/-- Takes a fibre out of its clause to a header: the temporaries are discarded, the clause is to be loaded (R37, R42). `via` is the
branch it comes from. A clause buffer entry marked invalid that it was issuing from is discarded (R146). A fibre that an `EXIT` has
ended ends here (R151). -/
def State.toHeader (s : State) (r : FRef) (h : DWord) (via : Option Via) : State :=
  let f := s.fib r
  (s.dropDead r).bump.setFib r { f with
    st := .blocked, blk := if f.doomed then .ending else .header, pc := h, clause := none,
    inside := false, idx := 0, unit0 := 0, hMod := none, hLimm := none, via := via, t := [], wait := false,
    begun := none, bpSeen := [], since := s.nextId, came := s.now }

/-- A fibre has reached its header: one that steps, or is to stop, halts there (R373, R374). -/
def State.reach (s : State) (r : FRef) : State :=
  let f := s.fib r
  if f.doomed then s
  else match f.dbg with
  | .stepClause | .stepUnit => s.halt r 0x72 0 f.pc
  | .stopClause | .stopUnit => s.haltOne r 0x73 0 f.pc
  | _ => s

/-- Moves a fibre to a clause header, at which it arrives (R37, R42, R373, R374). (Log 22 DEDUCED.) -/
def State.arrive (s : State) (r : FRef) (h : DWord) (via : Option Via) : State := (s.toHeader r h via).reach r

/-- The branch a fibre takes, for a target that turns out to be no header (R40). (Log 22 DEDUCED.) -/
def Fibre.viaHere (f : Fibre) : Option Via := f.clause.map (fun c => { clause := c, unit0 := f.unit0, t := f.t, link := none })

/-- Leaves the running fibre where it stands, waiting in place with its hint words read (R26, R31). -/
def State.waitHere (s : State) : State :=
  s.setMe { s.me with wait := true }

/-- Counts the running fibre's issue unit (R376). -/
def State.countUnit (s : State) : State :=
  let s1 := s.countEv s.myWg.cu 2 1 (some s.myWg.ctx)
  let u := s1.cu s.myWg.cu
  { s1.setCu s.myWg.cu { u with units := u.units + 1 } with freeCtr := s1.freeCtr + 1 }

/-- Ends the issue unit: the hint words are used up (R44). -/
def State.endUnit (s : State) : State :=
  (s.setMe { s.me with
    idx := s.me.idx + 1, unit0 := s.me.idx + 1, hMod := none, hLimm := none, wait := false, begun := none, bpSeen := [] }).countUnit

/-- Goes on after an issue unit: at the clause's end to the next header (R42). -/
def State.goOn (s : State) : State :=
  let f := s.me
  match f.clause with
  | some c =>
    if f.idx < c.words.length then
      match f.dbg with
      | .stepUnit => s.halt s.actor 0x72 0 (c.wordAddr f.idx)
      | .stopUnit => s.haltOne s.actor 0x73 0 (c.wordAddr f.idx)
      | _ => s
    else s.arrive s.actor c.next none
  | none => s

/-- Ends the issue unit and goes on (R42, R44). -/
def State.retire (s : State) : State := s.endUnit.goOn

/-- Ends the issue unit and the clause: the fibre goes to the header at `t` (R157). -/
def State.leave (s : State) (t : DWord) (via : Option Via) : State :=
  ((s.setMe { s.me with wait := false }).countUnit).arrive s.actor t via

/-- The header after the running fibre's clause. -/
def State.nextHeader (s : State) : DWord :=
  match s.me.clause with
  | some c => c.next
  | none => s.me.pc

/-- The monitors of a fibre that handed its lanes on become those of the fibre that goes on with them (R78, R238).
(Log 147 DEDUCED.) -/
def State.adopt (s : State) (fid : Nat) (r : FRef) (fid' : Nat) : State :=
  { s with ops := s.ops.map (fun o => match o.kind with
      | .monitor .. => if o.fid = fid then { o with who := r, fid := fid' } else o
      | _ => o) }

/-- Gives every operation in a fibre's program order to another fibre as well, as from now (R78). -/
def State.share (s : State) (fid fid' : Nat) : State :=
  { s with ops := s.ops.map (fun o =>
      if Tbl.has o.holders fid ∧ ¬ Tbl.has o.holders fid' then
        { o with holders := o.holders ++ [(fid', Tbl.get o.holders fid 0)] }
      else o) }

/-- Adds an operation of the running fibre to those in flight. -/
def State.addOp (s : State) (o : Op) : State := { s with ops := s.ops ++ [o], nextId := s.nextId + 1 }

/-- An operation of the running fibre with the flag number selected, its lanes, classes and scope; nothing performed. -/
def State.newOp (s : State) (k : OpKind) (flag : Option Nat) (lanes : DWord) (cls : BitVec 8) (c : Scope) : Op :=
  { id := s.nextId, kind := k, st := .issued,
    counts := [{ wg := s.actor.wg, slot := s.actor.slot, flag := flag, lanes := lanes, fid := s.me.fid }],
    who := s.actor, fid := s.me.fid, holders := [(s.me.fid, s.nextId)], ctx := s.myWg.ctx, cu := s.myWg.cu,
    lanes := lanes, ipc := s.me.unitPc, cls := cls, scope := c, parts := [], argv := [], notes := [], acq := false, split := false, gate := none,
    gwct := 0, ot := 0, sticky := 0, fault := none, tagWord := 0 }

end Sys2Proof.Machine
end

