-- ==== Sys2Proof/Machine/Operands.lean ====
section
/-!
DEFINITION. The operand forms and the checks of an issue unit: hint words, temporaries, register windows, interlocks, and
the one operation `issue` through which every instruction of a fibre runs (R34-R47, R89, R90).
-/
namespace Sys2Proof.Machine

-- Hint words ----------------------------------------------------------------------------------------------------------

/-- Fields of a MOD word that an instruction accepts (R46, R281, R305, R324): rounding, saturation, cache, lease, scope,
temporaries, and whether a MOD word of any content is refused. -/
structure ModAcc where
  rm : Bool
  sat : Bool
  cache : Bool
  lease : Bool
  scope : Bool
  t : Bool
  never : Bool
deriving DecidableEq, Repr

/-- Accepts no field. -/
def ModAcc.nothing : ModAcc :=
  { rm := false, sat := false, cache := false, lease := false, scope := false, t := false, never := false }

/-- The table of R46, with the engines' entries. (Log 19 DEDUCED, 174 DESIGN CHOICE.) -/
def modAcc : Instr → ModAcc
  | .vadd .. | .vsub .. | .vmul .. | .vfma .. | .vfms .. | .vscale .. | .vdot4 .. | .vpack .. | .vcvt ..
  | .vreduce .. | .vscan .. => { ModAcc.nothing with rm := true, sat := true, t := true }
  | .vmadi .. | .vabs .. | .vneg .. | .vexp2 .. | .vlog2 .. | .vrcp .. | .vrsq .. | .vsin .. | .vcos .. =>
    { ModAcc.nothing with sat := true, t := true }
  | .vmulh .. | .vmin .. | .vmax .. | .vand .. | .vor .. | .vxor .. | .vshl .. | .vshr .. | .vsra .. | .vperm ..
  | .vcmp .. | .vsel .. | .vmovi .. | .vmov .. | .vnot .. | .vclass .. | .vclz .. | .vffs .. | .vpopc .. | .vbrev ..
  | .vtag .. | .vlaneid .. | .vunpk .. | .vretag .. => { ModAcc.nothing with t := true }
  | .ld32 .. | .ld64 .. | .ld128 .. | .ldN .. | .lds .. | .ldb .. | .pref .. =>
    { ModAcc.nothing with cache := true, lease := true }
  | .st32 .. | .st64 .. | .st128 .. | .stN .. | .sts .. | .clst .. | .waitc .. =>
    { ModAcc.nothing with cache := true, scope := true }
  | .amo .. | .amor .. | .cas .. | .acust .. | .mma .. | .mtile .. | .mready | .spawn .. | .spawnv .. =>
    { ModAcc.nothing with scope := true }
  | .mepi _ _ m => { ModAcc.nothing with rm := m.toNat < 4, sat := m.toNat < 4, cache := true, scope := true }
  | .splitEnc .. | .splitDec .. | .spgRow .. | .spgFlush .. | .cp .. | .cpG .. | .cpMc .. =>
    { ModAcc.nothing with cache := true, scope := true }
  | .cpT .. => { ModAcc.nothing with rm := true, sat := true, cache := true, scope := true }
  | .fence .. | .put .. | .putG .. | .get .. | .getG .. | .tsend .. | .cntRd .. | .cntSet .. | .cntAdd .. | .cntwait ..
  | .qpost .. | .msend .. | .qpop .. | .peerStat .. | .peerClr .. => { ModAcc.nothing with never := true }
  | _ => ModAcc.nothing

/-- RM of a MOD word. -/
def mRM (m : Word) : Nat := bitsN m.toNat 22 3
/-- SAT of a MOD word. -/
def mSAT (m : Word) : Nat := bitsN m.toNat 20 2
/-- CACHE of a MOD word. -/
def mCACHE (m : Word) : Nat := bitsN m.toNat 17 3
/-- SCOPE of a MOD word. -/
def mSCOPE (m : Word) : Nat := bitsN m.toNat 14 3
/-- LEASE of a MOD word. -/
def mLEASE (m : Word) : Nat := bitsN m.toNat 11 3
/-- T of a MOD word: bit 2 VD, bit 1 VS1, bit 0 VS2. -/
def mT (m : Word) : Nat := bitsN m.toNat 8 3

/-- Does the instruction take the fields that a MOD word sets (R45)? `WAITC` refuses the system scope (R236).
(Log 19 DEDUCED, 174 DESIGN CHOICE.) -/
def modOk (i : Instr) (m : Word) : Bool :=
  let a := modAcc i
  !a.never && (a.rm || mRM m == 0) && (a.sat || mSAT m == 0) && (a.cache || mCACHE m == 0) &&
  (a.lease || mLEASE m == 0) && (a.scope || mSCOPE m == 0) && (a.t || mT m == 0) &&
  (match i with | .waitc .. => mSCOPE m != 6 | _ => true)

/-- Does the instruction accept a LIMM word, with the replaced field zero (R43)? (Log 19 DEDUCED.) -/
def limmOk : Instr → Bool
  | .vadd _ _ _ b y | .vsub _ _ _ b y | .vmul _ _ _ b y | .vmulh _ _ _ b y | .vfma _ _ _ b y | .vfms _ _ _ b y
  | .vmadi _ _ _ b y | .vmin _ _ _ b y | .vmax _ _ _ b y | .vand _ _ _ b y | .vor _ _ _ b y | .vxor _ _ _ b y
  | .vshl _ _ _ b y | .vshr _ _ _ b y | .vsra _ _ _ b y | .vscale _ _ _ b y | .vdot4 _ _ _ b y | .vpack _ _ _ b y
  | .vperm _ _ _ b y | .vcmp _ _ _ _ b y => b == 0 && y == 0
  | .vmovi _ _ i => i == 0
  | .sadd _ _ b | .ssub _ _ b | .smul _ _ b | .smulh _ _ b | .smulhU _ _ b | .sdiv _ _ b | .sdivU _ _ b | .srem _ _ b
  | .sremU _ _ b | .sand _ _ b | .sor _ _ b | .sxor _ _ b | .sshl _ _ b | .sshr _ _ b | .ssra _ _ b | .smin _ _ b
  | .sminU _ _ b | .smax _ _ b | .smaxU _ _ b | .smov _ b | .ssel _ _ b | .scmp _ _ b _ => b == 0
  | .saddImm _ _ i | .sandImm _ _ i | .sorImm _ _ i | .sxorImm _ _ i | .sli _ i => i == 0
  | .sliHi _ => true
  | .bra o | .braZ _ o | .braNz _ o | .braLt _ o | .braGe _ o | .braAll _ o | .braAny _ o | .brp _ _ o | .call _ o
  | .brx _ o => o == 0
  | .ld32 .. | .ld64 .. | .ld128 .. | .ldN .. | .st32 .. | .st64 .. | .st128 .. | .stN .. | .ldb .. | .pref .. | .ldw ..
  | .stw .. | .clst .. | .amo .. | .amor .. | .cas .. | .acust .. => true
  | .lds _ _ _ _ i | .sts _ _ _ _ i => i == 0
  | .tlbinvVaDev _ b | .tlbinvVaSys _ b => b == 0
  | _ => false

/-- The privileged instructions of R47. -/
def privileged : Instr → Bool
  | .asinst .. | .tlbinvVaDev .. | .tlbinvVaSys .. | .tlbinvAsidDev .. | .tlbinvAsidSys .. | .tlbinvAllDev
  | .tlbinvAllSys | .tlbsyncDev | .tlbsyncSys | .peerClr .. => true
  | _ => false

-- Vector operands -----------------------------------------------------------------------------------------------------

/-- A vector operand: position (0 VD, 1 VS1, 2 VS2), register field, registers it spans, route field, T bit of MOD. -/
structure VOp where
  pos : Nat
  reg : VReg
  span : Nat
  rt : Rt
  tbit : Option Nat
deriving DecidableEq, Repr

/-- A destination that a T bit may name. -/
def vD (d : VReg) : VOp := { pos := 0, reg := d, span := 1, rt := 0, tbit := some 2 }
/-- A first source. -/
def vS1 (a : VReg) (x : Rt) : VOp := { pos := 1, reg := a, span := 1, rt := x, tbit := some 1 }
/-- A second source. -/
def vS2 (b : VReg) (y : Rt) : VOp := { pos := 2, reg := b, span := 1, rt := y, tbit := some 0 }
/-- A register operand that is never a temporary. -/
def vM (pos : Nat) (r : VReg) (n : Nat) : VOp := { pos := pos, reg := r, span := n, rt := 0, tbit := none }

/-- The vector operands of an instruction in the order of R36. With a LIMM word the second source of a format VV or VC
word is no register. -/
def vops (limm : Bool) : Instr → List VOp
  | .vadd d a x b y | .vsub d a x b y | .vmul d a x b y | .vmulh d a x b y | .vfma d a x b y | .vfms d a x b y
  | .vmadi d a x b y | .vmin d a x b y | .vmax d a x b y | .vand d a x b y | .vor d a x b y | .vxor d a x b y
  | .vshl d a x b y | .vshr d a x b y | .vsra d a x b y | .vscale d a x b y | .vdot4 d a x b y | .vpack d a x b y
  | .vperm d a x b y => [vD d, vS1 a x] ++ (if limm then [] else [vS2 b y])
  | .vcmp _ _ a x b y => [vS1 a x] ++ (if limm then [] else [vS2 b y])
  | .vsel d a x _ _ | .vmov d a x | .vabs d a x | .vneg d a x | .vnot d a x | .vclass d a x | .vclz d a x | .vffs d a x
  | .vpopc d a x | .vbrev d a x | .vexp2 d a x | .vlog2 d a x | .vrcp d a x | .vrsq d a x | .vsin d a x | .vcos d a x
  | .vunpk d a x _ | .vretag d a x _ | .vscan d a x _ _ => [vD d, vS1 a x]
  | .vcvt d a x t => [{ vD d with span := if t.toNat < 14 then 1 else 2 }, vS1 a x]
  | .vtag d a => [vD d, vS1 a 0]
  | .vmovi d _ _ | .vlaneid d => [vD d]
  | .vreduce a x _ _ => [vS1 a x]
  | .ptld _ a x => [{ vS1 a x with tbit := none }]
  | .ld32 d a _ _ _ | .ldN d a _ _ _ | .st32 d a _ _ | .stN d a _ _ _ => [vM 0 d 1, vM 1 a 1]
  | .ld64 d a _ _ _ | .st64 d a _ _ => [vM 0 d 2, vM 1 a 1]
  | .ld128 d a _ _ _ | .st128 d a _ _ => [vM 0 d 4, vM 1 a 1]
  | .clst d a _ n _ => [vM 0 d (2 ^ n.toNat), vM 1 a 1]
  | .ldb d _ _ _ | .ldw d _ _ | .stw d _ _ => [vM 0 d 1]
  | .pref a _ _ => [vM 1 a 1]
  | .amo d a .. | .amor d a .. => [vM 0 d 1, vM 1 a 1]
  | .cas d a .. | .acust d a .. => [vM 0 d 2, vM 1 a 1]
  | .spawnv d _ _ => [vM 0 d 4]
  | .preemptPt d _ => [vM 0 d 1]
  | _ => []

/-- Scalar registers an instruction names, in any role (R90). -/
def sops : Instr → List Nat
  | .braZ s _ | .braNz s _ | .braLt s _ | .braGe s _ | .call s _ | .brx s _ | .ret s | .fsync s | .fsyncM s | .fresume s
  | .fresumeEnd s | .sysr s _ | .sysw s _ | .pmovFs _ s | .pmovTs _ s | .routeS _ _ s | .vballot s _ | .vvoteAny s _ _
  | .vvoteAll s _ _ | .vvoteEq s _ _ | .vreduce _ _ s _ | .vscan _ _ _ s _ | .sliHi s | .sli s _ | .ldb _ s _ _
  | .pref _ s _ | .ldw _ s _ | .stw _ s _ | .tlbinvAsidDev s | .tlbinvAsidSys s | .mbind s _ _ | .msign s _ _
  | .mma _ s _ | .mtile _ s _ | .mstat _ s _ | .cpStat _ s | .peerClr s | .preemptPt _ s | .evread _ s | .evctl _ s
  | .tmark s | .ld32 _ _ s _ _ | .ld64 _ _ s _ _ | .ld128 _ _ s _ _ | .ldN _ _ s _ _ | .st32 _ _ s _ | .st64 _ _ s _
  | .st128 _ _ s _ | .stN _ _ s _ _ | .clst _ _ s _ _ => [s.toNat]
  | .amo _ _ b _ _ _ | .amor _ _ b _ _ _ | .cas _ _ b _ _ _ => [b.toNat]
  | .acust _ _ b _ _ _ => [b.toNat]
  | .fork d t w _ => [d.toNat, t.toNat, w.toNat]
  | .fresumePc k p => [k.toNat, p.toNat]
  | .fstatMask d k | .fstatPc d k | .fstatInfo d k => [d.toNat, k.toNat]
  | .icinv a b | .icinvD a b | .tlbinvVaDev a b | .tlbinvVaSys a b | .splitEnc a b _ | .splitDec a b _ | .spgRow a b _
  | .spgFlush a b _ | .rackHint a b | .rackInv a b | .cpT a b _ | .spawn _ a b _ | .launch a b _ | .qpost a b
  | .cntRd a b | .cntAdd a b | .cntwait a b _ | .decantUnbind a b | .atrans a b _ | .asinst _ a b | .peerStat a b =>
    [a.toNat, b.toNat]
  | .sadd d a b | .ssub d a b | .smul d a b | .smulh d a b | .smulhU d a b | .sdiv d a b | .sdivU d a b | .srem d a b
  | .sremU d a b | .sand d a b | .sor d a b | .sxor d a b | .sshl d a b | .sshr d a b | .ssra d a b | .smin d a b
  | .sminU d a b | .smax d a b | .smaxU d a b | .ssel d a b | .scmp d a b _ => [d.toNat, a.toNat, b.toNat]
  | .smov d b => [d.toNat, b.toNat]
  | .sclz d a | .sffs d a | .spopc d a | .saddImm d a _ | .sandImm d a _ | .sorImm d a _ | .sxorImm d a _
  | .sshlImm d a _ | .sshrImm d a _ | .ssraImm d a _ | .sbfx d a _ _ _ | .sbfi d a _ _ | .lds d a _ _ _
  | .sts d a _ _ _ => [d.toNat, a.toNat]
  | .smadd d a b c => [d.toNat, a.toNat, b.toNat, c.toNat]
  | .waitc a v _ _ _ => [a.toNat, v.toNat]
  | .decantBind d a b | .cp d a b _ | .cpMc d a b _ | .put d a b _ | .get d a b _ | .cntSet d a b | .qpop d a b =>
    [d.toNat, a.toNat, b.toNat]
  | .cpG l a b _ | .putG l a b _ | .getG l a b _ | .tsend l a b _ | .msend l a b _ =>
    [l.toNat, l.toNat + 1, a.toNat, b.toNat]
  | _ => []

/-- The classes of R86 in which an instruction makes or issues accesses. -/
def accessCls : Instr → BitVec 8
  | .ld32 .. | .ld64 .. | .ld128 .. | .ldN .. | .lds .. | .ldb .. | .ldw .. | .waitc .. | .decantBind .. | .asinst ..
  | .qpost .. => clsR
  | .st32 .. | .st64 .. | .st128 .. | .stN .. | .sts .. | .stw .. | .clst .. | .ptld .. => clsW
  | .amo .. | .amor .. | .cas .. | .acust .. => clsR ||| clsW
  | .cp .. | .cpG .. | .cpT .. | .cpMc .. | .put .. | .putG .. | .get .. | .getG .. | .tsend .. | .msend .. =>
    clsCR ||| clsCW
  | .msign .. | .mma .. | .mtile .. | .mepi .. | .splitEnc .. | .splitDec .. => clsMR ||| clsMW
  | .spgRow .. | .spgFlush .. => clsGR ||| clsGW
  | _ => 0

-- Registers of the window ----------------------------------------------------------------------------------------------

/-- The MOD word in force, zero for none. -/
def State.hint (s : State) : Word := s.me.hMod.getD 0

/-- A physical register as the running fibre reads it (R91). -/
def State.vread (s : State) (n : Nat) : VVal := s.vshow s.actor.wg s.actor.slot n

/-- Register `r` of the running fibre's window. -/
def State.vwin (s : State) (r : Nat) : VVal := s.vread (s.me.base.toNat + r)

/-- Tag of register `r` of the running fibre's window. -/
def State.vtagOf (s : State) (r : Nat) : Tag := (s.vwin r).tag

/-- Does the MOD word name a temporary in T bit `b`? -/
def State.tbit (s : State) (b : Nat) : Bool := (mT s.hint).testBit b

/-- The register or temporary of an operand field. -/
def State.vfield (s : State) (r : VReg) (tb : Nat) : VVal :=
  if s.tbit tb then Tbl.get s.me.t (r.toNat % 4) VVal.temp else s.vwin r.toNat

/-- The tag of an operand field. -/
def State.tagField (s : State) (r : VReg) (tb : Nat) : Tag := (s.vfield r tb).tag

-- Pairs (R36, R177) ---------------------------------------------------------------------------------------------------

/-- The places of the operands whose register tagged 0xE makes a pair, and of those whose pair makes the result one too
(R177, R223, R252, R256). -/
def pairRule : Instr → List Nat × List Nat
  | .vadd .. | .vsub .. | .vmul .. | .vmulh .. | .vmin .. | .vmax .. | .vshl .. | .vshr .. | .vsra .. | .vscale .. => ([1, 2], [1])
  | .vfma .. | .vfms .. | .vmadi .. => ([0, 1, 2], [1])
  | .vand .. | .vor .. | .vxor .. => ([1, 2], [1, 2])
  | .vdot4 .. | .vpack .. => ([0, 1, 2], [])
  | .vcmp .. => ([1, 2], [])
  | .vmov .. | .vnot .. | .vabs .. | .vneg .. | .vclz .. | .vffs .. | .vpopc .. | .vbrev .. | .vexp2 .. | .vlog2 .. | .vrcp ..
  | .vrsq .. | .vsin .. | .vcos .. => ([1], [1])
  | .vclass .. | .vunpk .. | .vcvt .. | .vreduce .. | .vscan .. | .ptld .. => ([1], [])
  | .amo .. | .amor .. | .cas .. => ([0, 1], [])
  | .ld32 .. | .ld64 .. | .ld128 .. | .ldN .. | .st32 .. | .st64 .. | .st128 .. | .stN .. | .clst .. | .acust .. => ([1], [])
  | _ => ([], [])

/-- Is the operand the VA of a memory instruction, which makes a pair in an even register only (R223)? -/
def VOp.isVa (o : VOp) (i : Instr) : Bool :=
  o.pos == 1 && o.tbit.isNone && (match i with | .ptld .. => false | _ => true)

/-- Is an operand a pair? -/
def State.isPair (s : State) (i : Instr) (o : VOp) : Bool :=
  (pairRule i).1.contains o.pos &&
  (match o.tbit with | some b => s.tagField o.reg b | none => s.vtagOf o.reg.toNat) == 0xE &&
  (!o.isVa i || o.reg.toNat % 2 == 0)

/-- The vector operands with the registers that they span, as their tags say: a pair takes two, the group of a 64-bit `CAS` four
(R36, R177, R252, R256). -/
def State.spans (s : State) (i : Instr) : List VOp :=
  let os := vops s.me.hLimm.isSome i
  let wide := os.any (fun o => (pairRule i).2.contains o.pos && s.isPair i o)
  let group := match i with | .cas .. => 4 | _ => 2
  os.map (fun o =>
    if o.pos == 0 && (wide || s.isPair i o) then { o with span := group }
    else if s.isPair i o then { o with span := 2 } else o)

/-- Is an operation on pairs illegal: it names a temporary, or a register that no pair or group starts at (R36, R177)? -/
def State.pairsBad (s : State) (i : Instr) : Bool :=
  let os := s.spans i
  (os.any (s.isPair i) || (match i with | .vcvt _ _ _ t => decide (14 ≤ t.toNat) | _ => false)) &&
  os.any (fun o => o.tbit.any s.tbit || decide (o.reg.toNat % o.span ≠ 0) || decide (128 < o.reg.toNat + o.span))

-- Interlocks ----------------------------------------------------------------------------------------------------------

/-- Lanes in which physical register `n` of the operation's slot is its pending destination (R90). (Log 158 DEDUCED.) -/
def Op.pendLanes (o : Op) (n : Nat) : DWord :=
  let lanesLeft := maskOf ((o.parts.filter (fun p => p.st != .done)).map (fun p => p.lanes.map (·.1))).flatten
  match o.kind with
  | .load (.vec vd k ext) => if vd ≤ n ∧ n < vd + (if ext = 0 then (k + 3) / 4 else 1) then lanesLeft else 0
  | .load (.bcast vd) => if n = vd then o.lanes else 0
  | .load (.reg vd) => if n = vd then o.lanes else 0
  | .atomic ty true vd => if vd ≤ n ∧ n < vd + (if ty.wide then 2 else 1) then lanesLeft else 0
  | .cas wide vd => if vd ≤ n ∧ n < vd + (if wide then 2 else 1) then lanesLeft else 0
  | .acust _ _ vd => if vd ≤ n ∧ n < vd + 2 then lanesLeft else 0
  | _ => 0

/-- The workgroup of a rank of a cluster. -/
def State.rankWg (s : State) (cl r : Nat) : Option Nat := (s.cluster cl).wgs[r]?

/-- The location a window address names for a workgroup, or nothing beyond the limits (R20). -/
def State.winLoc (s : State) (wg : Nat) (va : DWord) : Option Loc :=
  let w := s.wg wg
  let off := va.toNat % 2 ^ 48
  match va.toNat / 2 ^ 48 with
  | 0xE0 => if off < w.ssize then some (.scratch wg off) else none
  | 0xE1 =>
    let c := s.cluster w.cluster
    let r := off / 0x1000000
    if r < c.cw * c.ch ∧ off % 0x1000000 < w.ssize then
      (s.rankWg w.cluster r).map (fun g => .scratch g (off % 0x1000000))
    else none
  | 0xE2 =>
    let k := off / 0x100000
    let o := off % 0x100000
    if k < w.nslots ∧ o < w.slotBytes then some (.regw wg k o) else none
  | 0xE3 => if off < 1024 then some (.pt wg off) else none
  | _ => none

/-- Is byte `j` of a slot's registers one that a get has still to write? -/
def XferArgs.owes (x : XferArgs) (k j : Nat) : Bool :=
  x.get && x.dst.zipIdx.any (fun e => match e.1.loc with
    | .regw _ k' off =>
      let i := e.1.off + (j - off)
      k' == k && decide (off ≤ j) && decide (i < ((x.dst[e.2 + 1]?).map (·.off)).getD x.len) &&
      !x.wrote.any (fun q => decide (q.1 ≤ i) && decide (i < q.1 + q.2))
    | _ => false)

/-- Lanes of physical register `n` of its slot that an operation still has to write through the register window: a `GET` into
registers, and a flush (R90). -/
def State.windowPend (s : State) (o : Op) (n : Nat) : DWord :=
  let w := (s.wg o.who.wg).warp
  let lanes := fun (f : Nat → Bool) =>
    maskOf ((List.range w).filter (fun l => (List.range 4).any (fun b => f (4 * (n * w + l) + b))))
  match o.kind with
  | .xfer x => if x.get then lanes (x.owes o.who.slot) else 0
  | .spgFlush d word _ =>
    (match s.winLoc o.who.wg d with
     | some (.regw _ k off) =>
       if k = o.who.slot then lanes (fun j => decide (off ≤ j) && decide (j < off + 16 + 8 * fld word 32 16)) else 0
     | _ => 0)
  | _ => 0

/-- Lanes in which physical register `n` of a slot is a pending destination of any operation (R176). -/
def State.pendingAny (s : State) (wg slot n : Nat) : DWord :=
  (s.ops.map (fun o => if o.who.wg = wg ∧ o.who.slot = slot then o.pendLanes n ||| s.windowPend o n else 0)).foldl (· ||| ·) 0

/-- Lanes in which physical register `n` of the fibre's slot is a pending destination of an operation in the fibre's
program order (R90). (Log 158 DEDUCED.) -/
def State.pendingV (s : State) (r : FRef) (n : Nat) : DWord :=
  let f := s.fib r
  (s.ops.map (fun o =>
    if o.who.wg = r.wg ∧ o.who.slot = r.slot ∧ Tbl.has o.holders f.fid then o.pendLanes n ||| s.windowPend o n else 0)).foldl (· ||| ·) 0

/-- Is scalar register `n` a pending destination for the fibre (R90, R229, R237)? (Log 158 DEDUCED.) -/
def State.pendingS (s : State) (r : FRef) (n : Nat) : Bool :=
  let f := s.fib r
  s.ops.any (fun o => Tbl.has o.holders f.fid &&
    (match o.kind with
     | .load (.scal sd _ _) => sd == n && !o.parts.all (fun p => p.st == .done)
     | .monitor _ sd => sd == n
     | _ => false))

/-- The physical registers of the operands, with all that a pair or group spans. -/
def State.touched (s : State) (i : Instr) : List Nat :=
  ((s.spans i).map (fun o =>
    if o.tbit.any s.tbit then [] else (List.range o.span).map (fun k => s.me.base.toNat + o.reg.toNat + k))).flatten

/-- Is a register pending whose tag says how many registers its operand spans? -/
def State.pairsPend (s : State) (i : Instr) : Bool :=
  (vops s.me.hLimm.isSome i).any (fun o => (pairRule i).1.contains o.pos && !o.tbit.any s.tbit &&
    (s.pendingV s.actor (s.me.base.toNat + o.reg.toNat) &&& s.me.mask) != 0)

/-- Does the unit have to wait in place: for a pending register (R90), a fence in progress whose successors it accesses or
a second fence (R89), an acquire atomic that has not read (R95), the lease wait of a restore (R106), the scrubber (R388)? -/
def State.interlocked (s : State) (i : Instr) : Bool :=
  let f := s.me
  let c := accessCls i
  (s.touched i).any (fun n => (s.pendingV s.actor n &&& f.mask) != 0 || s.regPoisoned s.actor n) ||
  (sops i).any (fun n => s.pendingS s.actor n) ||
  (match f.fence with
   | some fe => (fe.succ &&& c) != 0 || (match i with | .fence .. => true | _ => false)
   | none => false) ||
  (c != 0 && s.ops.any (fun o => o.acq && Tbl.has o.holders f.fid &&
    !o.parts.all (fun p => p.st == .done || (p.st == .performed && !o.isCas)))) ||
  ((c &&& clsReads) != 0 && decide (s.lease s.myWg.cu < s.myWg.leaseWait))

-- The checks of R47 ---------------------------------------------------------------------------------------------------

/-- What the checks of an issue unit decide. -/
inductive Verdict where
  | go
  | wait
  | fault (cause : BitVec 8) (detail : Nat)
deriving DecidableEq, Repr

/-- Operand checks that depend only on the unit's words: spans are aligned and end at `v127`, a temporary's upper bits and
route are zero, a T bit names an operand the instruction has (R36, R37, R45). (Log 19 DEDUCED.) -/
def wordsOk (i : Instr) (m : Word) (limm : Bool) : Bool :=
  let os := vops limm i
  os.all (fun o =>
    if o.tbit.any (fun b => (mT m).testBit b) then decide (o.reg.toNat < 4) && o.rt == 0 && o.span == 1
    else decide (o.reg.toNat % o.span = 0) && decide (o.reg.toNat + o.span ≤ 128)) &&
  (List.range 3).all (fun b => !(mT m).testBit b || os.any (fun o => o.tbit == some b))

/-- The first operand with a register outside the slot's registers, by its place (R36). -/
def State.outside (s : State) (i : Instr) : Option Nat :=
  ((s.spans i).find? (fun o =>
    !o.tbit.any s.tbit && decide (s.myWg.regs < s.me.base.toNat + o.reg.toNat + o.span))).map (·.pos)

/-- What the checks of R47 decide for the acting fibre's unit, in their order; the interlocks come last, but for that of a
register whose tag decides what an operand spans. (Log 18 DESIGN CHOICE, 19 DEDUCED.) -/
def State.verdict (s : State) (i : Instr) : Verdict :=
  let f := s.me
  let m := f.hMod.getD 0
  if f.hLimm.isSome && !limmOk i then .fault 1 0
  else if f.hMod.isSome && !modOk i m then .fault 1 0
  else if privileged i && !s.myCtx.priv then .fault 4 0
  else if !(wellFormed i && wordsOk i m f.hLimm.isSome) then .fault 1 0
  else if (match i with | .sliHi _ => f.hLimm.isNone | _ => false) then .fault 1 0
  else if s.pairsPend i then .wait
  else if s.pairsBad i then .fault 1 0
  else match s.outside i with
    | some p => .fault 5 p
    | none => if s.interlocked i then .wait else .go

/-- Is the acting fibre the one its slot issues from: the current fibre, ready, inside its clause (R141, R142)?
(Log 4 DESIGN CHOICE.) -/
def State.issuing (s : State) : Bool :=
  let f := s.me
  f.st == .ready && f.dbg != .halted && f.inside && f.clause.isSome && s.mySlot.cur == s.actor.idx && s.ctl.phase == .ready

/-- Issues an instruction of the acting fibre: the checks of R47, then its effect. A fibre that does not issue is left
alone. -/
def issue (i : Instr) (s : State) (body : State → State) : Host.Outcome State Fault Refusal :=
  if s.issuing then
    match s.verdict i with
    | .fault c d => .next (s.take c d)
    | .wait => .next s.waitHere
    | .go => .next (body s)
  else .next s

-- Values of operands --------------------------------------------------------------------------------------------------

/-- A second scalar operand: `s[n]`, or the sign-extended LIMM word (R43). -/
def State.sB (s : State) (n : BitVec 6) : DWord :=
  match s.me.hLimm with
  | some w => sext32 w
  | none => s.sreg n.toNat

/-- A 13-bit immediate, or the sign-extended LIMM word (R43, R165). -/
def State.imm13 (s : State) (i : BitVec 13) : DWord :=
  match s.me.hLimm with
  | some w => sext32 w
  | none => i.signExtend 64

/-- The displacement that LIMM adds to addresses: zero without one (R43, R223). -/
def State.limmDisp (s : State) : DWord :=
  match s.me.hLimm with
  | some w => sext32 w
  | none => 0

/-- The flag that a flag-select bit names: FLAGA or FLAGB of the clause header, none for 0xF (R38, R26). -/
def State.flagSel (s : State) (f : BitVec 1) : Option Nat :=
  match s.me.clause with
  | some c =>
    let n := if f = 0 then bitsN c.header.toNat 9 4 else bitsN c.header.toNat 5 4
    if n < 12 then some n else none
  | none => none

/-- The scope of an operation: the MOD scope, or its default (R93). -/
def State.scopeOr (s : State) (d : Scope) : Scope := (scopeOf (mSCOPE s.hint)).getD d

/-- Writes the active lanes of register `r` of the running fibre's window. -/
def State.setWin (s : State) (r : Nat) (v : VVal) : State :=
  s.setV s.actor.wg s.actor.slot (s.me.base.toNat + r) s.me.mask v

/-- The DETAIL of a tag mismatch (R204): operand in bits 1:0, bit 2 for the second register of a pair, the tag found in
bits 6:3. -/
def tagDetail (operand : Nat) (high : Bool) (t : Tag) : Nat := operand + (if high then 4 else 0) + t.toNat * 8

/-- Kinds of operation that R129 limits to 256 in a workgroup. -/
def OpKind.recordable : OpKind → Bool
  | .gang _ p _ => p.op != 0
  | .copy _ | .split .. | .spgRow .. | .spgFlush .. | .spawn .. | .launch .. | .monitor .. => true
  | _ => false

/-- Does the running fibre's workgroup hold 256 recordable operations (R129)? -/
def State.recordFull (s : State) : Bool :=
  decide (256 ≤ (s.ops.filter (fun x => x.who.wg == s.actor.wg && x.kind.recordable)).length)

/-- Must an operation wait in place before it issues: its flag counts 63 (R26), or the workgroup holds 256 recordable
operations (R129)? -/
def State.cannotEmit (s : State) (o : Op) : Bool :=
  (match o.flag with
   | some n => decide (63 ≤ s.flagval s.actor.wg s.actor.slot n s.me.mask)
   | none => false) ||
  (o.kind.recordable && s.recordFull)

/-- Issues an operation, with the effects that come with its issue, or waits in place. -/
def State.emitWith (s : State) (o : Op) (eff : State → State) : State :=
  if s.cannotEmit o then s.waitHere else (eff (s.addOp o)).retire

/-- Issues an operation, or waits in place. -/
def State.emit (s : State) (o : Op) : State := s.emitWith o id

end Sys2Proof.Machine
end

