-- ==== Sys2Proof/Machine/Xlate.lean ====
section
/-!
DEFINITION. The translation engine: page walks, the translation caches, windows, and the checks of R210 for one access
(R20, R205-R211).
-/
namespace Sys2Proof.Machine

-- Windows (R20) -------------------------------------------------------------------------------------------------------

/-- First address of the window region. -/
def winBase : Nat := 0x00E0000000000000

/-- Does an address lie in the window region? -/
def inWindow (va : DWord) : Bool := decide (winBase ≤ va.toNat) && decide (va.toNat < 0x00F0000000000000)

/-- Is the address canonical: bits 63:57 equal to bit 56 (R210)? -/
def canonical (va : DWord) : Bool := fld va 57 7 == (if va.getLsbD 56 then 0x7F else 0)

-- Page tables (R205-R207) ---------------------------------------------------------------------------------------------

/-- A 64-bit word of HBM, read at its home (R77, R209). -/
def State.hbm64 (s : State) (a : Nat) : DWord := BitVec.ofNat 64 (leNat (s.hbmBytes a 8))

/-- Index of an address into the table of a level (R205). -/
def ptIndex (va level : Nat) : Nat := bitsN va (12 + 9 * level) 9

/-- Bytes a leaf of a level maps (R205). -/
def leafBytes (level : Nat) : Nat := 2 ^ (12 + 9 * level)

/-- Does the frame lie in no range of the physical map (R206)? -/
def outsideMap (pa : Nat) : Bool := !(inHbm pa || inChip pa || inMmio pa)

/-- Is a leaf malformed (R207)? -/
def State.malformed (s : State) (e : DWord) (level : Nat) : Bool :=
  let b := fun n => e.getLsbD n
  let peer := b 11
  let frame := if peer then fld e 12 28 * 4096 else fld e 12 40 * 4096
  fld e 59 5 != 0 || decide (5 ≤ fld e 56 3) || (!peer && fld e 52 4 != 0) || (b 3 && !b 2) ||
  ((level == 1 || level == 2) && frame % leafBytes level != 0) || (b 10 && (b 9 || b 8 || b 11)) ||
  (b 8 && (b 11 || b 9)) || (peer && (b 4 || fld e 40 16 == s.fe.devid.toNat)) || (b 6 && level != 0) ||
  (!peer && (inMmio frame != b 10))

/-- The 16 entries of a 64 KiB group, if they map one page: its frame (R207). -/
def State.group64 (s : State) (table idx : Nat) : Option Nat :=
  let g := idx / 16 * 16
  let es := (List.range 16).map (fun i => s.hbm64 (table + 8 * (g + i)))
  let e0 := es.headD 0
  let f0 := fld e0 12 44
  let m : DWord := ~~~ (BitVec.ofNat 64 ((2 ^ 44 - 1) * 4096))
  if es.all (fun e => e.getLsbD 0 && e.getLsbD 6 && !e.getLsbD 1 && (e &&& m) == (e0 &&& m)) &&
     (List.range 16).all (fun i => fld (es.getD i 0) 12 44 == f0 + i) && f0 % 16 == 0
  then some (fld e0 12 (if e0.getLsbD 11 then 28 else 40) * 4096) else none

/-- What a walk finds: a leaf, or a failure with its reason and level (R211). -/
inductive Walk where
  | leaf (l : TLeaf)
  | fail (x : XFail)
deriving DecidableEq, Repr

/-- A translation failure, cause 0x20. -/
def xlateFail (reason level : Nat) : Walk := .fail { cause := 0x20, reason := reason, level := level }

/-- Walks from the table of a level down (R205-R207, R209). -/
def State.walkFrom (s : State) (asid : BitVec 16) (va : Nat) : Nat → Nat → Walk
  | level, table =>
    if !inHbm table then xlateFail 5 level
    else
      let idx := ptIndex va level
      let e := s.hbm64 (table + 8 * idx)
      if !e.getLsbD 0 then xlateFail 2 level
      else if e.getLsbD 1 then
        match level with
        | 0 => xlateFail 3 0
        | l + 1 =>
          if (e &&& ~~~ (BitVec.ofNat 64 ((2 ^ 40 - 1) * 4096 + 3))) != 0 then xlateFail 3 (l + 1)
          else if !inHbm (fld e 12 40 * 4096) then xlateFail 5 (l + 1)
          else s.walkFrom asid va l (fld e 12 40 * 4096)
      else if 3 ≤ level then xlateFail 3 level
      else
        let peer := e.getLsbD 11
        let frame := if peer then fld e 12 28 * 4096 else fld e 12 40 * 4096
        if !peer && fld e 52 4 == 0 && outsideMap frame then xlateFail 5 level
        else if s.malformed e level then xlateFail 3 level
        else if e.getLsbD 6 then
          match s.group64 table idx with
          | some f => .leaf { asid := asid, base := va / 65536 * 65536, size := 1, pte := e, frame := f,
                              dev := BitVec.ofNat 16 (fld e 40 16) }
          | none => xlateFail 4 level
        else .leaf { asid := asid, base := va / leafBytes level * leafBytes level,
                     size := match level with | 0 => 0 | 1 => 2 | _ => 3, pte := e, frame := frame,
                     dev := BitVec.ofNat 16 (fld e 40 16) }

/-- The whole walk of a virtual address in a context (R205). -/
def State.walk (s : State) (c : Ctx) (va : DWord) : Walk := s.walkFrom c.asid (va.toNat % 2 ^ 57) 4 c.root

/-- The table pointers a walk passes, for the walk cache: level of the table pointed to, range base, table (R209). -/
def State.walkTables (s : State) (asid : BitVec 16) (va : Nat) : Nat → Nat → List TTable
  | 0, _ => []
  | l + 1, table =>
    let e := s.hbm64 (table + 8 * ptIndex va (l + 1))
    if inHbm table && e.getLsbD 0 && e.getLsbD 1 &&
       (e &&& ~~~ (BitVec.ofNat 64 ((2 ^ 40 - 1) * 4096 + 3))) == 0 && inHbm (fld e 12 40 * 4096) then
      { asid := asid, level := l, base := va / leafBytes (l + 1) * leafBytes (l + 1), table := fld e 12 40 * 4096 } ::
        s.walkTables asid va l (fld e 12 40 * 4096)
    else []

/-- Bytes of a leaf's page by its size code (R215). -/
def TLeaf.bytes (l : TLeaf) : Nat := match l.size with | 0 => 4096 | 1 => 65536 | 2 => 2 ^ 21 | _ => 2 ^ 30

/-- Does a leaf map the address? -/
def TLeaf.covers (l : TLeaf) (asid : BitVec 16) (va : DWord) : Bool :=
  let v := va.toNat % 2 ^ 57
  l.asid == asid && decide (l.base ≤ v) && decide (v < l.base + l.bytes)

/-- The physical address, or the address at the peer, of a virtual address under a leaf. -/
def TLeaf.pa (l : TLeaf) (va : DWord) : Nat := l.frame + (va.toNat % 2 ^ 57 - l.base)

/-- The leaf that the quarter cache or the CU cache holds for an address (R209). -/
def State.cachedLeaf (s : State) (cu quarter : Nat) (asid : BitVec 16) (va : DWord) : Option TLeaf :=
  let u := s.cu cu
  match (Tbl.get u.qleaf quarter []).find? (fun l => l.covers asid va) with
  | some l => some l
  | none => u.leaves.find? (fun l => l.covers asid va)

/-- Fills the quarter cache (64 entries) and the CU cache (4,096); the oldest fill gives way (R209). (Log 52 DESIGN CHOICE.) -/
def State.fillLeaf (s : State) (cu quarter : Nat) (l : TLeaf) : State :=
  let u := s.cu cu
  s.setCu cu { u with
    qleaf := Tbl.set u.qleaf quarter ((l :: (Tbl.get u.qleaf quarter []).filter (· != l)).take 64)
    leaves := (l :: u.leaves.filter (· != l)).take 4096 }

/-- The addresses of the entries a walk reads from the table of a level down (R205, R209). -/
def State.walkPath (s : State) (va : Nat) : Nat → Nat → List Nat
  | 0, table => if inHbm table then [table + 8 * ptIndex va 0] else []
  | l + 1, table =>
    if !inHbm table then []
    else
      let a := table + 8 * ptIndex va (l + 1)
      let e := s.hbm64 a
      if e.getLsbD 0 && e.getLsbD 1 && (e &&& ~~~ (BitVec.ofNat 64 ((2 ^ 40 - 1) * 4096 + 3))) == 0 then
        a :: s.walkPath va l (fld e 12 40 * 4096)
      else [a]

/-- Where a walk of a CU starts: at the lowest table its walk cache names for the address, else at the root (R209). -/
def State.walkStart (s : State) (cu : Nat) (c : Ctx) (va : DWord) : Nat × Nat :=
  let v := va.toNat % 2 ^ 57
  let hits := (s.cu cu).tables.filter (fun t => t.asid == c.asid && v / leafBytes (t.level + 1) * leafBytes (t.level + 1) == t.base)
  match hits.foldl (fun (b : Option TTable) t => match b with
      | some x => if t.level < x.level then some t else b
      | none => some t) none with
  | some t => (t.level, t.table)
  | none => (4, c.root)

/-- The walk a CU makes (R209). -/
def State.walkCached (s : State) (cu : Nat) (c : Ctx) (va : DWord) : Walk :=
  let b := s.walkStart cu c va
  s.walkFrom c.asid (va.toNat % 2 ^ 57) b.1 b.2

/-- Fills the walk cache with the table pointers of a walk (512 entries). -/
def State.fillTables (s : State) (cu : Nat) (c : Ctx) (va : DWord) : State :=
  let u := s.cu cu
  let ts := s.walkTables c.asid (va.toNat % 2 ^ 57) 4 c.root
  s.setCu cu { u with tables := (ts ++ u.tables.filter (fun t => !(ts.any (fun x => x.level == t.level && x.base == t.base &&
    x.asid == t.asid)))).take 512 }

-- The checks of R210 --------------------------------------------------------------------------------------------------

/-- What an access needs of a page (R210). -/
inductive Need where
  | read | write | amo | cas | exec
deriving DecidableEq, Repr

/-- What the checks of one access give: a location with its leaf, a failure, or a walk that has still to be made. -/
inductive Access where
  | at (l : Loc) (e : Option TLeaf)
  | fail (cause : BitVec 8) (detail : Nat)
  | miss
deriving DecidableEq, Repr

/-- DETAIL of a TE failure: reason in bits 3:0, level in bits 6:4 (R211). -/
def xDetail (reason level : Nat) : Nat := reason + level * 16

/-- Level of a leaf by its size code (R205). -/
def TLeaf.level (l : TLeaf) : Nat := match l.size with | 0 => 0 | 1 => 0 | 2 => 1 | _ => 2

/-- The decant binding of a context whose range holds an address (R241). -/
def Ctx.decantAt (c : Ctx) (va : DWord) : Option (Nat × Decant) :=
  c.decants.find? (fun e => decide (e.2.base.toNat ≤ va.toNat) && decide (va.toNat < e.2.base.toNat + e.2.size))

/-- Does an address lie in a privileged block of the MMIO map: the route table, the FE control block (R386)? -/
def privMmio (pa : Nat) : Bool :=
  inMmio pa && (let o := pa - mmioBase; (decide (0x200000 ≤ o) && decide (o < 0x220000)) || (decide (0x300000 ≤ o) && decide (o < 0x301000)))

/-- The permission checks of R210 on a leaf; the reason of a refusal names the kind of access. (Log 42 DEDUCED.) -/
def checkLeaf (c : Ctx) (l : TLeaf) (va : DWord) (n : Need) : Access :=
  let e := l.pte
  let peer := e.getLsbD 11
  let pa := l.pa va
  if e.getLsbD 5 && !c.priv then .fail 0x21 (xDetail 3 l.level)
  else if !peer && (inChip pa || privMmio pa) && !e.getLsbD 5 then .fail 0x21 (xDetail 3 l.level)
  else
    match n with
    | .read | .cas => if e.getLsbD 2 then (if n == .cas && (e.getLsbD 10 || e.getLsbD 9) then .fail 0x23 0
        else .at (if peer then .peer l.dev pa else .mem pa) (some l)) else .fail 0x21 (xDetail 0 l.level)
    | .write | .amo =>
      if !(e.getLsbD 2 && e.getLsbD 3) then .fail 0x21 (xDetail 1 l.level)
      else if n == .amo && (e.getLsbD 10 || e.getLsbD 9) then .fail 0x23 0
      else .at (if peer then .peer l.dev pa else .mem pa) (some l)
    | .exec => if e.getLsbD 4 && !peer then .at (.mem pa) (some l) else .fail 0x21 (xDetail 2 l.level)

/-- One access of an agent of workgroup `wg` in context `c` against a way to find the leaf: canonical form, windows, decant
windows, leaf, permissions (R210, R224, R242). (Log 44 DEDUCED.) -/
def State.resolve (s : State) (wg : Nat) (c : Ctx) (cid : BitVec 12) (va : DWord) (n : Need) (leaf : Option Walk) : Access :=
  if !canonical va then .fail 0x20 (xDetail 0 0)
  else if inWindow va then
    if n == .exec then .fail 0x21 (xDetail 2 0)
    else match s.winLoc wg va with
      | some l => .at l none
      | none => .fail 0x20 (xDetail 1 0)
  else match c.decantAt va with
    | some (k, d) =>
      (match n with
       | .read => .at (.decant cid k (va.toNat - d.base.toNat)) none
       | .exec => .fail 0x25 2
       | _ => .fail 0x25 1)
    | none =>
      match leaf with
      | none => .miss
      | some (.fail x) => .fail x.cause (xDetail x.reason x.level)
      | some (.leaf l) => checkLeaf c l va n

/-- The quarter of a fibre's slot (R13). -/
def State.quarterOf (s : State) (r : FRef) : Nat := (s.slot r.wg r.slot).number / 8

/-- One access of the running fibre (R209, R210): a cached leaf, else the failure of a walk it waited for, else a miss.
(Log 42 DEDUCED.) -/
def State.accessMe (s : State) (va : DWord) (n : Need) : Access :=
  let w := s.myWg
  let c := s.myCtx
  let leaf := match s.cachedLeaf w.cu (s.quarterOf s.actor) c.asid va with
    | some l => some (Walk.leaf l)
    | none =>
      ((s.cu w.cu).coal.find? (fun e => e.asid == c.asid && e.page == (va &&& ~~~ 0xFFF#64) &&
        e.fail.isSome && s.me.wait && e.waiters.any (fun x => x.1 == s.actor && x.2 == s.me.fid))).bind
        (fun e => e.fail.map Walk.fail)
  s.resolve s.actor.wg c w.ctx va n leaf

/-- One access of an engine that walks as it goes (an asynchronous operation, the front end), in the CU's caches first. -/
def State.accessOp (s : State) (wg cu : Nat) (cid : BitVec 12) (va : DWord) (n : Need) : Access :=
  let c := s.ctx cid
  let leaf := match (s.cu cu).leaves.find? (fun l => l.covers c.asid va) with
    | some l => Walk.leaf l
    | none => s.walk c va
  s.resolve wg c cid va n (some leaf)

/-- The running fibre waits for no walk any more, and neither does a fibre that has gone. -/
def State.dropWalks (s : State) : State :=
  let w := s.myWg
  let u := s.cu w.cu
  let waits := fun (x : FRef × Nat) => x != (s.actor, s.me.fid) && (s.fib x.1).st != .absent && (s.fib x.1).fid == x.2
  let left := u.coal.map (fun e => { e with waiters := e.waiters.filter waits })
  s.setCu w.cu { u with coal := left.filter (fun e => !(e.waiters.isEmpty && e.prefs.isEmpty)) }

/-- The running fibre joins the coalescer entries of the pages it misses on; at most 256 pages wait in a CU (R209). -/
def State.joinWalks (s : State) (vas : List DWord) : State :=
  let w := s.myWg
  let c := s.myCtx
  vas.foldl (fun (t : State) va =>
    let u := t.cu w.cu
    let page := va &&& ~~~ 0xFFF#64
    let me := (t.actor, t.me.fid)
    if u.coal.any (fun e => e.asid == c.asid && e.page == page && e.fail.isNone) then
      t.setCu w.cu { u with coal := u.coal.map (fun e =>
        if e.asid == c.asid && e.page == page && e.fail.isNone && !e.waiters.contains me then
          { e with waiters := e.waiters ++ [me] } else e) }
    else if decide (256 ≤ u.coal.length) then t
    else t.setCu w.cu { u with coal := u.coal ++ [{ asid := c.asid, page := page, waiters := [me], prefs := [], fail := none }] })
    (if s.me.wait then s else s.dropWalks)

/-- What the checks of all lanes of a unit decide. -/
inductive Lanes where
  | ok (ls : List (Nat × Loc × Option TLeaf))
  | fault (cause : BitVec 8) (detail : Nat) (addr lanes : DWord) (lane : Nat)
  | miss (vas : List DWord)
deriving DecidableEq, Repr

/-- The gateways of the own group that lead into group `h`: member and global port (R335). The places of the fields in the
register are the model's choice: bit 63 valid, bits 4:0 member, bits 14:8 port. (Log 103 DESIGN CHOICE.) -/
def State.gatewaysTo (s : State) (h : Nat) : List (Nat × Nat) :=
  (List.range 4).filterMap (fun i =>
    let g := Tbl.get s.fe.gateways (4 * h + i) 0
    if g.getLsbD 63 then some (fld g 0 5, fld g 8 7) else none)

/-- Has a destination a route (R335)? -/
def State.hasRoute (s : State) (d : BitVec 16) : Bool :=
  if d.toNat / 32 = s.fe.devid.toNat / 32 then s.fe.members.getLsbD (d.toNat % 32)
  else !(s.gatewaysTo (d.toNat / 32)).isEmpty

/-- The dead-peer check, then the route check, of one access (R210, R224, R335, R349). (Log 54 DEDUCED, 82 DEDUCED.) -/
def State.deadCheck (s : State) (a : Access) : Access :=
  match a with
  | .at (.peer d _) _ =>
    if s.fe.dead.contains d then .fail 0x50 (d.toNat * 256)
    else if !s.hasRoute d then .fail 0x52 (d.toNat * 256)
    else a
  | _ => a

/-- The checks of R224 for the lanes of a unit: alignment of every lane first, then each lane by `chk`; the lowest failing
lane decides the cause, FAULTLANES holds the lanes that fail with it, and nothing faults while a walk is to be made.
(Log 43 DESIGN CHOICE.) -/
def State.checkLanes (s : State) (size : Nat) (lanes : List (Nat × DWord)) (chk : DWord → Access) : Lanes :=
  let bad := lanes.filter (fun e => e.2.toNat % size != 0)
  match bad with
  | (l, a) :: _ => .fault 0x22 0 a (maskOf (bad.map (·.1))) l
  | [] =>
    let rs := lanes.map (fun e => (e.1, e.2, s.deadCheck (chk e.2)))
    let misses := rs.filterMap (fun e => match e.2.2 with | .miss => some e.2.1 | _ => none)
    if misses.isEmpty then
      match rs.find? (fun e => match e.2.2 with | .fail .. => true | _ => false) with
      | some (l, a, .fail c d) =>
        .fault c d a (maskOf (rs.filterMap (fun e => match e.2.2 with | .fail c' _ => if c' = c then some e.1 else none | _ => none))) l
      | _ => .ok (rs.filterMap (fun e => match e.2.2 with | .at l t => some (e.1, l, t) | _ => none))
    else .miss misses

end Sys2Proof.Machine
end

