-- ==== Sys2Proof/Machine/Home.lean ====
section
/-!
DEFINITION. Reads and writes at their homes: leases, GWCT and WVT, owner and guard tags, monitors, L1 copies, cellars,
registers of the MMIO map, decant gathering (R28, R80-R85, R104, R219-R222, R242, R318-R320, R386, R387).
-/
namespace Sys2Proof.Machine

-- CRC-32C (R318) ------------------------------------------------------------------------------------------------------

/-- One bit of the reflected CRC-32C. -/
def crcBit (c : Word) : Word := if c.getLsbD 0 then (c >>> 1) ^^^ 0x82F63B78#32 else c >>> 1

/-- One byte of the reflected CRC-32C. -/
def crcByte (c : Word) (b : Byte) : Word :=
  crcBit (crcBit (crcBit (crcBit (crcBit (crcBit (crcBit (crcBit (c ^^^ b.setWidth 32))))))))

/-- CRC-32C: polynomial 0x1EDC6F41, reflected, initial value and final XOR all ones (R318). -/
def crc32c (bs : List Byte) : Word := (bs.foldl crcByte 0xFFFFFFFF#32) ^^^ 0xFFFFFFFF#32

/-- A guard tag: version, bits 26:7 of an address, CRC (R318). -/
def mkTag (ver : Nat) (va : DWord) (crc : Word) : DWord :=
  if ver % 4096 = 0 then 0
  else BitVec.ofNat 64 ((ver % 4096) * 2 ^ 52 + fld va 7 20 * 2 ^ 32 + crc.toNat)

/-- What a write does to the guard tag of its block (R320). -/
inductive TagW where
  | clear
  | stamp (ver : Nat) (va : DWord)
  | carry (t : DWord)
deriving DecidableEq, Repr

-- MMIO (R386, R387) ---------------------------------------------------------------------------------------------------

/-- A 64-bit register of the MMIO map; addresses outside the blocks read as zero (R386). The value a doorbell reads as is
not stated and is left free. (Log 103 DESIGN CHOICE.) -/
def State.mmioRead (s : State) (pa : Nat) : DWord :=
  let o := (pa - mmioBase) / 8 * 8
  if o < 0x10000 then BitVec.ofNat 64 (leNat ((List.range 8).map (fun i => Config.capability (o + i))))
  else if 0x100000 ≤ o ∧ o < 0x140000 then (if o % 0x1000 = 0 then Config.freeWord (s.freeCtr + o) else 0)
  else if o = 0x200000 then s.fe.members.setWidth 64
  else if 0x200008 ≤ o ∧ o < 0x210008 then Tbl.get s.fe.gateways ((o - 0x200008) / 8) 0
  else if o = 0x300000 then s.fe.fertimer
  else 0

/-- A doorbell write (R387): the first block of a host-fed queue that never processed one, else its last link is to be read
again; ignored for a device-fed or unbound queue. (Log 105 DESIGN CHOICE, 185 DEDUCED.) -/
def State.doorbell (s : State) (q : Nat) (v : DWord) : State :=
  let x := s.queue q
  if x.ctx.isNone || x.deviceFed then s
  else if x.via.isNone && x.held.isEmpty && (x.st == .parked || x.st == .run) then
    s.setQueue q { x with block := v, st := .run }
  else s.setQueue q { x with bell := true, st := if x.st = .parked then .run else x.st }

/-- Is a location a doorbell of the MMIO map (R386)? -/
def isDoorbell (l : Loc) : Bool :=
  match l with
  | .mem pa => decide (mmioBase + 0x100000 ≤ pa) && decide (pa < mmioBase + 0x140000)
  | _ => false

/-- FERTIMER takes 1,000 to 10,000,000 ns; other values are ignored (R386). -/
def State.setFertimer (s : State) (v : DWord) : State :=
  if 1000 ≤ v.toNat ∧ v.toNat ≤ 10000000 then { s with fe := { s.fe with fertimer := v } } else s

/-- Writes a 64-bit register of the MMIO map (R386). (Log 103 DESIGN CHOICE, 105 DESIGN CHOICE.) -/
def State.mmioWrite (s : State) (pa : Nat) (v : DWord) : State :=
  let o := (pa - mmioBase) / 8 * 8
  if 0x100000 ≤ o ∧ o < 0x140000 then (if o % 0x1000 = 0 then s.doorbell ((o - 0x100000) / 0x1000) v else s)
  else if o = 0x200000 then { s with fe := { s.fe with members := v.setWidth 32 } }
  else if 0x200008 ≤ o ∧ o < 0x210008 then
    { s with fe := { s.fe with gateways := Tbl.set s.fe.gateways ((o - 0x200008) / 8) v } }
  else if o = 0x300000 then s.setFertimer v
  else s

-- Bytes of a local place ----------------------------------------------------------------------------------------------

/-- A byte of a window or cellar location. -/
def State.cellByte (s : State) : Loc → Byte
  | .scratch g o => s.pad g o
  | .regw g k o => s.regByte g k o
  | .pt g o => s.ptByte g o
  | _ => 0

/-- Writes a byte of a window or cellar location. -/
def State.setCellByte (s : State) (l : Loc) (b : Byte) : State :=
  match l with
  | .scratch g o => s.setPad g o b
  | .regw g k o => s.setRegByte g k o b
  | .pt g o => s.setPtByte g o b
  | _ => s

/-- A byte at a physical address: HBM, a cellar through the on-chip map, an MMIO register (R23, R206). -/
def State.physByte (s : State) (pa : Nat) : Byte :=
  if inHbm pa then s.hbm pa
  else if inChip pa then (match s.chipLoc pa with | some l => s.cellByte l | none => s.spareByte pa)
  else if inMmio pa then BitVec.ofNat 8 ((s.mmioRead pa).toNat / 256 ^ (pa % 8))
  else 0

/-- Physical address of a location in memory. -/
def Loc.pa (l : Loc) : Nat := match l with | .mem pa | .peer _ pa => pa | _ => 0

/-- Is the location in local HBM? -/
def Loc.isHbm (l : Loc) : Bool := match l with | .mem pa => inHbm pa | _ => false

/-- Is the place peer memory? -/
def isPeer (l : Loc) : Bool := match l with | .peer .. => true | _ => false

/-- A location `n` bytes further. -/
def Loc.plus (l : Loc) (n : Nat) : Loc :=
  match l with
  | .mem pa => .mem (pa + n)
  | .scratch g o => .scratch g (o + n)
  | .regw g k o => .regw g k (o + n)
  | .pt g o => .pt g (o + n)
  | .peer d pa => .peer d (pa + n)
  | .decant c k o => .decant c k (o + n)

/-- Offset of a location in its sector. -/
def Loc.off (l : Loc) : Nat :=
  match l with
  | .mem pa | .peer _ pa => pa % 32
  | .scratch _ o | .regw _ _ o | .pt _ o | .decant _ _ o => o % 32

/-- First location of the sector (R219). -/
def Loc.sector (l : Loc) : Loc :=
  match l with
  | .mem pa => .mem (sectorOf pa)
  | .scratch g o => .scratch g (sectorOf o)
  | .regw g k o => .regw g k (sectorOf o)
  | .pt g o => .pt g (sectorOf o)
  | .peer d pa => .peer d (sectorOf pa)
  | .decant c k o => .decant c k (sectorOf o)

/-- Physical places that both name a cell: the cluster window of the own rank and the on-chip map name cells that other
addresses name too, so that two locations are compared as cells (R21). -/
def State.cellOf (s : State) (l : Loc) : Loc :=
  match l with
  | .mem pa => if inChip pa then (s.chipLoc pa).getD l else l
  | _ => l

/-- A read at the home that finds the line in no owner's hands allocates it for the reading context (R28). (Log 148 DEDUCED.) -/
def State.ownRead (s : State) (cid : BitVec 12) (pa : Nat) : State :=
  if inHbm pa && cid != 0 && !Tbl.has s.owners (blockOf pa) then { s with owners := s.owners ++ [(blockOf pa, cid)] } else s

/-- Reads of lines for a context (R28). (Log 148 DEDUCED.) -/
def State.ownLines (s : State) (cid : BitVec 12) (pas : List Nat) : State := pas.foldl (fun (t : State) a => t.ownRead cid a) s

/-- The entries that the walk of an engine's access reads, where the CU does not hold the leaf (R28, R209). -/
def State.ownWalk (s : State) (cu : Nat) (cid : BitVec 12) (va : DWord) : State :=
  let c := s.ctx cid
  if inWindow va || (s.cu cu).leaves.any (fun l => l.covers c.asid va) then s
  else s.ownLines cid (s.walkPath (va.toNat % 2 ^ 57) 4 c.root)

-- Leases (R80) --------------------------------------------------------------------------------------------------------

/-- Length of a lease class in ns (R80, R206). -/
def leaseLen (c : Nat) : Nat := 256 * 2 ^ c

/-- Grants a lease on a sector: its expiry; the largest is recorded with the guard of 32 ns (R80). -/
def State.grant (s : State) (pa len : Nat) : State × Nat :=
  let m := s.secMeta pa
  let e := s.sliceTime (homeOf pa) + len
  ({ s with sects := Tbl.set s.sects (sectorOf pa) { m with recExp := Nat.max m.recExp (e + 32) } }, e)

/-- The monitor's test of R236. -/
def MonCond.holds (c : MonCond) (x : DWord) : Bool :=
  let w := if c.size = 8 then 64 else 32
  let v := c.v.toNat % 2 ^ w
  let m := x.toNat % 2 ^ w
  let sg := fun (n : Nat) => if n < 2 ^ (w - 1) then (n : Int) else (n : Int) - 2 ^ w
  match c.op.toNat with
  | 0 => m == v
  | 1 => m != v
  | 2 => decide (v ≤ m)
  | 3 => decide (m < v)
  | 4 => decide (sg v ≤ sg m)
  | 5 => decide (sg m < sg v)
  | 6 => (m &&& v) != 0
  | 7 => (m &&& v) == 0
  | _ => false

/-- One action of an armed monitor: if the present value satisfies it, it captures the value and leaves its entry (R104). -/
def State.testMonitor (s : State) (id : Nat) : State :=
  match s.op id with
  | some o =>
    (match o.kind, o.parts with
     | .monitor c _, [p] =>
       (match p.loc with
        | .mem pa =>
          let x := leNat (s.hbmBytes pa c.size)
          if p.st = .todo ∧ c.holds (BitVec.ofNat 64 x) then
            let s1 := s.setOp { o with parts := [{ p with st := .bound, data := leBytes x c.size, wvt := (s.secMeta pa).wvt }] }
            { s1 with mons := s1.mons.filter (fun m => m.op ≠ id) }
          else s
        | _ => s)
     | _, _ => s)
  | none => s

/-- After a write performed at a home, every armed monitor on its bytes tests the new value (R104). -/
def State.testMonitors (s : State) (pa n : Nat) : State :=
  (s.mons.filter (·.armed)).foldl (fun (t : State) m =>
    match t.op m.op with
    | some o =>
      (match o.kind, o.parts with
       | .monitor c _, [p] =>
         (match p.loc with
          | .mem a => if a < pa + n ∧ pa < a + c.size then t.testMonitor m.op else t
          | _ => t)
       | _, _ => t)
    | none => t) s

/-- After a write performed at a home, every launch test armed on its bytes tests the new value (R110). -/
def State.testWatches (s : State) (pa n : Nat) : State :=
  { s with queues := s.queues.map (fun e =>
      match e.2.watch with
      | some (a, c) =>
        if a < pa + n ∧ pa < a + c.size ∧ c.holds (BitVec.ofNat 64 (leNat (s.hbmBytes a c.size))) then
          (e.1, { e.2 with watch := none, st := .hit, ot := Nat.max e.2.ot (s.secMeta a).wvt })
        else e
      | none => e) }

/-- Writes of runs of bytes inside one 128-byte block of HBM, performed at their homes for context `cid` as one write: data, owner
tag, guard tag, WVT, and then the monitors. Gives the largest GWCT (R28, R82, R104, R219, R320). -/
def State.writeRuns (s : State) (cid : BitVec 12) (pa : Nat) (rs : List (Nat × List Byte)) (tw : TagW) : State × Nat :=
  let secs := (List.range 4).map (fun i => blockOf pa + 32 * i)
  let hit := secs.filter (fun a => rs.any (fun r => decide (a < r.1 + r.2.length) && decide (r.1 < a + 32)))
  let lt := s.sliceTime (homeOf pa)
  let g := hit.foldl (fun n a => Nat.max n (Nat.max lt (s.secMeta a).recExp)) lt
  let s1 := rs.foldl (fun (t : State) r => t.putHbm r.1 r.2) s
  let tag := match tw with
    | .clear => 0
    | .stamp v va => mkTag v va (crc32c (s1.hbmBytes (blockOf pa) 128))
    | .carry t => t
  let s2 := { s1 with
    sects := hit.foldl (fun t a => Tbl.set t a { recExp := (s.secMeta a).recExp, wvt := Nat.max lt (s.secMeta a).recExp }) s1.sects
    owners := if cid = 0 then Tbl.del s1.owners (blockOf pa) else Tbl.set s1.owners (blockOf pa) cid
    guards := if tag = 0 then Tbl.del s1.guards (blockOf pa) else Tbl.set s1.guards (blockOf pa) tag }
  (rs.foldl (fun (t : State) r => (t.testMonitors r.1 r.2.length).testWatches r.1 r.2.length) s2, g)

/-- A write of consecutive bytes inside one 128-byte block of HBM. (Log 88 DEDUCED.) -/
def State.writeHbm (s : State) (cid : BitVec 12) (pa : Nat) (bs : List Byte) (tw : TagW) : State × Nat :=
  s.writeRuns cid pa [(pa, bs)] tw

/-- A write of consecutive bytes at any local location, performed where it lives. Gives its GWCT, 0 for a cell (R82, R88). -/
def State.writeLoc (s : State) (cid : BitVec 12) (l : Loc) (bs : List Byte) (tw : TagW) : State × Nat :=
  match l with
  | .mem pa =>
    if inHbm pa then s.writeHbm cid pa bs tw
    else if inChip pa then
      ((bs.foldl (fun (t : State × Nat) b =>
          (match t.1.chipLoc t.2 with | some c => t.1.setCellByte c b | none => t.1.setSpareByte t.2 b, t.2 + 1)) (s, pa)).1, 0)
    else if inMmio pa then
      ((List.range ((pa % 8 + bs.length + 7) / 8)).foldl (fun (t : State) k =>
        let r := pa / 8 * 8 + 8 * k
        let n := leNat ((List.range 8).map (fun i =>
          if pa ≤ r + i ∧ r + i < pa + bs.length then bs.getD (r + i - pa) 0
          else BitVec.ofNat 8 ((t.mmioRead r).toNat / 256 ^ i)))
        t.mmioWrite r (BitVec.ofNat 64 n)) s, 0)
    else (s, 0)
  | .peer .. | .decant .. => (s, 0)
  | _ => ((bs.foldl (fun (t : State × Loc) b => (t.1.setCellByte t.2 b, t.2.plus 1)) (s, l)).1, 0)

/-- The runs of consecutive bytes of a write given by offsets in a sector. -/
def runs (wr : List (Nat × Byte)) : List (Nat × List Byte) :=
  (List.range 32).foldr (fun i acc =>
    match (wr.reverse.find? (fun e => e.1 == i)) with
    | some (_, b) =>
      (match acc with
       | (j, bs) :: t => if j = i + 1 then (i, b :: bs) :: t else (i, [b]) :: acc
       | [] => [(i, [b])])
    | none => acc) []

/-- Performs a sector write given by offsets, in HBM as one write; a later entry of an offset wins, so the higher lane does
(R77, R219). -/
def State.writeSector (s : State) (cid : BitVec 12) (l : Loc) (wr : List (Nat × Byte)) : State × Nat :=
  if l.isHbm then (if wr.isEmpty then (s, 0) else s.writeRuns cid l.pa ((runs wr).map (fun r => (l.pa + r.1, r.2))) .clear)
  else (runs wr).foldl (fun (t : State × Nat) r =>
    let (s1, g) := t.1.writeLoc cid (l.plus r.1) r.2 .clear
    (s1, Nat.max t.2 g)) (s, 0)

-- Decant windows (R242) -----------------------------------------------------------------------------------------------

/-- A plain local read address for the decant logic: a readable leaf in local HBM, or nothing. -/
def State.decantPa (s : State) (c : Ctx) (va : DWord) : Option Nat :=
  if !canonical va || inWindow va || (c.decantAt va).isSome then none
  else match s.walk c va with
    | .leaf l =>
      (match checkLeaf c l va .read with
       | .at (.mem pa) _ => if inHbm pa then some pa else none
       | _ => none)
    | .fail _ => none

/-- A byte of a decant window with its error bits and WVT (R242). -/
def State.decantByte (s : State) (cid : BitVec 12) (k off : Nat) : Byte × Bool × Bool × Nat :=
  let c := s.ctx cid
  match c.decants.find? (fun e => e.1 == k) with
  | none => (0, false, false, 0)
  | some (_, d) =>
    let i := off / d.esize
    let b := off % d.esize
    if d.count ≤ i then (0, false, false, 0)
    else match s.decantPa c (d.idxbase + BitVec.ofNat 64 (4 * i)) with
      | none => (0, false, true, 0)
      | some pa =>
        let idx := leNat (s.hbmBytes pa 4)
        if 2 ^ 31 ≤ idx ∨ d.bound ≤ idx then (0, true, false, (s.secMeta pa).wvt)
        else match s.decantPa c (d.srcbase + BitVec.ofNat 64 (idx * d.esize)) with
          | none => (0, false, true, (s.secMeta pa).wvt)
          | some pb => (s.hbm (pb + b), false, false, Nat.max (s.secMeta pa).wvt (s.secMeta (pb + b)).wvt)

/-- Does a byte of a decant window come from a poisoned line, or is it named by an index in one (R242, R388)? -/
def State.decantPoisoned (s : State) (cid : BitVec 12) (k off : Nat) : Bool :=
  let c := s.ctx cid
  match c.decants.find? (fun e => e.1 == k) with
  | none => false
  | some (_, d) =>
    let i := off / d.esize
    if d.count ≤ i then false
    else match s.decantPa c (d.idxbase + BitVec.ofNat 64 (4 * i)) with
      | none => false
      | some pa =>
        let idx := leNat (s.hbmBytes pa 4)
        s.poisoned pa || (!(decide (2 ^ 31 ≤ idx) || decide (d.bound ≤ idx)) &&
          (match s.decantPa c (d.srcbase + BitVec.ofNat 64 (idx * d.esize)) with
           | some pb => s.poisoned (pb + off % d.esize)
           | none => false))

/-- Must a read of `n` bytes at a local location wait for the scrubber (R242, R388)? (Log 137 DESIGN CHOICE.) -/
def State.mustScrub (s : State) (l : Loc) (n : Nat) : Bool :=
  match l with
  | .decant c k off => (List.range n).any (fun i => s.decantPoisoned c k (off + i))
  | l => (List.range (n / 32 + 1)).any (fun i => s.locPoisoned (l.plus (Nat.min (32 * i) (n - 1))))

/-- Reads `n` bytes of a decant window and accumulates its error bits (R242, R243). -/
def State.decantRead (s : State) (cid : BitVec 12) (k off n : Nat) : State × List Byte × Nat :=
  let bs := (List.range n).map (fun i => s.decantByte cid k (off + i))
  let c := s.ctx cid
  let c' := { c with decants := c.decants.map (fun e => if e.1 = k then
      (e.1, { e.2 with errIndex := e.2.errIndex || bs.any (·.2.1), errXlate := e.2.errXlate || bs.any (·.2.2.1) }) else e) }
  (s.setCtx cid c', bs.map (·.1), (bs.map (·.2.2.2)).foldl Nat.max 0)

/-- The sectors of `n` bytes of physical memory. -/
def sectorsOf (pa n : Nat) : List Nat := (List.range ((pa % 32 + n + 31) / 32)).map (fun i => sectorOf pa + 32 * i)

/-- The largest WVT of the sectors of `n` bytes of HBM (R85). (Log 159 DESIGN CHOICE.) -/
def State.spanWvt (s : State) (pa n : Nat) : Nat := (sectorsOf pa n).foldl (fun w x => Nat.max w (s.secMeta x).wvt) 0

/-- Reads `n` bytes at a local location with the largest WVT of their sectors (R85, R242). -/
def State.readLoc (s : State) (l : Loc) (n : Nat) : State × List Byte × Nat :=
  match l with
  | .mem pa => (s, (List.range n).map (fun i => s.physByte (pa + i)), if inHbm pa then s.spanWvt pa n else 0)
  | .decant c k off => s.decantRead c k off n
  | .peer .. => (s, List.replicate n 0, 0)
  | _ => (s, (List.range n).map (fun i => s.cellByte (l.plus i)), 0)

-- L1 and the rack -----------------------------------------------------------------------------------------------------

/-- The L1 copy of a sector whose lease holds (R81). -/
def State.l1Hit (s : State) (cu pa : Nat) : Option L1Sec :=
  (s.cu cu).l1.find? (fun x => x.pa == sectorOf pa && decide (s.lease cu < x.expiry))

/-- Reads `n` bytes at a local location for a context, which takes the lines that no context holds (R28). -/
def State.readAs (s : State) (cid : BitVec 12) (l : Loc) (n : Nat) : State × List Byte × Nat :=
  match l with
  | .mem pa => ((s.ownRead cid pa).ownRead cid (pa + n - 1)).readLoc l n
  | _ => s.readLoc l n

/-- Removes a CU's L1 copy of a sector (R81, R82). -/
def State.l1Drop (s : State) (cu pa : Nat) : State :=
  let u := s.cu cu
  s.setCu cu { u with l1 := u.l1.filter (fun x => x.pa ≠ sectorOf pa) }

/-- Replaces bytes of a sector by a write given by offsets. -/
def patch (data : List Byte) (wr : List (Nat × Byte)) : List Byte :=
  wr.foldl (fun d e => d.set e.1 e.2) data

/-- A store updates its CU's L1 copy, if present, and leaves its lease (R82). -/
def State.l1Store (s : State) (cu pa : Nat) (wr : List (Nat × Byte)) : State :=
  let u := s.cu cu
  s.setCu cu { u with l1 := u.l1.map (fun x => if x.pa = sectorOf pa then { x with data := patch x.data wr } else x) }

/-- The first 128-byte frame of a CU's L1 banks at which no line stands (R218). -/
def State.l1Frame (s : State) (cu : Nat) : Option Nat :=
  let l1 := (s.cu cu).l1
  (List.range (bankCap (cu % 16) (cu / 16))).findSome? (fun b =>
    if (s.bankHolder cu b).isSome then none
    else (List.range 256).findSome? (fun i => if l1.any (fun x => x.place == b * 32768 + i * 128) then none else some (b * 32768 + i * 128)))

/-- Where the line of a sector stands in a CU's L1: where it is, at the first free frame, or in place of the line filled longest
ago (R218). -/
def State.l1Place (s : State) (cu pa : Nat) : Nat :=
  let l1 := (s.cu cu).l1
  match l1.find? (fun x => x.pa / 128 == pa / 128) with
  | some x => x.place
  | none => match s.l1Frame cu with
    | some p => p
    | none => match l1.getLast? with | some x => x.place | none => 0

/-- A fill takes its place in L1, with the owner tag of the filling access (R28, R80, R218, R221).
(Log 52 DESIGN CHOICE, 145 DESIGN CHOICE, 153 DESIGN CHOICE.) -/
def State.l1Fill (s : State) (cu : Nat) (x : L1Sec) : State :=
  let u := s.cu cu
  let at' := chipBase + cu * 0x400000 + x.place + x.pa % 128
  { s.setCu cu { u with l1 := x :: u.l1.filter (fun y => y.pa ≠ x.pa && (y.place ≠ x.place || y.pa / 128 == x.pa / 128)) } with
    slack := s.slack.filter (fun e => !(decide (at' ≤ e.1) && decide (e.1 < at' + 32)))
    left := s.left.map (fun y => if y.wg.cu = cu ∧ y.wg.banks.contains (x.place / 32768) then
      { y with filled := chipOff at' :: y.filled } else y) }

/-- A write that an agent of a CU sends to its home removes the CU's rack copy of the sector (R304). (Log 88 DEDUCED.) -/
def State.rackDrop (s : State) (cu pa : Nat) : State :=
  let u := s.cu cu
  s.setCu cu { u with rack := u.rack.filter (fun x => x.pa ≠ sectorOf pa) }

/-- A write by an engine of a CU: performed at its home; the CU's L1 and rack copies of its sectors go (R82, R304, R316). -/
def State.engineWrite (s : State) (cu : Nat) (cid : BitVec 12) (l : Loc) (bs : List Byte) (tw : TagW) : State × Nat :=
  let s1 := match l with
    | .mem pa => (sectorsOf pa bs.length).foldl (fun (t : State) x => (t.l1Drop cu x).rackDrop cu x) s
    | _ => s
  s1.writeLoc cid l bs tw

end Sys2Proof.Machine
end

