-- ==== Sys2Proof/Machine/Lse.lean ====
section
/-!
DEFINITION. The load-store engine: addresses, loads, stores, whole registers, cluster stores, prefetches, monitors, decant
windows, fences (R86-R89, R217-R246), and the hardware steps that perform their sector requests.
-/
namespace Sys2Proof.Machine

-- Packets of remote accesses (R342-R345, R350) ------------------------------------------------------------------------

/-- A packet of this device with every field zero. -/
def State.blankPkt (s : State) (dst : BitVec 16) (ty : BitVec 8) (tc : BitVec 2) (ctx : BitVec 12) : Packet :=
  { dst := dst, src := s.fe.devid, ty := ty, tc := tc, route := 0, val := false, dup := false, seq := 0, mid := 0,
    viam := 0, sctx := ctx, len := 0, addr := 0, aux := 0, tag := 0, rsv := 0, payload := [], trailer := [] }

/-- Makes a sequenced packet, which waits to be sent and takes its number then (R345). Its tag is the model's number of the
packet, but a message carries its own. -/
def State.newTx (s : State) (p : Packet) (op part : Nat) : State :=
  let t : TxPkt :=
    { id := s.nextId, pkt := if p.ty = 8 then p else { p with tag := BitVec.ofNat 32 s.nextId }, st := .waiting,
      deadline := 0, backoff := 1, replayed := false, op := op, part := part, got := [] }
  { s with nextId := s.nextId + 1, fe := { s.fe with tx := s.fe.tx ++ [t] } }

-- Addresses and sector requests ---------------------------------------------------------------------------------------

/-- The lane offsets of R223: sign-extended I32, zero-extended U32, an I64 pair; for another tag the fault. -/
def State.laneOffs (s : State) (a : Nat) : Except (BitVec 8 × Nat) (Nat → DWord) :=
  let v := s.vwin a
  let t := s.vtagOf a
  if t = 1 then .ok (fun l => (v.lane l).signExtend 64)
  else if t = 2 then .ok (fun l => (v.lane l).setWidth 64)
  else if t = 0xE ∧ a % 2 = 0 then
    (if s.vtagOf (a + 1) = 0xF then
      let h := s.vwin (a + 1)
      .ok (fun l => (h.lane l) ++ (v.lane l))
     else .error (0x10, tagDetail 1 true (s.vtagOf (a + 1))))
  else .error (0x10, tagDetail 1 false t)

/-- The active lanes of the running fibre. -/
def State.active (s : State) : List Nat := lanesOf (s.me.mask &&& fullMask s.width)

/-- The address of each active lane: s[SB] + offset + LIMM (R223). -/
def State.laneAddrs (s : State) (off : Nat → DWord) (b : Nat) : List (Nat × DWord) :=
  s.active.map (fun l => (l, s.sreg b + off l + s.limmDisp))

/-- The virtual address of a physical one under the leaf that gave it. -/
def vaUnder (l : Option TLeaf) (pa : Nat) : DWord :=
  match l with
  | some t => BitVec.ofNat 64 (t.base + (pa - t.frame))
  | none => 0

/-- May the sector be held in caches: in HBM, neither UNCACHED nor MMIO (R81, R208)? (Log 177 DESIGN CHOICE.) -/
def cacheable (l : Loc) (t : Option TLeaf) : Bool :=
  l.isHbm && (match t with | some e => !(e.pte.getLsbD 9 || e.pte.getLsbD 10) | none => true)

/-- The lease bound of an access: the page's class or the smaller LEASE request; none for no lease (R45, R80, R81). -/
def leaseBound (m : Word) (t : Option TLeaf) : Option Nat :=
  let c := match t with | some e => leaseLen (fld e.pte 56 3) | none => 256
  match mLEASE m with
  | 0 => some c
  | 6 => none
  | n => some (Nat.min c (leaseLen (n - 1)))

/-- A sector request with no lane yet. -/
def mkPart (m : Word) (l : Loc) (t : Option TLeaf) : Part :=
  { loc := l.sector, va := vaUnder t l.sector.pa, lanes := [], alt := [], wr := [], data := [], st := .todo, wvt := 0, gwct := 0,
    lease := if cacheable l t then leaseBound m t else none,
    alloc := cacheable l t && mLEASE m != 6 && mCACHE m != 1 && mCACHE m != 3,
    expiry := 0, writable := match t with | some e => e.pte.getLsbD 3 | none => true,
    uncached := !(cacheable l t), joined := false, flags := 0, fault := none }

/-- May the page of a leaf be written; a window may. -/
def leafWrites (t : Option TLeaf) : Bool := match t with | some e => e.pte.getLsbD 3 | none => true

/-- Adds a lane's access to the request of its sector, or makes one (R219). Sectors are compared as cells, so that two addresses of one
cell make one request (R77); at a peer the lanes of one packet share the page's permission. -/
def State.addLane (s : State) (m : Word) (ps : List Part) (e : Nat × Loc × Option TLeaf) : List Part :=
  let l := e.2.1
  let va := vaUnder e.2.2 l.sector.pa
  let w := leafWrites e.2.2
  match ps.findIdx? (fun p => s.cellOf p.loc == s.cellOf l.sector && (!isPeer l || p.writable == w)) with
  | some k => ps.modify k (fun p => { p with
      lanes := p.lanes ++ [(e.1, l.off)]
      alt := if p.va = va ∧ p.writable = w then p.alt
        else p.alt ++ [(e.1, va, w, match e.2.2 with | some t => t.level | none => 0)] })
  | none => ps ++ [{ mkPart m l e.2.2 with lanes := [(e.1, l.off)] }]

/-- The sector requests of the lanes of a unit (R219). -/
def State.sectorParts (s : State) (m : Word) (ls : List (Nat × Loc × Option TLeaf)) : List Part := ls.foldl (s.addLane m) []

/-- The sector's virtual address, whether its page is writable, and the page's level, as a lane reaches it. -/
def Part.seenBy (p : Part) (level l : Nat) : DWord × Bool × Nat := Tbl.get p.alt l (p.va, p.writable, level)

/-- Holds the request of a load a sector-miss entry while its data is awaited (R220)? A load of peer memory holds none. -/
def Part.holdsMiss (p : Part) : Bool :=
  !p.joined && p.st != .done && (match p.loc with | .mem _ | .decant .. => true | _ => false)

/-- Holds the request of a store a write-through entry until its reply (R220)? -/
def Part.holdsWrite (p : Part) : Bool := p.st != .done && (match p.loc with | .mem _ => true | _ => false)

/-- Holds the request of an atomic, to local or to peer memory, an entry until its reply (R251, R255)? -/
def Part.holdsAtomic (p : Part) : Bool := p.st != .done && (match p.loc with | .mem _ | .peer .. => true | _ => false)

/-- Sector-miss entries in use in a CU (R220, R251). -/
def State.missUsed (s : State) (cu : Nat) : Nat :=
  (s.ops.map (fun o => if o.cu = cu then (match o.kind with
    | .load .. => (o.parts.filter Part.holdsMiss).length
    | .atomic _ true _ | .cas .. | .acust .. => (o.parts.filter Part.holdsAtomic).length
    | _ => 0) else 0)).sum

/-- Write-through entries in use in a CU (R220, R255). -/
def State.writeUsed (s : State) (cu : Nat) : Nat :=
  (s.ops.map (fun o => if o.cu = cu then (match o.kind with
    | .store => (o.parts.filter Part.holdsWrite).length
    | .atomic _ false _ => (o.parts.filter Part.holdsAtomic).length
    | _ => 0) else 0)).sum

/-- Has a fibre an access to a sector whose value is not yet bound: a load, or an atomic before it is performed (R84)? -/
def State.unread (s : State) (fid : Nat) (l : Loc) : Bool :=
  s.ops.any (fun o => Tbl.has o.holders fid && (match o.kind with
    | .load .none => false
    | .load _ => o.parts.any (fun q => q.st == .todo && q.loc == l)
    | .atomic .. | .cas .. | .acust .. => o.parts.any (fun q => (q.st == .todo || q.st == .sent) && q.loc == l)
    | _ => false))

/-- The entry that a request of a CU for a sector may join: a leased load's whose data has not arrived (R220). -/
def State.missEntry (s : State) (cu : Nat) (l : Loc) : Bool :=
  s.ops.any (fun o => o.cu == cu && (match o.kind with | .load .. => true | _ => false) &&
    o.parts.any (fun q => q.loc == l && q.holdsMiss && q.lease.isSome))

/-- The copy of a read-only peer sector in the local L2 that a context reads through a page: its data and its wait (R100). -/
def State.peerCopy (s : State) (cid : BitVec 12) (p : Part) : Option (List Byte × Nat) :=
  match p.loc with
  | .peer d pa =>
    if p.writable then none
    else (s.peerL2.find? (fun x => x.ctx == cid && x.va == BitVec.ofNat 64 (blockOf p.va.toNat) && x.dev == d && x.pa == blockOf pa)).map
      (fun x => ((x.data.drop (pa % 128)).take 32, x.wvt))
  | _ => none

/-- Looks the load requests up in L1 and, for a read-only peer page, in the local L2 (R81, R100, R219, R222): a hit is bound to the
copy's data and holds no entry; a request for a sector that has an entry joins it. A fibre whose earlier access to the sector is
not bound yet follows it (R84). -/
def State.lookup (s : State) (cu : Nat) (p : Part) : Part :=
  match p.loc with
  | .mem pa =>
    if p.uncached || p.lease.isNone then p
    else match (if s.unread s.me.fid p.loc then none else s.l1Hit cu pa) with
      | some x => { p with st := .bound, data := x.data, wvt := x.wvt, joined := true, alloc := false }
      | none => { p with joined := s.missEntry cu p.loc }
  | .peer .. =>
    (match s.peerCopy s.myWg.ctx p with
     | some (d, w) => { p with st := .bound, data := d, wvt := w }
     | none => p)
  | _ => p

/-- The packets of a load's requests to peers: one READ for each that no copy serves (R100, R350). (Log 53 DEDUCED.) -/
def State.readPackets (s : State) (id : Nat) (cid : BitVec 12) (ps : List Part) : State :=
  (ps.zipIdx.foldl (fun (t : State) e =>
    match e.1.loc with
    | .peer d pa =>
      if e.1.st ≠ .todo then t
      else
        let p := t.blankPkt d 1 0 cid
        let ro := !e.1.writable
        t.newTx { p with addr := BitVec.ofNat 40 (if ro then blockOf pa else pa), aux := if ro then 3 else 0 } id e.2
    | _ => t) s)

/-- Issues a load whose lanes are checked: requests, entries, the tags it sets at issue (R220, R226). -/
def State.issueLoad (s : State) (dst : LoadDst) (flag : Option Nat) (ls : List (Nat × Loc × Option TLeaf))
    (c : Scope) (tags : State → State) : State :=
  let cu := s.myWg.cu
  let parts := (s.sectorParts s.hint ls).map (s.lookup cu)
  let need := (parts.filter Part.holdsMiss).length
  if decide (4096 < s.missUsed cu + need) then s.waitHere
  else
    let remote := parts.any (fun p => match p.loc with | .peer .. => true | _ => false)
    let vec := match dst with | .vec .. => true | _ => false
    let o := { s.newOp (.load dst) flag s.me.mask clsR (if remote then s.scopeOr .system else c) with
      parts := parts, st := .running, split := remote && vec && s.me.fsplit.getLsbD 0 }
    let hits := (parts.filter (fun p => p.st == .bound && p.loc.isHbm)).length
    s.emitWith o (fun t =>
      (((tags t).countEv cu 6 hits (some s.myWg.ctx)).countEv cu 7 need (some s.myWg.ctx)).readPackets o.id o.ctx parts)

/-- Puts the bytes each lane stores into the requests of its sector, lower lanes first (R77, R228). -/
def withBytes (ps : List Part) (bytes : Nat → List Byte) : List Part :=
  ps.map (fun p => { p with wr := (p.lanes.map (fun e => (bytes e.1).zipIdx.map (fun b => (e.2 + b.2, b.1)))).flatten })

/-- The WRITE packets of a store's requests to peers (R350). -/
def State.writePackets (s : State) (id : Nat) (cid : BitVec 12) (ps : List Part) : State :=
  (ps.zipIdx.foldl (fun (t : State) e =>
    match e.1.loc with
    | .peer d pa =>
      let data := patch (List.replicate 32 (0 : Byte)) e.1.wr
      let mask := (List.range 32).foldl (fun (n : Nat) i => if e.1.wr.any (fun w => w.1 == i) then n + 2 ^ i else n) 0
      t.newTx { t.blankPkt d 2 0 cid with addr := BitVec.ofNat 40 pa, aux := BitVec.ofNat 32 mask, len := 32, payload := data }
        id e.2
    | _ => t) s)

/-- What a store does when it issues: its CU's L1 copy is updated, or removed under `.nl1`; the rack copy goes (R82, R222,
R304). -/
def State.storeIssue (s : State) (cu : Nat) (m : Word) (ps : List Part) : State :=
  ps.foldl (fun (t : State) p =>
    match p.loc with
    | .mem pa =>
      if inHbm pa then
        let t1 := if mCACHE m == 1 || mCACHE m == 3 || p.uncached then t.l1Drop cu pa else t.l1Store cu pa p.wr
        t1.rackDrop cu pa
      else t
    | _ => t) s

/-- Issues a store whose requests carry their bytes (R220, R228). -/
def State.issueStore (s : State) (flag : Option Nat) (parts : List Part) (d : Scope) : State :=
  let cu := s.myWg.cu
  if decide (1024 < s.writeUsed cu + (parts.filter Part.holdsWrite).length) then s.waitHere
  else
    let remote := parts.any (fun p => match p.loc with | .peer .. => true | _ => false)
    let o := { s.newOp .store flag s.me.mask clsW (s.scopeOr (if remote then .system else d)) with
      parts := parts, st := .running }
    s.emitWith o (fun t => (t.storeIssue cu s.hint parts).writePackets o.id o.ctx parts)

/-- Ends a unit with the fault or the walks that the lane checks decided. -/
def State.lanesElse (s : State) (r : Lanes) (k : List (Nat × Loc × Option TLeaf) → State) : State :=
  match r with
  | .fault c d a ls l => (s.takeAt c d a ls (some l)).dropWalks
  | .miss vas => (s.joinWalks vas).waitHere
  | .ok ls => k ls

-- Vector loads and stores ---------------------------------------------------------------------------------------------

/-- Sets the tags of a load's destination registers at issue, bits and inactive lanes kept (R226). -/
def State.setTags (s : State) (d : Nat) (tags : List Tag) : State :=
  (tags.zipIdx.foldl (fun (t : State) e =>
    let v := t.vreg t.actor.wg t.actor.slot (t.me.base.toNat + d + e.2)
    t.setWin (d + e.2) { v with tag := e.1 }) s)

/-- A vector load of `n` bytes per lane; `ext` is the LD.N form plus one (R225, R226). -/
def State.vload (s : State) (d a b : Nat) (n ext : Nat) (tags : List Tag) (f : BitVec 1) : State :=
  match s.laneOffs a with
  | .error (c, det) => s.take c det
  | .ok off =>
    s.lanesElse (s.checkLanes n (s.laneAddrs off b) (fun va => s.accessMe va .read)) (fun ls =>
      s.issueLoad (.vec (s.me.base.toNat + d) n ext) (s.flagSel f) ls .fibre (fun t => t.setTags d tags))

/-- `LD.32` (R226). -/
def execLd32 (d a : VReg) (b : SReg) (t : Tag) (f : BitVec 1) (s : State) : Host.Outcome State Fault Refusal :=
  issue (.ld32 d a b t f) s (fun s => s.vload d.toNat a.toNat b.toNat 4 0 [t] f)

/-- `LD.64`: for tag 0xE the pair is tagged 0xE and 0xF (R225). -/
def execLd64 (d a : VReg) (b : SReg) (t : Tag) (f : BitVec 1) (s : State) : Host.Outcome State Fault Refusal :=
  issue (.ld64 d a b t f) s (fun s => s.vload d.toNat a.toNat b.toNat 8 0 (if t = 0xE then [0xE, 0xF] else [t, t]) f)

/-- `LD.128` (R226). -/
def execLd128 (d a : VReg) (b : SReg) (t : Tag) (f : BitVec 1) (s : State) : Host.Outcome State Fault Refusal :=
  issue (.ld128 d a b t f) s (fun s => s.vload d.toNat a.toNat b.toNat 16 0 [t, t, t, t] f)

/-- `LD.N`: forms S8, Z8, S16, Z16, F16, BF16 with tags I32, U32, I32, U32, F32, F32 (R225). -/
def execLdN (d a : VReg) (b : SReg) (n : BitVec 3) (f : BitVec 1) (s : State) : Host.Outcome State Fault Refusal :=
  issue (.ldN d a b n f) s (fun s =>
    s.vload d.toNat a.toNat b.toNat (if n.toNat < 2 then 1 else 2) (n.toNat + 1)
      [match n.toNat with | 0 => 1 | 1 => 2 | 2 => 1 | 3 => 2 | _ => 3] f)

/-- The bytes a lane stores from registers `r`, `r + 1`, …: `n` bytes, low register first (R228). -/
def State.laneBytes (s : State) (r n l : Nat) : List Byte :=
  ((List.range ((n + 3) / 4)).map (fun i => leBytes ((s.vwin (r + i)).lane l).toNat (Nat.min 4 (n - 4 * i)))).flatten

/-- The first INVALID data register of a store (R228): its place. -/
def State.invalidData (s : State) (r k : Nat) : Option Nat := (List.range k).find? (fun i => s.vtagOf (r + i) == 0)

/-- A vector store of `n` bytes per lane (R227, R228). (Log 179 DESIGN CHOICE.) -/
def State.vstore (s : State) (d a b : Nat) (n : Nat) (f : BitVec 1) : State :=
  match s.laneOffs a, s.invalidData d ((n + 3) / 4) with
  | _, some _ => s.take 0x10 (tagDetail 0 false 0)
  | .error (c, det), none => s.take c det
  | .ok off, none =>
    s.lanesElse (s.checkLanes n (s.laneAddrs off b) (fun va => s.accessMe va .write)) (fun ls =>
      s.issueStore (s.flagSel f) (withBytes (s.sectorParts s.hint ls) (s.laneBytes d n)) .workgroup)

/-- `ST.32` (R228). -/
def execSt32 (d a : VReg) (b : SReg) (f : BitVec 1) (s : State) : Host.Outcome State Fault Refusal :=
  issue (.st32 d a b f) s (fun s => s.vstore d.toNat a.toNat b.toNat 4 f)

/-- `ST.64` (R228). -/
def execSt64 (d a : VReg) (b : SReg) (f : BitVec 1) (s : State) : Host.Outcome State Fault Refusal :=
  issue (.st64 d a b f) s (fun s => s.vstore d.toNat a.toNat b.toNat 8 f)

/-- `ST.128` (R228). -/
def execSt128 (d a : VReg) (b : SReg) (f : BitVec 1) (s : State) : Host.Outcome State Fault Refusal :=
  issue (.st128 d a b f) s (fun s => s.vstore d.toNat a.toNat b.toNat 16 f)

/-- `ST.N`: 8 or 16 bits of each lane (R228). -/
def execStN (d a : VReg) (b : SReg) (n f : BitVec 1) (s : State) : Host.Outcome State Fault Refusal :=
  issue (.stN d a b n f) s (fun s => s.vstore d.toNat a.toNat b.toNat (if n = 0 then 1 else 2) f)

/-- The address of a scalar access: s[SB] plus the displacement, or plus the LIMM word (R229). -/
def State.scalAddr (s : State) (b : SReg) (i : BitVec 8) : DWord :=
  s.sreg b.toNat + (match s.me.hLimm with | some w => sext32 w | none => i.signExtend 64)

/-- `LDS` (R229). -/
def execLds (d b : SReg) (n : BitVec 3) (f : BitVec 1) (i : BitVec 8) (s : State) : Host.Outcome State Fault Refusal :=
  issue (.lds d b n f i) s (fun s =>
    let sz := match n.toNat with | 0 | 1 => 1 | 2 | 3 => 2 | 4 | 5 => 4 | _ => 8
    s.lanesElse (s.checkLanes sz [(0, s.scalAddr b i)] (fun va => s.accessMe va .read)) (fun ls =>
      s.issueLoad (.scal d.toNat sz (n.toNat % 2 == 0)) (s.flagSel f) ls .fibre id))

/-- `STS` (R229). -/
def execSts (d b : SReg) (n : BitVec 2) (f : BitVec 1) (i : BitVec 8) (s : State) : Host.Outcome State Fault Refusal :=
  issue (.sts d b n f i) s (fun s =>
    let sz := 2 ^ n.toNat
    s.lanesElse (s.checkLanes sz [(0, s.scalAddr b i)] (fun va => s.accessMe va .write)) (fun ls =>
      s.issueStore (s.flagSel f) (withBytes (s.sectorParts s.hint ls) (fun _ => leBytes (s.sreg d.toNat).toNat sz)) .workgroup))

/-- `LDB`: one word into every active lane (R230). -/
def execLdb (d : VReg) (b : SReg) (t : Tag) (f : BitVec 1) (s : State) : Host.Outcome State Fault Refusal :=
  issue (.ldb d b t f) s (fun s =>
    s.lanesElse (s.checkLanes 4 [(0, s.sreg b.toNat + s.limmDisp)] (fun va => s.accessMe va .read)) (fun ls =>
      s.issueLoad (.bcast (s.me.base.toNat + d.toNat)) (s.flagSel f) ls .fibre (fun u => u.setTags d.toNat [t])))

/-- What a `PREF` asks for at one place: a sector into L1 with a lease, or only into the home slice, which allocates the line there
(R28, R231). A place that is no cacheable local memory, a sector that needs no fill, and a request beyond the free sector-miss
entries are dropped. -/
def State.prefetch (s : State) (m : Word) (l2 : Bool) (l : Loc) (t : Option TLeaf) : State :=
  let cu := s.myWg.cu
  if !cacheable l t then s
  else if l2 then s.ownRead s.myWg.ctx l.pa
  else
    let p := s.lookup cu { mkPart m l t with lanes := [(0, l.off)] }
    if p.st == .todo && p.alloc && !p.joined && decide (s.missUsed cu < 4096) then
      s.addOp { s.newOp (.load .none) none 0 0 .fibre with parts := [p], st := .running }
    else s

/-- A `PREF` lane whose translation is not cached asks for its sector after the walk (R209, R231). -/
def State.prefLater (s : State) (m : Word) (l2 : Bool) (va : DWord) : State :=
  let cu := s.myWg.cu
  let u := s.cu cu
  let page := va &&& ~~~ 0xFFF#64
  let asid := s.myCtx.asid
  let e : PrefReq := { who := s.actor, fid := s.me.fid, va := va, hint := m, l2 := l2 }
  if u.coal.any (fun c => c.asid == asid && c.page == page && c.fail.isNone) then
    s.setCu cu { u with coal := u.coal.map (fun c =>
      if c.asid == asid && c.page == page && c.fail.isNone then { c with prefs := c.prefs ++ [e] } else c) }
  else if decide (256 ≤ u.coal.length) then s
  else s.setCu cu { u with coal := u.coal ++ [{ asid := asid, page := page, waiters := [], prefs := [e], fail := none }] }

/-- `PREF` (R231): `n` = 0 asks for sectors into L1 with a lease, `n` = 1 into the home slice only. Lanes that fail a check are
dropped; it never faults. -/
def execPref (a : VReg) (b : SReg) (n : BitVec 1) (s : State) : Host.Outcome State Fault Refusal :=
  issue (.pref a b n) s (fun s =>
    match s.laneOffs a.toNat with
    | .error _ => s.retire
    | .ok off =>
      let lanes := (s.laneAddrs off b.toNat).filter (fun e => e.2.toNat % 4 == 0)
      let m := s.hint
      (lanes.foldl (fun (t : State) e =>
        match t.accessMe e.2 .read with
        | .at l u => t.prefetch m (n == 1) l u
        | .miss => t.prefLater m (n == 1) e.2
        | .fail .. => t) s).retire)

-- Whole registers (R232, R233) ----------------------------------------------------------------------------------------

/-- The register a register-window address names: slot and register number; or the fault (R232). -/
def State.windowReg (s : State) (va : DWord) : Except (BitVec 8 × Nat) (Nat × Nat) :=
  let w := s.myWg
  let o := va.toNat % 2 ^ 48
  let k := o / 0x100000
  let r := o % 0x100000
  if va.toNat / 2 ^ 48 ≠ 0xE2 ∨ w.nslots ≤ k ∨ w.slotBytes ≤ r then .error (0x20, xDetail 1 0)
  else if r % (w.warp * 4) ≠ 0 then .error (0x22, 0)
  else .ok (k, r / (w.warp * 4))

/-- A request for a whole register: its location; the data carries the tag byte and then the lanes. -/
def regPart (wg k off : Nat) (data : List Byte) : Part :=
  { mkPart 0 (.regw wg k off) none with loc := .regw wg k off, data := data }

/-- `LDW` (R233). -/
def execLdw (d : VReg) (b : SReg) (f : BitVec 1) (s : State) : Host.Outcome State Fault Refusal :=
  issue (.ldw d b f) s (fun s =>
    let va := s.sreg b.toNat + s.limmDisp
    match s.windowReg va with
    | .error (c, det) => s.takeAt c det va 0 none
    | .ok (k, n) =>
      if (s.pendingV s.actor n &&& s.me.mask) ≠ 0 ∧ k = s.actor.slot then s.waitHere
      else
        let o := { s.newOp (.load (.reg (s.me.base.toNat + d.toNat))) (s.flagSel f) s.me.mask clsR .fibre with
          parts := [regPart s.actor.wg k (n * s.width * 4) []], st := .running }
        s.emit o)

/-- The bytes of a register: its tag, then its lanes. -/
def VVal.bytes (v : VVal) (w : Nat) : List Byte :=
  v.tag.setWidth 8 :: ((List.range w).map (fun l => leBytes (v.lane l).toNat 4)).flatten

/-- A register from its bytes. -/
def VVal.ofBytes (bs : List Byte) (w : Nat) : VVal :=
  { tag := (bs.headD 0).setWidth 4,
    lanes := (List.range w).map (fun l => BitVec.ofNat 32 (leNat ((bs.drop (1 + 4 * l)).take 4))) }

/-- `STW` (R233). -/
def execStw (d : VReg) (b : SReg) (f : BitVec 1) (s : State) : Host.Outcome State Fault Refusal :=
  issue (.stw d b f) s (fun s =>
    let va := s.sreg b.toNat + s.limmDisp
    match s.windowReg va with
    | .error (c, det) => s.takeAt c det va 0 none
    | .ok (k, n) =>
      if s.vtagOf d.toNat = 0 then s.take 0x10 (tagDetail 0 false 0)
      else if (s.pendingV s.actor n &&& s.me.mask) ≠ 0 ∧ k = s.actor.slot then s.waitHere
      else
        let o := { s.newOp .store (s.flagSel f) s.me.mask clsW (s.scopeOr .workgroup) with
          parts := [regPart s.actor.wg k (n * s.width * 4) ({ s.vwin d.toNat with tag := s.vtagOf d.toNat }.bytes s.width)],
          st := .running }
        s.emit o)

-- Cluster stores (R234, R235) -----------------------------------------------------------------------------------------

/-- `CLST` (R235). (Log 178 DESIGN CHOICE.) -/
def execClst (d a : VReg) (b : SReg) (n : BitVec 2) (f : BitVec 1) (s : State) : Host.Outcome State Fault Refusal :=
  issue (.clst d a b n f) s (fun s =>
    match s.laneOffs a.toNat with
    | .error (c, det) => s.take c det
    | .ok off =>
      let w := s.myWg
      let c := s.cluster w.cluster
      let tgt := s.sreg b.toNat
      let sz := 4 * 2 ^ n.toNat
      let os := s.active.map (fun l => (l, (BitVec.ofNat 64 (fld tgt 0 21) + off l + s.limmDisp).toNat))
      let ranks := (List.range 16).filter (fun r => tgt.getLsbD (32 + r))
      match os.filter (fun e => e.2 % sz != 0) with
      | (l, o) :: t => s.takeAt 0x22 0 (BitVec.ofNat 64 o) (maskOf (l :: t.map (·.1))) (some l)
      | [] =>
        let overs := os.filter (fun e => decide (w.ssize < e.2 + sz))
        if fld tgt 48 16 ≠ 0 ∨ fld tgt 21 11 ≠ 0 ∨ ranks.isEmpty ∨ ranks.any (fun r => decide (c.cw * c.ch ≤ r)) then
          s.takeAt 0x20 (xDetail 1 0) tgt 0 none
        else match overs with
          | (l, o) :: t => s.takeAt 0x20 (xDetail 1 0) (BitVec.ofNat 64 o) (maskOf (l :: t.map (·.1))) (some l)
          | [] =>
            match s.invalidData d.toNat (2 ^ n.toNat) with
            | some _ => s.take 0x10 (tagDetail 0 false 0)
            | none =>
              let ls := ranks.flatMap (fun r => match s.rankWg w.cluster r with
                | some g => os.map (fun e => (e.1, Loc.scratch g e.2, (none : Option TLeaf)))
                | none => [])
              s.issueStore (s.flagSel f) (withBytes (s.sectorParts 0 ls) (s.laneBytes d.toNat sz)) .workgroup)

-- Condition monitors (R236-R238) --------------------------------------------------------------------------------------

/-- `WAITC` (R237). (Log 44 DEDUCED, 177 DESIGN CHOICE.) -/
def execWaitc (a v : SReg) (o : BitVec 4) (z f : BitVec 1) (s : State) : Host.Outcome State Fault Refusal :=
  issue (.waitc a v o z f) s (fun s =>
    let va := s.sreg a.toNat
    let k := if z = 1 then 8 else 4
    if va.toNat % k ≠ 0 then s.takeAt 0x22 0 va 0 none
    else if inWindow va && canonical va && (s.winLoc s.actor.wg va).isSome then s.takeAt 0x27 3 va 0 none
    else match s.accessMe va .read with
      | .miss => (s.joinWalks [va]).waitHere
      | .fail c det => (s.takeAt c det va 0 none).dropWalks
      | .at (.peer ..) _ => s.takeAt 0x27 1 va 0 none
      | .at (.decant ..) _ => s.takeAt 0x27 4 va 0 none
      | .at l t =>
        if !cacheable l t then s.takeAt 0x27 2 va 0 none
        else
          let op := { s.newOp (.monitor { op := o, size := k, v := s.sreg v.toNat } v.toNat) (s.flagSel f) s.me.mask clsR
              (s.scopeOr .device) with
            parts := [{ mkPart 0 l t with loc := l, lanes := [(0, 0)] }], st := .running }
          s.emit op)

-- Fences (R87-R89) ----------------------------------------------------------------------------------------------------

/-- `FENCE`: it is entered into the fibre, whose later accesses of its successor classes then wait (R88, R89).
(Log 54 DEDUCED.) -/
def execFence (p q : BitVec 8) (c : BitVec 3) (s : State) : Host.Outcome State Fault Refusal :=
  issue (.fence p q c) s (fun s =>
    match scopeOf c.toNat with
    | some sc => (s.setMe { s.me with fence := some { pred := p, succ := q, scope := sc, mark := s.nextId, pc := s.me.unitPc } }).retire
    | none => s.take 1 0)

/-- Does a fence's OT wait apply: read classes before, write classes after (R88)? -/
def FenceSt.waitsOt (f : FenceSt) : Bool := (f.pred &&& clsReads) != 0 && (f.succ &&& clsWrites) != 0

/-- FENCE_COMPLETE: a fence whose predecessors are performed at its scope, with its lease waits, is done (R88).
(Log 54 DEDUCED.) -/
def execFenceComplete (r : FRef) (s : State) : Host.Outcome State Fault Refusal :=
  let f := s.fib r
  let waits := fun (fe : FenceSt) => !s.earlierDone r fe.mark fe.pred fe.scope fe.waitsOt
  let g : Fibre := { f with fence := f.fence.filter waits, fences := f.fences.filter waits }
  .next (if f.st = .absent ∨ g = f then s else s.setFib r g)

-- Hardware steps of sector requests -----------------------------------------------------------------------------------

/-- The bytes a request covers, as a cell (R21): the first location of its sector or register, and how many bytes. -/
def State.extent (s : State) (p : Part) : Loc × Nat :=
  match p.loc, p.lanes with
  | .regw g k off, [] => (.regw g k off, 4 * (s.wg g).warp)
  | l, _ => (s.cellOf l.sector, 32)

/-- Do two requests touch a common byte, as cells (R21)? (Log 55 DEDUCED.) -/
def State.overlap (s : State) (a b : Part) : Bool :=
  let near := a.lanes.isEmpty || b.lanes.isEmpty ||
    a.lanes.any (fun x => b.lanes.any (fun y => decide (x.2 < y.2 + 16) && decide (y.2 < x.2 + 16)))
  match s.extent a, s.extent b with
  | (.regw g k x, n), (.regw g' k' y, m) => g == g' && k == k' && decide (x < y + m) && decide (y < x + n) && near
  | (la, _), (lb, _) => la == lb && near

/-- Must a request wait for an earlier one to the same bytes (R84)? Reads wait for the fibre's unbound reads and, unless they take a
lease, for unperformed writes; a write waits for unbound reads and unperformed writes. The unperformed writes are those of the
whole CU: the fibre may have read their values in L1, and what it reads at the home or writes there must not be older.
(Log 55 DEDUCED.) -/
def State.mustFollow (s : State) (o : Op) (p : Part) (write : Bool) : Bool :=
  s.ops.any (fun e => decide (e.id < o.id) &&
    (match e.kind with
     | .load .none => false
     | .load _ => Tbl.has e.holders o.fid && e.parts.any (fun q => q.st == .todo && s.overlap p q)
     | .store => (write || p.lease.isNone) && (e.cu == o.cu || Tbl.has e.holders o.fid) &&
         e.parts.any (fun q => q.st == .todo && s.overlap p q)
     | .atomic .. | .cas .. | .acust .. => Tbl.has e.holders o.fid &&
         e.parts.any (fun q => (q.st == .todo || q.st == .sent) && s.overlap p q)
     | _ => false))

/-- Has a CU a store to a location's sector that is not yet performed (R84)? -/
def State.cuStores (s : State) (cu : Nat) (l : Loc) : Bool :=
  s.ops.any (fun e => e.cu == cu && e.kind == .store &&
    e.parts.any (fun q => q.st == .todo && s.cellOf q.loc.sector == s.cellOf l.sector))

/-- The bytes that stores of the CU which are not yet performed lay over the data of a leased read (R221): all of them for the L1
copy, those that are not later accesses of the loading fibre for its registers (R84). A store that is performed is in the data
that the home gives after it. (Log 153 DESIGN CHOICE.) -/
def State.merge (s : State) (o : Op) (l : Loc) (data : List Byte) (forReg : Bool) : List Byte :=
  s.ops.foldl (fun d e =>
    if e.cu = o.cu ∧ e.kind = .store ∧ ¬(forReg ∧ Tbl.has e.holders o.fid ∧ o.id < e.id) then
      e.parts.foldl (fun d q => if q.loc = l ∧ q.st = .todo then patch d q.wr else d) d
    else d) data

/-- Bytes per lane that a load's destination takes. -/
def LoadDst.size : LoadDst → Nat
  | .vec _ n _ | .scal _ n _ => n
  | _ => 4

/-- What a read of a request finds at its place: the sector's bytes, of a decant window those that its lanes read (R242), of a whole
register its tag and lanes (R233). -/
def State.readPart (s : State) (p : Part) (n : Nat) : State × List Byte × Nat :=
  match p.loc, p.lanes with
  | .regw g k off, [] => (s, (s.vshow g k (off / 4 / (s.wg g).warp)).bytes (s.wg g).warp, 0)
  | .decant c k off, ls =>
    ((ls.map (·.2)).eraseDups).foldl (fun (t : State × List Byte × Nat) x =>
      let (s1, bs, w) := t.1.readLoc (.decant c k (off + x)) n
      (s1, patch t.2.1 (bs.zipIdx.map (fun b => (x + b.2, b.1))), Nat.max t.2.2 w)) (s, List.replicate 32 0, 0)
  | l, _ => s.readLoc l 32

/-- Must a request's read wait for the scrubber (R242, R388)? -/
def State.partScrub (s : State) (p : Part) (n : Nat) : Bool :=
  match p.loc, p.lanes with
  | .decant c k off, ls => ls.any (fun e => s.mustScrub (.decant c k (off + e.2)) n)
  | .regw g _ _, [] => s.mustScrub p.loc (4 * (s.wg g).warp)
  | l, _ => s.mustScrub l 32

/-- HOME_READ (R81): a request is read at its home, at its cell or through its decant window. A leased read takes its lease, with
the CU's own stores laid over it; another removes the CU's L1 copy. A request that joined an entry waits for the entry's data
(R220); a poisoned line is waited for (R388). (Log 5 DESIGN CHOICE.) -/
def execHomeRead (op part : Nat) (s : State) : Host.Outcome State Fault Refusal :=
  match s.op op with
  | some o =>
    (match o.kind, o.parts[part]? with
     | .load dst, some p =>
       if p.st ≠ .todo || isPeer p.loc || (p.joined && s.missEntry o.cu p.loc) || s.partScrub p dst.size || s.mustFollow o p false then
         .next s
       else match p.lease with
         | some len =>
           let (s1, e) := (s.ownRead o.ctx p.loc.pa).grant p.loc.pa len
           .next (s1.setOp (o.setPart part { p with
             st := .bound, data := s.merge o p.loc (s.hbmBytes p.loc.pa 32) true, wvt := (s.secMeta p.loc.pa).wvt, expiry := e }))
         | none =>
           let s0 := if p.loc.isHbm then (s.ownRead o.ctx p.loc.pa).l1Drop o.cu p.loc.pa else s
           let (s1, bs, w) := s0.readPart p dst.size
           .next (s1.setOp (o.setPart part { p with st := .bound, data := bs, wvt := w }))
     | _, _ => .next s)
  | none => .next s

/-- Exact F16 to F32 (R226). A NaN keeps its payload, a signalling one its form, and no flag is set; so for a BF16 value.
(Log 154 DESIGN CHOICE.) -/
def f16to32 (h : Nat) : Nat :=
  let sg := h / 32768 * 2 ^ 31
  let e := h / 1024 % 32
  let m := h % 1024
  if e = 31 then sg + 255 * 2 ^ 23 + m * 2 ^ 13
  else if e = 0 then
    (if m = 0 then sg
     else
       let k := Nat.log2 m
       sg + (k + 103) * 2 ^ 23 + (m - 2 ^ k) * 2 ^ (23 - k))
  else sg + (e + 112) * 2 ^ 23 + m * 2 ^ 13

/-- A narrow value extended to 32 bits: S8, Z8, S16, Z16, F16, BF16 (R225). -/
def extendN (ext x : Nat) : Word :=
  match ext with
  | 1 => (BitVec.ofNat 8 x).signExtend 32
  | 2 => BitVec.ofNat 32 (x % 256)
  | 3 => (BitVec.ofNat 16 x).signExtend 32
  | 4 => BitVec.ofNat 32 (x % 65536)
  | 5 => BitVec.ofNat 32 (f16to32 (x % 65536))
  | _ => BitVec.ofNat 32 (x % 65536 * 65536)

/-- Bits 31:30 of a lane of tags 0x8, 0x9 and 0xB are zero (R62). -/
def cleanLane (t : Tag) (w : Word) : Word := if t = 0x8 ∨ t = 0x9 ∨ t = 0xB then w &&& 0x3FFFFFFF#32 else w

/-- Writes the registers that one bound request of a load delivers (R226, R229, R230, R233). (Log 154 DESIGN CHOICE.) -/
def State.deliverLoad (s : State) (o : Op) (dst : LoadDst) (p : Part) (data : List Byte) : State :=
  let g := o.who.wg
  let k := o.who.slot
  let w := (s.wg g).warp
  match dst with
  | .vec vd n ext =>
    (List.range (if ext = 0 then n / 4 else 1)).foldl (fun (t : State) i =>
      let v := t.vreg g k (vd + i)
      let lanes := p.lanes.foldl (fun ls (e : Nat × Nat) =>
        let x := leNat ((data.drop (e.2 + 4 * i)).take (if ext = 0 then 4 else n))
        setNth ls e.1 (if ext = 0 then cleanLane v.tag (BitVec.ofNat 32 x) else extendN ext x)) v.lanes
      t.setV g k (vd + i) (maskOf (p.lanes.map (·.1))) { v with lanes := lanes }) s
  | .scal sd n sg =>
    let x := leNat ((data.drop ((p.lanes.headD (0, 0)).2)).take n)
    let y : DWord := if sg then (if n < 8 then (if x < 2 ^ (8 * n - 1) then BitVec.ofNat 64 x
        else BitVec.ofNat 64 (2 ^ 64 - 2 ^ (8 * n) + x)) else BitVec.ofNat 64 x) else BitVec.ofNat 64 x
    { s with fibres := s.fibres.map (fun e => if e.2.st ≠ .absent ∧ Tbl.has o.holders e.2.fid then
        (e.1, { e.2 with s := Tbl.set e.2.s sd y }) else e) }
  | .bcast vd =>
    let x := leNat ((data.drop ((p.lanes.headD (0, 0)).2)).take 4)
    let v := s.vreg g k vd
    s.setV g k vd o.lanes (v.write w o.lanes v.tag (fun _ => cleanLane v.tag (BitVec.ofNat 32 x)))
  | .reg vd =>
    let x := VVal.ofBytes data w
    s.setV g k vd o.lanes ((s.vreg g k vd).write w o.lanes x.tag (fun l => cleanLane x.tag (x.lane l)))
  | .none => s

/-- Takes the lanes that are written out of a split load's lane sets (R353). -/
def Op.shed (o : Op) : Op :=
  if o.split then
    let left := maskOf ((o.parts.filter (fun p => p.st != .done)).map (fun p => p.lanes.map (·.1))).flatten
    { o with counts := o.counts.map (fun c => { c with lanes := c.lanes &&& left }) }
  else o

/-- Ends one request of a load: registers, observed time, and the operation when it was the last (R27, R85). -/
def State.endRead (s : State) (o : Op) (part : Nat) (p : Part) (dst : LoadDst) (data : List Byte) : State :=
  let s1 := s.deliverLoad o dst p data
  let o1 := ({ o with ot := Nat.max o.ot p.wvt }.setPart part { p with st := .done }).shed
  if o1.parts.all (fun q => q.st == .done) then s1.complete o1 else s1.setOp o1

/-- The data of a filled entry goes to the requests of the CU that joined it (R220), the CU's own stores laid over it. A request
that follows an earlier access of its fibre waits for that and is read at the home then (R84). -/
def State.serveJoined (s : State) (cu : Nat) (l : Loc) : State :=
  let w := (s.secMeta l.pa).wvt
  { s with ops := s.ops.map (fun o =>
      match o.kind with
      | .load _ =>
        if o.cu = cu then
          { o with parts := o.parts.map (fun q => if q.joined && q.st == .todo && q.loc == l && q.lease.isSome && !s.mustFollow o q false then
              { q with st := .bound, data := s.merge o l (s.hbmBytes l.pa 32) true, wvt := w } else q) }
        else o
      | _ => o) }

/-- SECTOR_FILL (R221, R226): the data of a request arrives. An allocating miss fills L1, under the lease it was granted, with what the
home holds then and the CU's stores that are still on their way; the requests that joined are served; the load's registers are
written. (Log 153 DESIGN CHOICE.) -/
def execSectorFill (op part : Nat) (s : State) : Host.Outcome State Fault Refusal :=
  match s.op op with
  | some o =>
    (match o.kind, o.parts[part]? with
     | .load dst, some p =>
       if p.st ≠ .bound ∨ (dst = .none ∧ o.cls ≠ 0) then .next s
       else if p.lease.isSome ∧ ¬ p.joined ∧ p.loc.isHbm then
         if s.poisoned p.loc.pa then .next s
         else
           let pa := p.loc.pa
           let s1 := if p.alloc then
               s.l1Fill o.cu { pa := pa, place := s.l1Place o.cu pa, data := s.merge o p.loc (s.hbmBytes pa 32) false,
                               expiry := p.expiry, wvt := (s.secMeta pa).wvt, owner := o.ctx }
             else s
           let s2 := s1.serveJoined o.cu p.loc
           .next (s2.endRead ((s2.op op).getD o) part p dst p.data)
       else .next (s.endRead o part p dst p.data)
     | _, _ => .next s)
  | none => .next s

/-- WRITE_THROUGH (R82): a store's request is performed where it lives: at the home it sets WVT and its GWCT is on the way
back, and a rack copy that the CU took since the store issued goes (R304, R312); a window location has no reply to wait for. A
doorbell waits for the writer's earlier writes (R387). -/
def execWriteThrough (op part : Nat) (s : State) : Host.Outcome State Fault Refusal :=
  match s.op op with
  | some o =>
    (match o.kind, o.parts[part]? with
     | .store, some p =>
       if p.st ≠ .todo || s.mustFollow o p true || (isDoorbell p.loc && !s.writesBefore o) then .next s
       else match p.loc with
         | .peer .. => .next s
         | .mem pa =>
           let (s1, g) := (s.rackDrop o.cu pa).writeSector o.ctx p.loc p.wr
           (match s1.op op with
            | some o1 => .next (s1.setOp (o1.setPart part { p with st := .performed, gwct := g }))
            | none => .next s1)
         | .regw gw k off =>
           let s1 := if p.data.isEmpty then (s.writeSector o.ctx p.loc p.wr).1
             else
               let w := (s.wg gw).warp
               let x := VVal.ofBytes p.data w
               s.setV gw k (off / 4 / w) o.lanes ((s.vreg gw k (off / 4 / w)).write w o.lanes x.tag x.lane)
           (match s1.op op with
            | some o1 =>
              let o2 := o1.setPart part { p with st := .done }
              .next (if o2.parts.all (fun q => q.st == .done) then (s1.setOp o2).settle o2 else s1.setOp o2)
            | none => .next s1)
         | _ =>
           let (s1, _) := s.writeSector o.ctx p.loc p.wr
           (match s1.op op with
            | some o1 =>
              let o2 := o1.setPart part { p with st := .done }
              .next (if o2.parts.all (fun q => q.st == .done) then (s1.setOp o2).settle o2 else s1.setOp o2)
            | none => .next s1)
     | _, _ => .next s)
  | none => .next s

/-- Ends one request of a write: its GWCT is known, its entry is free, and the operation settles when it was the last. -/
def State.endWrite (s : State) (o : Op) (part : Nat) (p : Part) : State :=
  let o1 := { o with gwct := Nat.max o.gwct p.gwct }.setPart part { p with st := .done }
  if o1.parts.all (fun q => q.st == .done) then (s.setOp o1).settle o1 else s.setOp o1

/-- GWCT_REPLY (R82, R220): the reply of a performed store reaches the CU. -/
def execGwctReply (op part : Nat) (s : State) : Host.Outcome State Fault Refusal :=
  match s.op op with
  | some o =>
    (match o.kind, o.parts[part]? with
     | .store, some p => if p.st = .performed then .next (s.endWrite o part p) else .next s
     | _, _ => .next s)
  | none => .next s

/-- MONITOR_ARM (R104, R238): a monitor reaches its slice and takes one of 256 entries, with its first test, or queues there
in order of arrival; a queued monitor takes an entry when it is the oldest of its slice. -/
def execMonitorArm (op : Nat) (s : State) : Host.Outcome State Fault Refusal :=
  match s.op op with
  | some o =>
    (match o.kind, o.parts with
     | .monitor .., [p] =>
       let sl := homeOf p.loc.pa
       let room := decide ((s.mons.filter (fun m => m.slice == sl && m.armed)).length < 256)
       let queued := s.mons.filter (fun m => m.slice == sl && !m.armed)
       if p.st ≠ .todo ∨ s.mons.any (fun m => m.op == op && m.armed) then .next s
       else if s.mons.any (fun m => m.op == op) then
         (if room ∧ queued.head?.map (·.op) = some op then
           (let s1 : State := { s with mons := s.mons.map (fun m => if m.op = op then { m with armed := true } else m) }
            .next (s1.testMonitor op))
          else .next s)
       else if room ∧ queued.isEmpty then
         (let s1 : State := { s with mons := s.mons ++ [{ op := op, slice := sl, armed := true }] }
          .next (s1.testMonitor op))
       else .next { s with mons := s.mons ++ [{ op := op, slice := sl, armed := false }] }
     | _, _ => .next s)
  | none => .next s

-- Decant windows (R239-R243) ------------------------------------------------------------------------------------------

/-- A decant descriptor from its 64 bytes: the binding it asks for at base `b`, or nothing if a field breaks R240.
(Log 58 DEDUCED.) -/
def decantOf (bs : List Byte) (b : DWord) : Option Decant :=
  let f := fun o n => leNat ((bs.drop o).take n)
  let esz := 4 * 2 ^ (f 0x18 4 % 4)
  let d : Decant :=
    { base := b, size := (f 0x10 4 * esz + 65535) / 65536 * 65536, idxbase := BitVec.ofNat 64 (f 0 8),
      srcbase := BitVec.ofNat 64 (f 8 8), count := f 0x10 4, bound := f 0x14 4, esize := esz, errIndex := false,
      errXlate := false }
  if f 0 8 % 4 ≠ 0 ∨ f 8 8 % esz ≠ 0 ∨ f 0x10 4 < 1 ∨ 2 ^ 28 < f 0x10 4 ∨ f 0x14 4 < 1 ∨ 2 ^ 31 ≤ f 0x14 4 ∨
     4 ≤ f 0x18 4 ∨ (bs.drop 0x1C).any (· ≠ 0) then none
  else some d

/-- The result of a bind: the binding number, or 2^63 plus the first reason that holds in the order 4, 2, 3, 1 (R241).
(Log 58 DEDUCED.) -/
def Ctx.bindResult (c : Ctx) (bs : List Byte) (b : DWord) : Except Nat (Nat × Decant) :=
  match decantOf bs b with
  | none => .error 4
  | some d =>
    let hi := b.toNat + d.size
    if b.toNat % 65536 ≠ 0 ∨ canonical b = false ∨ 2 ^ 64 < hi ∨ canonical (BitVec.ofNat 64 (hi - 1)) = false ∨
       (b.toNat < 2 ^ 56 ∧ 2 ^ 56 < hi) ∨ (b.toNat < 0x00F0000000000000 ∧ winBase < hi) then .error 2
    else if c.decants.any (fun e => decide (e.2.base.toNat < hi) && decide (b.toNat < e.2.base.toNat + e.2.size)) then .error 3
    else match (List.range 64).find? (fun k => !c.decants.any (fun e => e.1 == k)) with
      | none => .error 1
      | some k => .ok (k, d)

/-- Makes a unit that reads memory itself wait for the fibre's own earlier stores to the bytes it reads (R84): they must be
performed. -/
def State.ownStoresDone (s : State) : Bool :=
  s.ops.all (fun o => !Tbl.has o.holders s.me.fid || (o.cls &&& clsW) == 0 || s.opPerformed o .workgroup)

/-- What a unit that reads memory itself finds: the bytes with their WVT, or that it stopped, by a fault or waiting. -/
inductive MeRead where
  | ok (s : State) (bs : List Byte) (wvt : Nat)
  | stop (s : State)
deriving DecidableEq, Repr

/-- Is the operation a read of peer memory that the running fibre's unit waits for in place? -/
def State.ownFetch (s : State) (o : Op) : Bool :=
  o.who == s.actor && o.fid == s.me.fid && o.ipc == s.me.unitPc && o.cls == clsR &&
  (match o.kind with | .load .none => true | _ => false)

/-- Merges a WVT into the running fibre's observed time (R85). -/
def State.seeMe (s : State) (wvt : Nat) : State := s.setMe { s.me with ot := Nat.max s.me.ot wvt }

/-- Reads `n` bytes at an address for the running unit, as a load of fibre scope (R84, R224): its own stores and the CU's to
those sectors are performed first, walks and rewritten lines are waited for, peer sectors are fetched by `READ` packets. -/
def State.readMe (s : State) (va : DWord) (n : Nat) : MeRead :=
  let k := (va.toNat % 32 + n + 31) / 32
  let at' := fun (i : Nat) => if i = 0 then va else BitVec.ofNat 64 (sectorOf va.toNat + 32 * i)
  let len := fun (i : Nat) => Nat.min (va.toNat + n) (sectorOf va.toNat + 32 * (i + 1)) - (at' i).toNat
  if !s.ownStoresDone then .stop s.waitHere
  else match s.checkLanes 1 ((List.range k).map (fun i => (i, at' i))) (fun a => s.accessMe a .read) with
    | .miss vas => .stop (s.joinWalks vas).waitHere
    | .fault c d a _ _ => .stop (s.takeAt c d a 0 none).dropWalks
    | .ok ls =>
      let peers := ls.filter (fun e => match e.2.1 with | .peer .. => true | _ => false)
      if ls.any (fun e => s.mustScrub e.2.1 (len e.1) || s.cuStores s.myWg.cu e.2.1) then .stop s.waitHere
      else match peers, s.ops.find? s.ownFetch with
        | _ :: _, none =>
          let parts := (s.sectorParts 0 peers).map (s.lookup 0)
          let o := { s.newOp (.load .none) none 0 clsR .system with parts := parts, st := .running }
          .stop ((s.addOp o).readPackets o.id o.ctx parts).waitHere
        | _ :: _, some o =>
          if o.parts.all (fun p => p.st == .bound) then
            let s1 := { s with ops := s.ops.filter (fun x => x.id ≠ o.id) }
            let (s2, bs, w) := ls.foldl (fun (t : State × List Byte × Nat) e =>
              match o.parts.find? (fun p => p.loc == e.2.1.sector) with
              | some p => (t.1, t.2.1 ++ (p.data.drop e.2.1.off).take (len e.1), Nat.max t.2.2 p.wvt)
              | none =>
                let (u, b, w) := t.1.readAs s.myWg.ctx e.2.1 (len e.1)
                (u, t.2.1 ++ b, Nat.max t.2.2 w)) (s1, [], 0)
            .ok (s2.seeMe w) bs w
          else .stop s.waitHere
        | [], _ =>
          let (s2, bs, w) := ls.foldl (fun (t : State × List Byte × Nat) e =>
            let (u, b, w) := t.1.readAs s.myWg.ctx e.2.1 (len e.1)
            (u, t.2.1 ++ b, Nat.max t.2.2 w)) (s, [], 0)
          .ok (s2.seeMe w) bs w

/-- `DECANT.BIND` (R241). The descriptor is read once the fibre's own stores are performed; that every CU holds the binding
is one action here. (Log 58 DEDUCED.) -/
def execDecantBind (d a b : SReg) (s : State) : Host.Outcome State Fault Refusal :=
  issue (.decantBind d a b) s (fun s =>
    let va := s.sreg a.toNat
    if va.toNat % 64 ≠ 0 then s.takeAt 0x22 0 va 0 none
    else match s.readMe va 64 with
      | .stop s1 => s1
      | .ok s1 bs _ =>
        let c := s1.myCtx
        match c.bindResult bs (s.sreg b.toNat) with
        | .error e => (s1.setS d.toNat (BitVec.ofNat 64 (2 ^ 63 + e))).retire
        | .ok (k, x) =>
          ((s1.setCtx s.myWg.ctx { c with decants := c.decants ++ [(k, x)] }).setS d.toNat (BitVec.ofNat 64 k)).retire)

/-- `DECANT.UNBIND` (R243): waits for the context's accesses through the window, then frees it and returns its status. -/
def execDecantUnbind (d a : SReg) (s : State) : Host.Outcome State Fault Refusal :=
  issue (.decantUnbind d a) s (fun s =>
    let k := (s.sreg a.toNat).toNat
    let c := s.myCtx
    let cid := s.myWg.ctx
    match c.decants.find? (fun e => e.1 == k) with
    | none => (s.setS d.toNat (BitVec.ofNat 64 (2 ^ 63))).retire
    | some (_, x) =>
      let usesIt := fun (o : Op) => o.ctx == cid && (o.parts.any (fun p => p.st != .done &&
          (match p.loc with | .decant q j _ => q == cid && j == k | _ => false)) ||
        (match o.kind with
         | .copy y => decide (x.base.toNat < y.src.toNat + y.len) && decide (y.src.toNat < x.base.toNat + x.size) || y.kind == 2
         | .gang .. | .split .. | .spgRow .. | .spgFlush .. => o.st == .running
         | .xfer y => y.src.any (fun r => match r.loc with | .decant q j _ => q == cid && j == k | _ => false)
         | _ => false))
      if s.ops.any usesIt then s.waitHere
      else
        let st := (if x.errIndex then 1 else 0) + (if x.errXlate then 2 else 0)
        ((s.setCtx cid { c with decants := c.decants.filter (fun e => e.1 ≠ k) }).setS d.toNat (BitVec.ofNat 64 st)).retire)

-- Walks (R209) ----------------------------------------------------------------------------------------------------------

/-- The prefetches that waited for a walk ask for their sectors (R231). -/
def State.runPrefs (s : State) (es : List PrefReq) : State :=
  let a := s.actor
  { es.foldl (fun (t : State) e =>
      let u : State := { t with actor := e.who }
      match u.accessMe e.va .read with
      | .at l x => if u.me.fid = e.fid then u.prefetch e.hint e.l2 l x else u
      | _ => u) s with actor := a }

/-- PAGE_WALK (R209): the walk that a CU's coalescer entry asks for is made; its leaf fills the CU's caches and the caches of
every CU of the die that waits for the same page, and serves every entry whose page it covers; a failure is kept for the fibres that wait. -/
def execPageWalk (cu : Nat) (asid : BitVec 16) (page : DWord) (s : State) : Host.Outcome State Fault Refusal :=
  let entry := (s.cu cu).coal.find? (fun e => e.asid == asid && e.page == page && e.fail.isNone)
  let owner := s.ctxs.find? (fun e => e.2.live && e.2.asid == asid)
  let ours := fun (x : Coal) => x.asid == asid && x.page == page && x.fail.isNone
  match entry, owner with
  | some _, some (cid, c) =>
    let die := fun n => n % 16 / 8 + 2 * (n / 16 / 6)
    let same := s.cus.filter (fun e => die e.1 == die cu && e.2.coal.any ours)
    let b := s.walkStart cu c page
    let path := s.walkPath (page.toNat % 2 ^ 57) b.1 b.2
    if path.any s.poisoned then .next s else
    let s := s.ownLines cid path
    match s.walkFrom c.asid (page.toNat % 2 ^ 57) b.1 b.2 with
    | .leaf l =>
      let served := fun (x : Coal) => x.fail.isNone && l.covers x.asid x.page
      .next (same.foldl (fun (t : State) e =>
        let xs := e.2.coal.filter served
        let fs := xs.flatMap (fun x => x.waiters.map (·.1) ++ x.prefs.map (·.who))
        let t1 := fs.foldl (fun (u : State) r => u.fillLeaf e.1 (u.quarterOf r) l) (t.fillTables e.1 c page)
        let u := t1.cu e.1
        (t1.setCu e.1 { u with coal := u.coal.filter (fun x => !served x) }).runPrefs (xs.flatMap (·.prefs))) s)
    | .fail x =>
      .next (same.foldl (fun (t : State) e =>
        let u := t.cu e.1
        t.setCu e.1 { u with coal := (u.coal.filter (fun y => !(ours y && y.waiters.isEmpty))).map (fun y =>
          if ours y then { y with fail := some x, prefs := [] } else y) }) s)
  | _, _ => .next s

end Sys2Proof.Machine
end

