-- ==== Sys2Proof/Machine/Eng.lean ====
section
/-!
DEFINITION. What the asynchronous engines share: reads and writes of ranges that are translated as they go, with the largest
WVT and GWCT (R82, R85, R94, R169), and the fault records of operations.
-/
namespace Sys2Proof.Machine

/-- A fault record of an asynchronous operation (R167, R169): FAULTPC is filled in where the fibre freezes. (Log 46 DEDUCED.) -/
def Op.faultRec (o : Op) (cause : BitVec 8) (detail : Nat) (addr lanes : DWord) (lane : Option Nat) : FaultRec :=
  { faultAt o.ipc cause detail addr lanes lane with async := true }

/-- Completes an operation with a fault, once the waits of its scope are over (R29, R93, R169). -/
def State.failOp (s : State) (o : Op) (cause : BitVec 8) (detail : Nat) (addr lanes : DWord) (lane : Option Nat) : State :=
  s.settle { o with fault := some (o.faultRec cause detail addr lanes lane) }

/-- A range cut at multiples of `k` bytes: offsets from its start, and lengths. -/
def piecesOf (k va n : Nat) : List (Nat × Nat) :=
  (List.range (n / k + 2)).filterMap (fun i =>
    let lo := Nat.max va ((va / k + i) * k)
    let hi := Nat.min (va + n) ((va / k + i + 1) * k)
    if lo < hi then some (lo - va, hi - lo) else none)

/-- A range cut where its translation, its limit or its guard tag may change: at multiples of 128 bytes, and in the window region at
multiples of 64, since a slot's register window may end there (R20). -/
def pieces (va n : Nat) : List (Nat × Nat) :=
  piecesOf (if winBase ≤ va + n ∧ va < 0x00F0000000000000 then 64 else 128) va n

/-- What an engine refuses of a place: a cause and DETAIL. -/
abbrev Refuse := Loc → Option TLeaf → Option (BitVec 8 × Nat)

/-- Is the page MMIO? -/
def isMmio (l : Loc) (t : Option TLeaf) : Bool :=
  (match t with | some e => e.pte.getLsbD 10 | none => false) || (match l with | .mem pa => inMmio pa | _ => false)

/-- Does the place hold guard tags: local HBM that is no MMIO page (R319)? -/
def hasTags (l : Loc) (t : Option TLeaf) : Bool := l.isHbm && !isMmio l t

/-- What a read of a range gives: a failed one too has read, with their WVT, the bytes before. -/
inductive ERead where
  | ok (s : State) (bs : List Byte) (wvt : Nat)
  | fail (s : State) (wvt : Nat) (cause : BitVec 8) (detail : Nat) (addr : DWord)
  /-- A line is poisoned and not yet rewritten (R388). -/
  | wait
deriving DecidableEq, Repr

/-- Keeps in an operation's observed time what it read (R85). -/
def Op.saw (o : Op) (wvt : Nat) : Op := { o with ot := Nat.max o.ot wvt }

/-- Removes a CU's L1 copies of what a read without allocation reads (R81). -/
def State.l1Pass (s : State) (cu : Nat) (l : Loc) (n : Nat) : State :=
  match l with
  | .mem pa => (sectorsOf pa n).foldl (fun (t : State) x => t.l1Drop cu x) s
  | _ => s

/-- Reads `n` bytes at a virtual address for an engine operation of a workgroup, from the homes and without lease: the CU's L1
copies of what it reads go (R81). -/
def State.engRead (s : State) (wg cu : Nat) (cid : BitVec 12) (va : DWord) (n : Nat) (no : Refuse) : ERead :=
  (pieces va.toNat n).foldl (fun acc p =>
    match acc with
    | .ok t bs w =>
      let a := va + BitVec.ofNat 64 p.1
      let t := t.ownWalk cu cid a
      (match t.accessOp wg cu cid a .read with
       | .at l e =>
         (match no l e with
          | some (c, d) => .fail t w c d a
          | none =>
            if t.mustScrub l p.2 then .wait
            else
              let (t1, b, w1) := (t.l1Pass cu l p.2).readAs cid l p.2
              .ok t1 (bs ++ b) (Nat.max w w1))
       | .fail c d => .fail t w c d a
       | .miss => .wait)
    | x => x) (.ok s [] 0)

/-- DETAIL of a failed write by an engine: to a decant window it is 3 (R242, R246). -/
def engDetail (cause : BitVec 8) (detail : Nat) : Nat := if cause = 0x25 then 3 else detail

/-- The places of a range for writes of an engine, each with its address and offset: every byte is translated and refused
places are found before anything is written. -/
def State.engPlaces (s : State) (wg cu : Nat) (cid : BitVec 12) (va : DWord) (n : Nat) (no : Refuse) :
    Except (BitVec 8 × Nat × DWord) (List (Loc × DWord × Nat × Nat)) :=
  (pieces va.toNat n).foldl (fun acc p =>
    match acc with
    | .ok ps =>
      let a := va + BitVec.ofNat 64 p.1
      (match s.accessOp wg cu cid a .write with
       | .at l e => (match no l e with | some (c, d) => .error (c, d, a) | none => .ok (ps ++ [(l, a, p.1, p.2)]))
       | .fail c d => .error (c, engDetail c d, a)
       | .miss => .error (0x20, 0, a))
    | x => x) (.ok [])

/-- The first piece of a range that lies where `p` holds. -/
def State.engFind (s : State) (wg cu : Nat) (cid : BitVec 12) (va : DWord) (n : Nat) (p : Loc → Option TLeaf → Bool) : Option DWord :=
  (pieces va.toNat n).findSome? (fun q =>
    let a := va + BitVec.ofNat 64 q.1
    match s.accessOp wg cu cid a .read with | .at l e => if p l e then some a else none | _ => none)

/-- Does a piece of a range lie where `p` holds? -/
def State.engAny (s : State) (wg cu : Nat) (cid : BitVec 12) (va : DWord) (n : Nat) (p : Loc → Option TLeaf → Bool) : Bool :=
  (s.engFind wg cu cid va n p).isSome

/-- What a write of a range gives: on a failure, the state after the pieces before it. -/
inductive EWrite where
  | ok (s : State) (gwct : Nat)
  | fail (s : State) (cause : BitVec 8) (detail : Nat) (addr : DWord)
deriving DecidableEq, Repr

/-- Writes bytes at a virtual address for an engine operation of a workgroup; `tw` gives the guard tag of each piece. -/
def State.engWriteVa (s : State) (wg cu : Nat) (cid : BitVec 12) (va : DWord) (bs : List Byte) (tw : DWord → TagW)
    (no : Refuse) : EWrite :=
  (pieces va.toNat bs.length).foldl (fun acc p =>
    match acc with
    | .ok t g =>
      let a := va + BitVec.ofNat 64 p.1
      let t := t.ownWalk cu cid a
      (match t.accessOp wg cu cid a .write with
       | .at l e =>
         (match no l e with
          | some (c, d) => .fail t c d a
          | none =>
            let (t1, g1) := t.engineWrite cu cid l ((bs.drop p.1).take p.2) (tw a)
            .ok t1 (Nat.max g g1))
       | .fail c d => .fail t c (engDetail c d) a
       | .miss => .fail t 0x20 0 a)
    | x => x) (.ok s 0)

/-- Writes bytes at consecutive addresses of HBM for an agent of a context: each 128-byte block is one action. -/
def State.writeSpan (s : State) (cid : BitVec 12) (pa : Nat) (bs : List Byte) (tw : TagW) : State × Nat :=
  (pieces pa bs.length).foldl (fun (t : State × Nat) p =>
    let (s1, g) := t.1.writeHbm cid (pa + p.1) ((bs.drop p.1).take p.2) tw
    (s1, Nat.max t.2 g)) (s, 0)

/-- Refuses nothing. -/
def refuseNone : Refuse := fun _ _ => none

/-- The checks of a block against an expected version and the address it is read through, in the order of R321: the reason
that fails. -/
def State.guardCheck (s : State) (pa : Nat) (va : DWord) (v : Nat) : Option Nat :=
  let t := s.guardTag pa
  if fld t 52 12 = 0 then some 1
  else if v ≠ 0 ∧ fld t 52 12 ≠ v then some 2
  else if fld t 32 20 ≠ fld va 7 20 then some 3
  else if fld t 0 32 ≠ (crc32c (s.hbmBytes (blockOf pa) 128)).toNat then some 4
  else none

/-- The first block of a range that fails its checks against an expected version: the reason and the block's address.
(Log 65 DEDUCED.) -/
def State.guardSpan (s : State) (wg cu : Nat) (cid : BitVec 12) (va : DWord) (n v : Nat) : Option (Nat × DWord) :=
  (pieces va.toNat n).findSome? (fun q =>
    let a := va + BitVec.ofNat 64 q.1
    match s.accessOp wg cu cid a .read with
    | .at (.mem pa) _ => if inHbm pa then (s.guardCheck pa a v).map (fun r => (r, BitVec.ofNat 64 (blockOf a.toNat))) else none
    | _ => none)

end Sys2Proof.Machine
end

