-- ==== Sys2Proof/Machine/Flags.lean ====
section
/-!
DEFINITION. The sticky flags of FSTICKY (R67) as bits, and what an asynchronous operation's completion adds to them. The
arithmetic that raises them is in Num.lean, beside the roundings that decide them.
-/
namespace Sys2Proof.Machine

-- Sticky flags (R67) --------------------------------------------------------------------------------------------------

/-- Flags of FSTICKY. -/
abbrev Fl := BitVec 9
/-- Invalid operation. -/
def flNV : Fl := 1
/-- Division by zero. -/
def flDZ : Fl := 2
/-- Overflow. -/
def flOF : Fl := 4
/-- Underflow. -/
def flUF : Fl := 8
/-- Inexact. -/
def flNX : Fl := 16
/-- Saturated. -/
def flSAT : Fl := 32
/-- A block scale was clamped at -127. -/
def flBUF : Fl := 64
/-- Excess outliers were clamped into a body. -/
def flBCLAMP : Fl := 128
/-- Guard mismatch. -/
def flGUARD : Fl := 256

end Sys2Proof.Machine
end

