-- ==== Sys2Proof/Machine/Links.lean ====
section
/-!
DEFINITION. The links: bytes of packets and flits, the CRC-64, transmission with credits and replay, codewords and FEC lock,
the link states (R336-R341), with the hardware steps of the ports. Ports 0-127 are the global ports, port 255 the Ocush port;
a local port is numbered 2 × member + 0 or 1.
-/
namespace Sys2Proof

open Machine

-- Bytes of packets (R342) ---------------------------------------------------------------------------------------------

/-- The 32 bytes of a transport header (R342). Reserved fields are those of `rsv`, in ascending place. -/
def Packet.header (p : Packet) : List Byte :=
  let r := p.rsv.toNat
  leBytes (p.dst.toNat + p.src.toNat * 2 ^ 16) 4 ++
  leBytes (p.ty.toNat + p.tc.toNat * 2 ^ 8 + p.route.toNat * 2 ^ 10 + (if p.val then 2 ^ 12 else 0) +
    (if p.dup then 2 ^ 13 else 0) + (r % 4) * 2 ^ 14 + p.seq.toNat * 2 ^ 16) 4 ++
  leBytes (p.mid.toNat + p.viam.toNat * 2 ^ 11 + p.sctx.toNat * 2 ^ 16 + (bitsN r 2 4) * 2 ^ 28) 4 ++
  leBytes (p.len.toNat + (bitsN r 6 23) * 2 ^ 9) 4 ++
  leBytes (p.addr.toNat + (bitsN r 29 24) * 2 ^ 40) 8 ++
  leBytes (p.aux.toNat + p.tag.toNat * 2 ^ 32) 8

/-- A packet as it travels: header, payload, trailer. -/
def Packet.bytes (p : Packet) : List Byte :=
  p.header ++ p.payload ++ (p.trailer.map (fun t => leBytes t.toNat 8)).flatten

/-- A header from its bytes, without payload. -/
def Packet.ofHeader (bs : List Byte) : Packet :=
  let f := fun o n => leNat ((bs.drop o).take n)
  { dst := BitVec.ofNat 16 (f 0 2), src := BitVec.ofNat 16 (f 2 2), ty := BitVec.ofNat 8 (f 4 1),
    tc := BitVec.ofNat 2 (f 5 1), route := BitVec.ofNat 2 (f 5 1 / 4), val := bitsN (f 5 1) 4 1 = 1,
    dup := bitsN (f 5 1) 5 1 = 1, seq := BitVec.ofNat 16 (f 6 2), mid := BitVec.ofNat 11 (f 8 2),
    viam := BitVec.ofNat 5 (f 8 2 / 2 ^ 11), sctx := BitVec.ofNat 12 (f 10 2), len := BitVec.ofNat 9 (f 12 2),
    addr := BitVec.ofNat 40 (f 16 5), aux := BitVec.ofNat 32 (f 24 4), tag := BitVec.ofNat 32 (f 28 4),
    rsv := BitVec.ofNat 53 (bitsN (f 5 1) 6 2 + (f 11 1 / 16) * 4 + (f 12 4 / 2 ^ 9) * 2 ^ 6 + (f 21 3) * 2 ^ 29),
    payload := [], trailer := [] }

/-- Does a packet carry the 16-byte trailer: PUTG, and a GETDATA of a guarded get, which the model marks by AUX bit 0? -/
def Packet.guarded (p : Packet) : Bool := p.ty == 5 || (p.ty == 0x13 && p.aux.getLsbD 0)

/-- Cuts packets from a stream; what is left waits for more bytes. A reserved type 0 is padding and ends the stream.
(Log 106 DESIGN CHOICE.) -/
def cutPackets : Nat → List Byte → List Packet × List Byte
  | 0, bs => ([], bs)
  | n + 1, bs =>
    if bs.length < 8 then ([], bs)
    else if bs.getD 4 0 = 0 then ([], [])
    else if bs.length < 32 then ([], bs)
    else
      let p := Packet.ofHeader bs
      let tr := if p.guarded then 16 else 0
      let len := 32 + p.len.toNat + tr
      if bs.length < len then ([], bs)
      else
        let q := { p with
          payload := (bs.drop 32).take p.len.toNat
          trailer := if p.guarded then
              [BitVec.ofNat 64 (leNat ((bs.drop (32 + p.len.toNat)).take 8)),
               BitVec.ofNat 64 (leNat ((bs.drop (40 + p.len.toNat)).take 8))] else [] }
        let (ps, r) := cutPackets n (bs.drop len)
        (q :: ps, r)

-- Flits (R338) --------------------------------------------------------------------------------------------------------

/-- One bit of the reflected CRC-64. -/
def crc64Bit (c : DWord) : DWord := if c.getLsbD 0 then (c >>> 1) ^^^ 0xC96C5795D7870F42#64 else c >>> 1

/-- One byte of the reflected CRC-64. -/
def crc64Byte (c : DWord) (b : Byte) : DWord :=
  crc64Bit (crc64Bit (crc64Bit (crc64Bit (crc64Bit (crc64Bit (crc64Bit (crc64Bit (c ^^^ b.setWidth 64))))))))

/-- CRC-64 with polynomial 0x42F0E1EBA9EA3693, reflected, initial value and final XOR all ones (R338). -/
def crc64 (bs : List Byte) : DWord := ~~~ (bs.foldl crc64Byte 0xFFFFFFFFFFFFFFFF#64)

/-- Bytes 0x00 to 0xF7 of a flit. -/
def Flit.body (f : Flit) : List Byte :=
  leBytes (f.ftype.toNat + f.seq.toNat * 2 ^ 4 + f.ack.toNat * 2 ^ 16 + (if f.ackv then 2 ^ 28 else 0) +
    (if f.nak then 2 ^ 29 else 0) + (f.rsv.toNat % 4) * 2 ^ 30) 4 ++
  leBytes (f.crvc.toNat + f.crn.toNat * 2 ^ 4 + f.pvc.toNat * 2 ^ 12 + f.first.toNat * 2 ^ 16 +
    (f.rsv.toNat / 4) * 2 ^ 24) 4 ++ (f.payload ++ List.replicate 240 0).take 240

/-- Does the CRC match? -/
def Flit.good (f : Flit) : Bool := f.crc == crc64 f.body

/-- The 256 bytes of a flit. -/
def Flit.bytes (f : Flit) : List Byte := f.body ++ leBytes f.crc.toNat 8

/-- Sets the CRC. -/
def Flit.seal (f : Flit) : Flit := { f with crc := crc64 f.body }

/-- Byte `n` of a control flit (R340: byte 0x08 is the subtype). -/
def Flit.ctl (f : Flit) (n : Nat) : Byte := f.payload.getD (n - 8) 0

/-- An idle flit with every field zero. -/
def Flit.blank : Flit :=
  { ftype := 0, seq := 0, ack := 0, ackv := false, nak := false, crvc := 0, crn := 0, pvc := 0, first := 0xFF, rsv := 0,
    payload := [], crc := 0 }

/-- A flit from its 256 bytes. -/
def Flit.ofBytes (bs : List Byte) : Flit :=
  let a := leNat (bs.take 4)
  let b := leNat ((bs.drop 4).take 4)
  { ftype := BitVec.ofNat 4 a, seq := BitVec.ofNat 12 (a / 2 ^ 4), ack := BitVec.ofNat 12 (a / 2 ^ 16),
    ackv := bitsN a 28 1 = 1, nak := bitsN a 29 1 = 1, crvc := BitVec.ofNat 4 b, crn := BitVec.ofNat 8 (b / 2 ^ 4),
    pvc := BitVec.ofNat 4 (b / 2 ^ 12), first := BitVec.ofNat 8 (b / 2 ^ 16),
    rsv := BitVec.ofNat 10 (bitsN a 30 2 + (bitsN b 24 8) * 4), payload := (bs.drop 8).take 240,
    crc := BitVec.ofNat 64 (leNat ((bs.drop 248).take 8)) }

end Sys2Proof

namespace Sys2Proof.Machine

-- Ports ---------------------------------------------------------------------------------------------------------------

/-- An EOL port. -/
def State.port (s : State) (n : Nat) : Port := Tbl.get s.ports n Port.down

/-- Replaces an EOL port. -/
def State.setPort (s : State) (n : Nat) (p : Port) : State := { s with ports := Tbl.set s.ports n p }

/-- A local port. -/
def State.localPort (s : State) (n : Nat) : LocalPort := Tbl.get s.locals n LocalPort.down

/-- Wavelengths of a port: four on the Ocush port (R337, R382). -/
def portWaves (n : Nat) : Nat := if n = 255 then 4 else 8

/-- Does every wavelength of a port have FEC lock? -/
def Port.lockedAll (p : Port) (n : Nat) : Bool := (List.range (portWaves n)).all (fun w => (Tbl.get p.waves w Wave.dark).locked)

/-- The transmitter of a port. -/
def State.line (s : State) (n : Nat) : Line := Tbl.get s.lines n { wait := [], count := 0 }

/-- Hands a flit to a port's transmitter (R337, R340). -/
def State.sendLine (s : State) (n : Nat) (f : Flit) : State :=
  { s with lines := Tbl.set s.lines n { s.line n with wait := (s.line n).wait ++ [f] } }.send (.flit n f)

/-- A flit with the port's acknowledgement and its CRC. -/
def Port.stamped (p : Port) (f : Flit) : Flit := { f with ack := p.rxNext - 1, ackv := p.st == LinkSt.up }.seal

/-- Sends a flit that is no data flit, with the acknowledgement and a credit return. -/
def State.sendFlit (s : State) (n : Nat) (f : Flit) : State := s.sendLine n ((s.port n).stamped f)

/-- Slice `w` of a flit's 256 bytes on a port of `n` wavelengths (R337). -/
def sliceOf (n w : Nat) (bs : List Byte) : List Byte := (bs.drop (256 / n * w)).take (256 / n)

/-- The frame word of a codeword: wavelength number, 0b1010, count modulo 4,096 (R340). -/
def frameWord (w count : Nat) : BitVec 20 := BitVec.ofNat 20 (w + 0xA * 2 ^ 4 + count % 4096 * 2 ^ 8)

/-- The codeword that a transmitter sends next on every wavelength: the slices of the flits that wait, and idle flits for the rest,
so that the stream never pauses (R337, R340). -/
def Line.codeword (l : Line) (p : Port) (n : Nat) : List Msg :=
  let k := 640 * portWaves n / 256
  let fs := (l.wait.take k ++ List.replicate k (p.stamped Flit.blank)).take k
  let bs := fs.map Flit.bytes
  (List.range (portWaves n)).map (fun w => .codeword n w (frameWord w l.count) (bs.flatMap (sliceOf (portWaves n) w)))

/-- A transmitter after its next codeword. -/
def Line.sent (l : Line) (n : Nat) : Line := { wait := l.wait.drop (640 * portWaves n / 256), count := (l.count + 1) % 4096 }

/-- A port sends its next codeword on every wavelength (R337, R340). (Log 165 DESIGN CHOICE.) -/
def State.sendCodeword (s : State) (n : Nat) : State :=
  { s with lines := Tbl.set s.lines n ((s.line n).sent n), out := s.out ++ (s.line n).codeword (s.port n) n }

/-- Codewords that begin in the `n` ns from `t`: 5,440 bits each at 112 Gb/s (R337, R340). (Log 165 DESIGN CHOICE.) -/
def codewordsIn (t n : Nat) : Nat := (t + n) * 7 / 340 - t * 7 / 340

/-- The next `k` codewords of a transmitter. -/
def Line.codewords (p : Port) (n : Nat) : Nat → Line → Line × List Msg
  | 0, l => (l, [])
  | k + 1, l =>
    let r := Line.codewords p n k (l.sent n)
    (r.1, l.codeword p n ++ r.2)

/-- The EOL ports: the global ports and the Ocush port. -/
def eolPorts : List Nat := List.range 128 ++ [255]

/-- The transmitters of all ports over the `n` ns from `t`: none ever pauses (R340). (Log 165 DESIGN CHOICE.) -/
def State.sendLines (s : State) (t n : Nat) : State :=
  let rs := eolPorts.map (fun p => (p, Line.codewords (s.port p) p (codewordsIn t n) (s.line p)))
  { s with
    lines := if codewordsIn t n = 0 then s.lines else rs.foldl (fun l e => Tbl.set l e.1 e.2.1) s.lines
    out := s.out ++ rs.flatMap (fun e => e.2.2) }

/-- Offset of the first packet that starts in the flit from `lo` of a batch of packets, 0xFF for none (R338).
(Log 106 DESIGN CHOICE.) -/
def firstStart (lo : Nat) : Nat → List (List Byte) → Nat
  | _, [] => 0xFF
  | at', p :: ps => if lo ≤ at' then (if at' < lo + 240 then at' - lo else 0xFF) else firstStart lo (at' + p.length) ps

/-- Sends a batch of packets or records of one channel in consecutive data flits, the last one padded with zeros (R338, R339).
(Log 106 DESIGN CHOICE.) -/
def State.sendBatch (s : State) (n c : Nat) (ps : List (List Byte)) : State :=
  let bs := ps.flatten
  let k := (bs.length + 239) / 240
  (List.range k).foldl (fun (t : State) i =>
    let p := t.port n
    let f : Flit := { Flit.blank with
      ftype := 1, seq := p.txSeq, ack := p.rxNext - 1, ackv := true, pvc := BitVec.ofNat 4 c
      first := BitVec.ofNat 8 (firstStart (240 * i) 0 ps), payload := ((bs.drop (240 * i)).take 240 ++ List.replicate 240 0).take 240 }
    let g := f.seal
    (t.setPort n { p with
      txSeq := p.txSeq + 1, held := p.held ++ [g], credits := Tbl.set p.credits c (Tbl.get p.credits c 0 - 1)
      ackAt := if p.held.isEmpty then t.now else p.ackAt }).sendLine n g) s

/-- The longest prefix of a list of packets that needs at most `room` flits. -/
def prefixFor (room : Nat) (acc : List (List Byte)) (len : Nat) : List (List Byte) → List (List Byte)
  | [] => acc
  | p :: ps =>
    let len' := len + p.length
    if (len' + 239) / 240 ≤ room then prefixFor room (acc ++ [p]) len' ps else acc

/-- Sends flits that a retrain has left again, in order, while their channels hold credit (R340, R341). -/
def State.resend (n : Nat) : List Flit → State → State
  | [], s => s.setPort n { s.port n with again := [] }
  | f :: fs, s =>
    let p := s.port n
    let c := f.pvc.toNat
    if Tbl.get p.credits c 0 = 0 then s.setPort n { p with again := f :: fs }
    else State.resend n fs ((s.setPort n { p with credits := Tbl.set p.credits c (Tbl.get p.credits c 0 - 1) }).sendLine n f)

/-- Sends what credit and the replay buffer of 2,048 flits allow of a port's queue (R339, R340), flits that must go again first. -/
def State.pump (s : State) (n : Nat) : State :=
  (List.range 12).foldl (fun (t : State) c =>
    let p := t.port n
    let mine := (p.queue.filter (fun e => e.1 == c)).map (·.2)
    let ps := prefixFor (Nat.min (Tbl.get p.credits c 0) (2048 - p.held.length)) [] 0 mine
    if p.st = .up ∧ p.again.isEmpty ∧ ¬ ps.isEmpty then
      let left := mine.drop ps.length
      (t.setPort n { p with queue := p.queue.filter (fun e => e.1 != c) ++ left.map (fun q => (c, q)) }).sendBatch n c ps
    else t) (if (s.port n).st = .up then s.resend n (s.port n).again else s)

/-- Does a port take packets: it carries flits, or retrains and keeps what it is given? -/
def Port.open' (p : Port) : Bool := p.st == .up || p.st == .retrain

/-- Queues bytes for a channel of a port, and sends what may go. -/
def State.enqueueOn (s : State) (n c : Nat) (bs : List Byte) : State :=
  (s.setPort n { s.port n with queue := (s.port n).queue ++ [(c, bs)] }).pump n

/-- The transaction class of a packet on a local link (R336). (Log 108 DESIGN CHOICE.) -/
def uaClass (p : Packet) : UaClass := match p.ty.toNat with | 0x01 => .read | 0x03 => .atomic | _ => .write

/-- Replaces a local port. -/
def State.setLocal (s : State) (n : Nat) (p : LocalPort) : State := { s with locals := Tbl.set s.locals n p }

/-- A local port sends frames, which its replay buffer already holds (R336). -/
def State.sendFrames (s : State) (n : Nat) (fs : List (Nat × Packet)) : State :=
  fs.foldl (fun (t : State) e => t.send (.frame (uaClass e.2) e.2 n e.1)) s

/-- Hands a packet to a port: channel 3 × class + stage (R334). A port that is down loses it. -/
def State.sendOn (s : State) (global : Bool) (n : Nat) (stage : Nat) (pk : Packet) : State :=
  let c := 3 * pk.tc.toNat + stage
  if global then
    if (s.port n).open' then s.enqueueOn n c pk.bytes else s
  else
    let p := s.localPort n
    if ¬ p.up then s
    else if p.since.isNone then (s.setLocal n { p with held := p.held ++ [(c, pk)] }).send (.frame (uaClass pk) pk n c)
    else s.setLocal n { p with queue := p.queue ++ [(c, pk)] }

/-- The record of a reply or a notification (R382, R384), and of the report of the firmware (R394). (Log 107 DESIGN CHOICE.) -/
def Msg.record : Msg → Option (List Byte)
  | .reply st d => some (Config.replyBytes st d)
  | .note c d => some ((Config.noteBytes c d ++ List.replicate 64 0).take 64)
  | .ready => some Config.readyBytes
  | _ => none

/-- The oldest reply or notification that waits goes to channel 1 of the Ocush link, once that link is there (R340, R382).
(Log 107 DESIGN CHOICE.) -/
def State.ocushSend (s : State) : State :=
  let l := (s.out.drop s.said).dropWhile (fun m => m.record.isNone)
  match l with
  | [] => { s with said := s.out.length }
  | m :: r =>
    if (s.port 255).open' then
      let s1 : State := { s with said := s.out.length - r.length }
      s1.enqueueOn 255 1 (m.record.getD [])
    else { s with said := s.out.length - l.length }

-- Acknowledgement, replay, retraining (R339, R341) -----------------------------------------------------------------------

/-- Frees the held flits up to an acknowledged number and takes returned credit (R338, R339). -/
def State.ackOnly (s : State) (n : Nat) (f : Flit) : State :=
  let p := s.port n
  let c := f.crvc.toNat
  let credits := if f.crn ≠ 0 ∧ c < 12 then Tbl.set p.credits c (Tbl.get p.credits c 0 + f.crn.toNat) else p.credits
  let held := if f.ackv then
      (match p.held.findIdx? (fun h => h.seq == f.ack) with | some i => p.held.drop (i + 1) | none => p.held)
    else p.held
  let moved := decide (held.length < p.held.length)
  s.setPort n { p with
    credits := credits, held := held, ackAt := if moved then s.now else p.ackAt,
    again := p.again.drop (p.again.length - held.length)
    replays := if moved then 0 else p.replays }

/-- Takes an acknowledgement and returned credit, and sends what they allow (R338-R340). -/
def State.ackIn (s : State) (n : Nat) (f : Flit) : State := (s.ackOnly n f).pump n

/-- A control flit of a subtype with its payload after the subtype byte (R340). -/
def ctrlFlit (sub : Nat) (bs : List Byte) : Flit :=
  { Flit.blank with ftype := 2, payload := BitVec.ofNat 8 sub :: bs }

/-- The payload of TS1 from byte 0x09: version, wavelength count, a gap, device id, port number; TS2 adds what was received
in the partner's TS1 (R340). -/
def State.tsFlit (s : State) (n sub : Nat) : Flit :=
  let p := s.port n
  ctrlFlit sub ([1, BitVec.ofNat 8 (portWaves n), 0] ++ leBytes s.fe.devid.toNat 2 ++ [BitVec.ofNat 8 n] ++
    (if sub = 1 then [0] ++ leBytes p.partner.toNat 2 ++ [p.partnerPort] else []))

/-- The credit init flit of a port: 128 flits on each of 12 channels, or on the Ocush port 64 on channels 0 and 1 (R340). -/
def creditFlit (n : Nat) : Flit :=
  ctrlFlit 2 (List.replicate 7 0 ++ ((List.range 12).map (fun c =>
    leBytes (if n = 255 then (if c < 2 then 64 else 0) else 128) 2)).flatten)

/-- Enters RETRAIN (R341). -/
def State.startRetrain (s : State) (n : Nat) : State :=
  let p := s.port n
  (s.setPort n { p with st := .retrain, since := s.now, ts2 := false }).sendFlit n (s.tsFlit n 1)

/-- Sends the held flits again; eight replays without progress start a retrain (R339). (Log 109 DEDUCED.) -/
def State.replayLink (s : State) (n : Nat) : State :=
  let p := s.port n
  let s1 := s.setPort n { p with replays := p.replays + 1, ackAt := s.now }
  if 8 ≤ p.replays + 1 then s1.startRetrain n
  else (p.held.take (p.held.length - p.again.length)).foldl (fun (t : State) f => t.sendLine n f) s1

/-- Answers a bad or unexpected flit with NAK, at most once per microsecond (R339). -/
def State.sendNak (s : State) (n : Nat) : State :=
  let p := s.port n
  if (match p.lastNak with | some t => decide (t + 1000 ≤ s.now) | none => true) then
    (s.setPort n { p with lastNak := some s.now }).sendFlit n { Flit.blank with nak := true }
  else s

/-- Cuts the 64-byte records of the control node from a stream (R382); a last piece of zeros is padding.
(Log 107 DESIGN CHOICE.) -/
def cutRecords : Nat → List Byte → List (List Byte) × List Byte
  | 0, bs => ([], bs)
  | n + 1, bs =>
    if bs.all (fun b => b == 0) then ([], [])
    else if bs.length < 64 then ([], bs)
    else
      let r := cutRecords n (bs.drop 64)
      (bs.take 64 :: r.1, r.2)

/-- EOL_DATA_FLIT (R338, R339): accepted in order, its packets go to the router and its buffer's credit is returned; a bad
CRC, a reserved type or another number is answered with NAK. On the Ocush link channel 0 carries commands (R382). -/
def execEolDataFlit (port : Nat) (fl : Flit) (s : State) : Host.Outcome State Fault Refusal :=
  let p := s.port port
  if p.st ≠ .up then .next s
  else if ¬ fl.good ∨ fl.ftype ≠ 1 ∨ fl.seq ≠ p.rxNext then .next (s.sendNak port)
  else
    let c := fl.pvc.toNat
    let old := if fl.first = 0 then [] else Tbl.get p.stream c []
    let (evs, left) : List Turn × List Byte :=
      if port = 255 then
        let (rs, l) := cutRecords 8 (old ++ fl.payload)
        (if c = 0 then rs.map Turn.record else [], l)
      else
        let (ps, l) := cutPackets 16 (old ++ fl.payload)
        (ps.map (fun k => Turn.packet k true (c % 3)), l)
    let s1 := (s.setPort port { p with rxNext := p.rxNext + 1, stream := Tbl.set p.stream c left }).ackIn port fl
    let s2 := s1.sendFlit port { Flit.blank with crvc := fl.pvc, crn := 1 }
    .next { s2 with agenda := s2.agenda ++ evs }

/-- IDLE_FLIT (R338): its acknowledgement and credit return act on the transmitter. -/
def execIdleFlit (port : Nat) (fl : Flit) (s : State) : Host.Outcome State Fault Refusal :=
  let p := s.port port
  if p.st ≠ .up then .next s
  else if fl.good then .next (s.ackIn port fl)
  else .next (s.sendNak port)

/-- EOL_NAK (R339): the transmitter sends again from ACK + 1. -/
def execEolNak (port : Nat) (fl : Flit) (s : State) : Host.Outcome State Fault Refusal :=
  if (s.port port).st = .up ∧ fl.good ∧ fl.nak then
    .next (((s.ackOnly port fl).replayLink port).pump port)
  else .next s

/-- EOL_REPLAY_TIMEOUT (R339): 4 µs without progress of ACK. -/
def execEolReplayTimeout (port : Nat) (s : State) : Host.Outcome State Fault Refusal :=
  let p := s.port port
  if p.st = .up ∧ ¬ p.held.isEmpty ∧ p.ackAt + 4000 ≤ s.now then .next (s.replayLink port) else .next s

/-- TS1 (R341): a DOWN port with lock on every wavelength trains with a partner of its version and wavelength count. -/
def execTs1 (port : Nat) (fl : Flit) (s : State) : Host.Outcome State Fault Refusal :=
  let p := s.port port
  if fl.good ∧ p.st = .down ∧ fl.ctl 9 = 1 ∧ (fl.ctl 0x0A).toNat = portWaves port ∧ p.lockedAll port then
    let s1 := s.setPort port { p with
      st := .train, failed := false, since := s.now
      partner := BitVec.ofNat 16 (leNat [fl.ctl 0x0C, fl.ctl 0x0D]), partnerPort := fl.ctl 0x0E }
    .next (s1.sendFlit port (s1.tsFlit port 1))
  else .next s

/-- TS1_TIMER (R341): a DOWN port sends TS1 every microsecond. -/
def execTs1Timer (port : Nat) (s : State) : Host.Outcome State Fault Refusal :=
  let p := s.port port
  if p.st = .down ∧ p.lastTs1 + 1000 ≤ s.now then
    .next ((s.setPort port { p with lastTs1 := s.now }).sendFlit port (s.tsFlit port 0))
  else .next s

/-- TS2 (R341): a training port exchanges credits, with link SEQ starting at 0; a retraining one keeps its numbers.
(Log 109 DEDUCED.) -/
def execTs2 (port : Nat) (fl : Flit) (s : State) : Host.Outcome State Fault Refusal :=
  let p := s.port port
  if ¬ fl.good then .next s
  else match p.st with
    | .train =>
      .next ((s.setPort port { p with
        st := .credit, txSeq := 0, rxNext := 0, held := [], again := [], stream := [], lastNak := none, replays := 0 }).sendFlit port
          (creditFlit port))
    | .retrain => .next ((s.setPort port { p with ts2 := true }).sendFlit port (creditFlit port))
    | _ => .next s

/-- CREDIT_INIT (R341): with the partner's credits the port is UP; after a retrain it replays from ACK + 1, each flit on credit
(R340). (Log 109 DEDUCED.) -/
def execCreditInit (port : Nat) (fl : Flit) (s : State) : Host.Outcome State Fault Refusal :=
  let p := s.port port
  let cs := (List.range 12).map (fun c => (c, leNat [fl.ctl (0x10 + 2 * c), fl.ctl (0x11 + 2 * c)]))
  let p1 := { p with
    st := .up, credits := cs, again := p.held, retrains := 0, replays := 0, ackAt := s.now, ts2 := false, since := s.now }
  if fl.good ∧ (p.st = .credit ∨ (p.st = .retrain ∧ p.ts2)) then .next ((s.setPort port p1).pump port) else .next s

/-- TRAIN_TIMEOUT (R341): TRAIN ends after 10 µs; the third RETRAIN that does leaves the port failed, its flits and packets
discarded. -/
def execTrainTimeout (port : Nat) (s : State) : Host.Outcome State Fault Refusal :=
  let p := s.port port
  if s.now < p.since + 10000 then .next s
  else match p.st with
    | .train => .next (s.setPort port { p with st := .down, since := s.now })
    | .retrain =>
      if 3 ≤ p.retrains + 1 then
        .next (s.setPort port { p with
          st := .down, failed := true, retrains := 0, held := [], again := [], queue := [], stream := [], replays := 0, since := s.now })
      else .next ((s.setPort port { p with retrains := p.retrains + 1 }).startRetrain port)
    | _ => .next s

/-- FEC_LOCK_LOSS (R341): 1 µs without FEC lock sends an UP port to RETRAIN. -/
def execFecLockLoss (port : Nat) (s : State) : Host.Outcome State Fault Refusal :=
  let p := s.port port
  if p.st = .up ∧ ¬ p.lockedAll port ∧ p.since + 1000 ≤ s.now then .next (s.startRetrain port) else .next s

/-- A received flit takes effect: one that fails its CRC is answered with NAK in UP and dropped else (R339); then an acknowledgement
that asks for replay, and the flit by its type (R338). (Log 109 DEDUCED.) -/
def State.flitArrives (s : State) (port : Nat) (f : Flit) : Host.Outcome State Fault Refusal :=
  let go := fun (t : State) => match f.ftype.toNat with
    | 0 => execIdleFlit port f t
    | 2 => (match (f.payload.headD 0).toNat with
        | 0 => execTs1 port f t | 1 => execTs2 port f t | _ => execCreditInit port f t)
    | _ => execEolDataFlit port f t
  if !f.good then .next (if (s.port port).st = .up then s.sendNak port else s)
  else if f.nak then
    (match execEolNak port f s with
     | .next t =>
       (match f.ftype.toNat with
        | 0 => .next t
        | 1 => execEolDataFlit port { f with crn := 0 }.seal t
        | _ => go t)
     | r => r)
  else go s

/-- CODEWORD (R340): a codeword of a wavelength, none if it does not decode, else its frame word and its 640 bytes of slices.
Eight good ones in a row give FEC lock, four bad ones lose it; with the slices of every wavelength for one count, the flits
are reassembled. -/
def execCodeword (port wave : Nat) (msg : Option (BitVec 20 × List Byte)) (s : State) : Host.Outcome State Fault Refusal :=
  let p := s.port port
  let n := portWaves port
  let w := Tbl.get p.waves wave Wave.dark
  let next := (w.count + 1) % 4096
  if n ≤ wave then .next s
  else
    let shape := match msg with
      | some (f, _) => bitsN f.toNat 0 4 == wave && bitsN f.toNat 4 4 == 0xA
      | none => false
    let cnt := match msg with | some (f, _) => bitsN f.toNat 8 12 | none => next
    let inRow := cnt == next || (w.good == 0 && !w.locked)
    let w1 : Wave :=
      if shape && inRow then { locked := w.locked || decide (8 ≤ w.good + 1), good := w.good + 1, bad := 0, count := cnt }
      else if w.locked then
        (if 4 ≤ w.bad + 1 then Wave.dark else { w with good := 0, bad := w.bad + 1, count := next })
      else if shape then { locked := false, good := 1, bad := 0, count := cnt }
      else Wave.dark
    let since := if p.st = .up ∧ p.lockedAll port ∧ ¬ w1.locked then s.now else p.since
    let slices := match msg with
      | some (_, bs) => if shape && inRow && w1.locked then (((cnt, wave), bs) :: p.slices).take 256 else p.slices
      | none => p.slices
    let have' := (List.range n).all (fun k => Tbl.has slices (cnt, k))
    if have' then
      let sz := 256 / n
      let flits := (List.range (640 / sz)).map (fun i =>
        Flit.ofBytes ((List.range n).map (fun k => ((Tbl.get slices (cnt, k) []).drop (i * sz)).take sz)).flatten)
      let s1 := s.setPort port { p with
        waves := Tbl.set p.waves wave w1, since := since, slices := slices.filter (fun e => e.1.1 != cnt) }
      .next { s1 with agenda := s1.agenda ++ flits.map (fun f => Turn.flit port f) }
    else .next (s.setPort port { p with waves := Tbl.set p.waves wave w1, since := since, slices := slices })

/-- Is a UALink frame handed to the router? One with a bad CRC is not: its link sends it again. One of a class that is not its
packet's, or of another class, is discarded (R336). (Log 108 DESIGN CHOICE.) -/
def State.frameOk (s : State) (port : Nat) (cls : UaClass) (good : Bool) (p : Packet) : Bool :=
  (s.localPort port).up && good && cls == uaClass p

/-- A frame reaches a local port whose CRC fails: the port asks for it again (R336). (Log 108 DESIGN CHOICE.) -/
def State.frameBad (s : State) (port : Nat) : State := if (s.localPort port).up then s.send (.askAgain port) else s

/-- The partner of a local port has acknowledged its oldest frames, and asks for the others again or not: link-level replay (R336).
(Log 108 DESIGN CHOICE.) -/
def State.frameReply (s : State) (port n : Nat) (again : Bool) : State :=
  let p := s.localPort port
  let s1 := s.setLocal port { p with held := p.held.drop n }
  if again ∧ p.up ∧ p.since.isNone then s1.sendFrames port (p.held.drop n) else s1

/-- LOCAL_PORT_RETRAIN (R336): a retrain of a UALink port begins; it succeeds within 10 µs with a partner of four lanes, when the
replay buffer and the transmit queue go out; at 10 µs it has failed. The third failure in a row takes the port down and discards
its frames, else it trains again. (Log 108 DESIGN CHOICE.) -/
def execLocalPortRetrain (port : Nat) (ev : UaTrain) (s : State) : Host.Outcome State Fault Refusal :=
  let p := s.localPort port
  match ev, p.since with
  | .start, none => .next (s.setLocal port { p with since := some s.now })
  | .answer w, some z =>
    if w = 4 ∧ s.now ≤ z + 10000 then
      .next ((s.setLocal port { p with up := true, fails := 0, since := none, held := p.held ++ p.queue, queue := [] }).sendFrames
        port (p.held ++ p.queue))
    else .next s
  | .timeout, some z =>
    if s.now < z + 10000 then .next s
    else if 3 ≤ p.fails + 1 then .next (s.setLocal port { LocalPort.down with other := p.other })
    else .next (s.setLocal port { p with fails := p.fails + 1, since := some s.now })
  | _, _ => .next s

end Sys2Proof.Machine
end

