-- ==== Sys2Proof/Machine/FabOps.lean ====
section
/-!
DEFINITION. The shared operations of the fabric engine: routes, sending and answering packets, the windows of a target, dead
peers, receive counters, and what is owed after a GWCT (R333-R335, R342-R351, R354).
-/
namespace Sys2Proof.Machine

-- Routes (R335) -------------------------------------------------------------------------------------------------------

/-- Group of a device id. -/
def groupOf (d : BitVec 16) : Nat := d.toNat / 32
/-- Member of a device id. -/
def memberOf (d : BitVec 16) : Nat := d.toNat % 32

/-- The via members of a route within a group: those of `md + 4, md + 8, …` that are present and neither end. -/
def State.vias (s : State) (ms md : Nat) : List Nat :=
  ((List.range 7).map (fun i => (md + 4 * (i + 1)) % 32)).filter (fun m => s.fe.members.getLsbD m && m != ms && m != md)

/-- The intermediate group of a Valiant route: the first after the destination group, wrapping, that is neither end and has
gateways. Groups that do not exist have none. (Log 104 DEDUCED.) -/
def State.valiantGroup (s : State) (gs gd : Nat) : Option Nat :=
  ((List.range 2047).map (fun i => (gd + 1 + i) % 2048)).find? (fun g => g != gs && g != gd && !(s.gatewaysTo g).isEmpty)

/-- VAL, MID and VIAM of a packet of this device on a route; none where the route does not exist. (Log 104 DEDUCED.) -/
def State.routeFields (s : State) (dst : BitVec 16) (r : Nat) : Option (Bool × Nat × Nat) :=
  let ms := memberOf s.fe.devid
  let md := memberOf dst
  if groupOf dst = groupOf s.fe.devid then
    (if r = 1 then some (false, 0, 0) else ((s.vias ms md)[r - 2]?).map (fun m => (false, 0, m)))
  else if (s.gatewaysTo (groupOf dst)).isEmpty then none
  else if r = 3 then
    (match s.valiantGroup (groupOf s.fe.devid) (groupOf dst) with
     | some g => some (true, g, 0)
     | none => some (false, 0, 0))
  else some (false, 0, 0)

/-- The port by which this device passes a packet on: global or local, and its number (R335). -/
def State.nextHop (s : State) (p : Packet) : Option (Bool × Nat) :=
  let g := groupOf s.fe.devid
  let m := memberOf s.fe.devid
  let ms := memberOf p.src
  let md := memberOf p.dst
  let toMember := fun (k : Nat) => (false, 2 * k + p.seq.toNat % 2)
  if groupOf p.dst = g ∧ ¬ p.val then
    if groupOf p.src = g ∧ m = ms ∧ p.route ≠ 1 then some (toMember p.viam.toNat) else some (toMember md)
  else
    let gws := s.gatewaysTo (if p.val then p.mid.toNat else groupOf p.dst)
    if gws.isEmpty then none
    else
      let k := (ms + md) + (if p.val ∨ groupOf p.src ≠ g then 0 else p.route.toNat - 1)
      (gws[k % gws.length]?).map (fun e => if e.1 = m then (true, e.2) else toMember e.1)

/-- Is a port up? -/
def State.hopUp (s : State) (h : Bool × Nat) : Bool :=
  if h.1 then (s.port h.2).st == .up || (s.port h.2).st == .retrain else (s.localPort h.2).up

/-- A packet set on a route, if the route exists. -/
def State.onRoute (s : State) (p : Packet) (r : Nat) : Option Packet :=
  (s.routeFields p.dst r).map (fun f =>
    { p with route := BitVec.ofNat 2 r, val := f.1, mid := BitVec.ofNat 11 f.2.1, viam := BitVec.ofNat 5 f.2.2 })

/-- The lowest-numbered route from `r` whose first hop leaves by a port that is up (R348), with the hop.
(Log 79 DEDUCED, 104 DEDUCED.) -/
def State.pickRoute (s : State) (p : Packet) (r : Nat) : Option (Packet × Bool × Nat) :=
  ([1, 2, 3].filter (fun k => decide (r ≤ k))).findSome? (fun k =>
    (s.onRoute p k).bind (fun q => (s.nextHop q).bind (fun h => if s.hopUp h then some (q, h) else none)))

/-- Puts a packet on its way; a packet to this device arrives at its own router, and one without a way is lost.
(Log 101 DEDUCED.) -/
def State.launchPacket (s : State) (p : Packet) (r : Nat) : State :=
  if p.dst = s.fe.devid then { s with agenda := s.agenda ++ [.packet { p with route := 1 } false 0] }
  else match s.pickRoute p r with
    | some (q, g, n) => s.sendOn g n 0 q
    | none => s

/-- PACKET_FORWARD (R334, R335): a transit packet leaves by its next hop; VAL clears on entering group MID, and the stage
rises after a global link and out of a via member. (Log 79 DEDUCED.) -/
def execPacketForward (p : Packet) (arrivedGlobal : Bool) (stage : Nat) (s : State) : Host.Outcome State Fault Refusal :=
  if p.dst = s.fe.devid then .next s
  else
    let q := if p.val ∧ groupOf s.fe.devid = p.mid.toNat then { p with val := false } else p
    let out := arrivedGlobal || (groupOf p.src == groupOf p.dst && p.route != 1 && memberOf s.fe.devid == p.viam.toNat)
    match s.nextHop q with
    | some (g, n) => .next (if s.hopUp (g, n) then s.sendOn g n (stage + (if out then 1 else 0)) q else s)
    | none => .next s

-- Answers (R344) ------------------------------------------------------------------------------------------------------

/-- An answer to a packet: DST and SRC exchanged, its SEQ and TAG, class 1. -/
def answerTo (p : Packet) (ty : BitVec 8) : Packet :=
  { p with dst := p.src, src := p.dst, ty := ty, tc := 1, route := 0, val := false, dup := false, mid := 0, viam := 0,
           len := 0, addr := 0, aux := 0, rsv := 0, payload := [], trailer := [] }

/-- The acknowledgement of a packet: AUX its class. -/
def ackOf (p : Packet) (dup : Bool) : Packet :=
  { answerTo p 0x11 with dup := dup, aux := p.tc.setWidth 32 }

/-- A refusal: AUX the reason and the class (R344, R351). (Log 98 DEDUCED.) -/
def refusalOf (p : Packet) (reason : Nat) : Packet :=
  { answerTo p 0x16 with aux := BitVec.ofNat 32 (reason + p.tc.toNat * 256) }

/-- The FE's copy of lease time. -/
def State.feTime (s : State) : Nat := s.lease 2048

/-- The remaining wait of R85, saturating. -/
def State.remaining (s : State) (wvt : Nat) : Word := BitVec.ofNat 32 (Nat.min (wvt - s.feTime) 0xFFFFFFFF)

-- The windows of a target (R345, R346, R351) ----------------------------------------------------------------------------

/-- Types, classes and reserved bits as R343 has them. (Log 99 DEDUCED.) -/
def formed (p : Packet) : Bool :=
  let c := match p.ty.toNat with
    | 1 | 2 | 3 | 9 => some 0 | 4 | 5 | 6 | 7 => some 2 | 8 => some 3
    | n => if 0x10 ≤ n ∧ n ≤ 0x16 then some 1 else none
  p.rsv == 0 && c == some p.tc.toNat && p.route != 0

/-- A target's window for a source and class: L and the numbers received above it. -/
def State.window (s : State) (p : Packet) : BitVec 16 × List Nat := Tbl.get s.fe.rx (p.src, p.tc) (0, [])

/-- Offset δ of a packet's number in its window. -/
def State.delta (s : State) (p : Packet) : Nat := (p.seq - (s.window p).1).toNat

/-- Is the packet a duplicate (R346)? -/
def State.isDup (s : State) (p : Packet) : Bool :=
  decide (4096 ≤ s.delta p) || (s.window p).2.contains (s.delta p)

/-- Is no bitmap free for the packet's pair: it would make a hole, and 4,096 other pairs have one? -/
def State.noBitmap (s : State) (p : Packet) : Bool :=
  decide (s.delta p ≠ 0) && (s.window p).2.isEmpty && decide (4096 ≤ (s.fe.rx.filter (fun e => !e.2.2.isEmpty)).length)

/-- Advances L over the numbers received. -/
def slideWindow : Nat → BitVec 16 → List Nat → BitVec 16 × List Nat
  | 0, l, bs => (l, bs)
  | n + 1, l, bs => if bs.contains 0 then slideWindow n (l + 1) ((bs.filter (· ≠ 0)).map (· - 1)) else (l, bs)

/-- Marks a packet's number received (R346). -/
def State.markSeq (s : State) (p : Packet) : State :=
  let (l, bs) := s.window p
  { s with fe := { s.fe with rx := Tbl.set s.fe.rx (p.src, p.tc) (slideWindow 4097 l (s.delta p :: bs)) } }

/-- What a target does with a sequenced packet before its effect. -/
inductive Taken where
  | drop (s : State)
  | dup
  | fresh
deriving DecidableEq, Repr

/-- Discards a malformed packet and counts it in FEDISC (R343). -/
def State.discard (s : State) : State := { s with fe := { s.fe with disc := s.fe.disc + 1 } }

/-- Are packets of this device discarded: it is dead, or its resynchronisation is not acknowledged (R349, R366)? -/
def State.shunned (s : State) (d : BitVec 16) : Bool := s.fe.dead.contains d || s.fe.resync.any (fun e => e.1 == d)

/-- The refusal of R351 for a packet, if any: its pair registered, its context not killed, its address in HBM.
(Log 97 DEDUCED.) -/
def State.refuses (s : State) (p : Packet) : Option Nat :=
  match s.ctxs.find? (fun e => e.1 == p.sctx) with
  | none => some 1
  | some (_, c) =>
    if !c.share.contains p.src then some 1
    else if !c.live then some 5
    else
      let n := match p.ty.toNat with | 1 => 32 * (bitsN p.aux.toNat 0 3 + 1) | 2 | 3 => 32 | 6 | 7 => p.aux.toNat | _ => p.len.toNat
      if p.ty ≠ 8 ∧ p.ty ≠ 9 ∧ hbmEnd < p.addr.toNat + Nat.max n 1 then some 2 else none

/-- Takes a sequenced packet of a type (R343, R346, R349, R351). A refused packet's number counts as received; a copy of it is
refused again. (Log 98 DEDUCED, 99 DEDUCED.) -/
def State.receive (s : State) (p : Packet) (tys : List Nat) : Taken :=
  if p.dst ≠ s.fe.devid then .drop s
  else if !formed p || !tys.contains p.ty.toNat then .drop s.discard
  else if s.shunned p.src then .drop s
  else if !s.isDup p && s.noBitmap p then .drop s
  else match s.refuses p with
    | some r => .drop ((if s.isDup p then s else s.markSeq p).launchPacket (refusalOf p r) 1)
    | none => if s.isDup p then .dup else .fresh

/-- Does a packet answer a resynchronisation of this device: its number and its tag (R344, R366)? -/
def State.answersResync (s : State) (p : Packet) : Bool :=
  s.fe.tx.any (fun t => t.pkt.dst == p.src && t.pkt.ty == 9 && t.pkt.aux.setWidth 8 == 3#8 && t.pkt.seq == p.seq && t.pkt.tag == p.tag)

/-- Does a response packet of a type reach this device well formed, and from a peer that is heard: it is not dead, and until its
resynchronisation is acknowledged only that answer is heard (R343, R349, R366)? -/
def State.hears (s : State) (p : Packet) (ty : Nat) : Bool :=
  p.dst == s.fe.devid && formed p && p.ty.toNat == ty && !s.fe.dead.contains p.src &&
  (!s.fe.resync.any (fun e => e.1 == p.src) || s.answersResync p)

-- What is owed (R101, R347) ---------------------------------------------------------------------------------------------

/-- Adds an answer, or an effect of a local transfer, that waits for its GWCT. (Log 102 DEDUCED.) -/
def State.owe (s : State) (o : Owed) : State :=
  { s with nextId := s.nextId + 1, fe := { s.fe with owed := s.fe.owed ++ [{ o with id := s.nextId }] } }

/-- Nothing owed. -/
def Owed.none : Owed := { id := 0, reply := .none, gwct := 0, landed := [], queue := .none, op := 0, len := 0, read := .none, say := .none }

/-- Advances a workgroup's receive counter, saturating (R354). -/
def State.advance (s : State) (wg counter n : Nat) : State :=
  let w := s.wg wg
  let c := Tbl.get w.counters counter { value := 0, region := Option.none }
  if w.live then
    s.setWg wg { w with counters := Tbl.set w.counters counter { c with
      value := BitVec.ofNat 32 (Nat.min (c.value.toNat + n) 0xFFFFFFFF) } }
  else s

/-- Counts landed bytes in the regions they fall into (R354). -/
def State.countLanded (s : State) (pa n : Nat) : State :=
  s.fe.regions.foldl (fun (t : State) r =>
    let lo := Nat.max pa r.pa
    let hi := Nat.min (pa + n) (r.pa + r.len)
    if lo < hi then t.advance r.wg r.counter (hi - lo) else t) s

/-- An operation that has failed completes when every request of it is done and none of its packets is unanswered or unpaid (R93).
(Log 81 DEDUCED.) -/
def State.failDone (s : State) (id : Nat) : State :=
  match s.op id with
  | some o =>
    if o.fault.isSome && o.parts.all (fun p => p.st == .done) && !s.fe.tx.any (fun t => t.op == id) &&
        !s.fe.owed.any (fun x => x.op == id) then s.settle o
    else s
  | .none => s

/-- Ends an operation with a fault, the first that it meets: its packets that wait to be sent are gone, those on their way are still
waited for (R93). (Log 81 DEDUCED, 84 DEDUCED.) -/
def State.feFail (s : State) (o : Op) (cause : BitVec 8) (detail : Nat) (addr : DWord) : State :=
  let fr := o.fault.getD (o.faultRec cause detail addr 0 none)
  let s1 : State := { s with fe := { s.fe with tx := s.fe.tx.filter (fun t => !(t.op == o.id && t.st == .waiting)) } }
  (s1.setOp { o with sticky := if cause = 0x24 then o.sticky ||| flGUARD else o.sticky, fault := some fr }).failDone o.id

/-- Ends the requests of an operation that `bad` names with a fault, the first that the operation meets; its other requests go on
(R93, R351). -/
def State.failParts (s : State) (o : Op) (bad : Nat → Part → Bool) (cause : BitVec 8) (detail : Nat) (addr : DWord) : State :=
  (s.setOp { o with
    parts := o.parts.zipIdx.map (fun e => if bad e.2 e.1 then { e.1 with st := .done } else e.1)
    fault := some (o.fault.getD (o.faultRec cause detail addr 0 none)) }).failDone o.id

/-- The operation a transfer's packet serves makes progress by `n` bytes; it completes when every byte is acknowledged or
written, or, once it has failed, when none is on its way. -/
def State.xferAck (s : State) (id n : Nat) : State :=
  match s.op id with
  | some o =>
    (match o.kind with
     | .xfer x =>
       let x1 := { x with acked := x.acked + n }
       let o1 := { o with kind := .xfer x1 }
       if o.fault.isSome then (s.setOp o1).failDone id
       else if x1.acked = x1.len ∧ x1.sent = x1.len then (s.setOp o1).settle o1 else s.setOp o1
     | _ => s)
  | .none => s

/-- Pays what is owed: landings are counted, a queue's counter advances, the answer is sent or the local transfer goes on.
(Log 95 DEDUCED.) -/
def State.pay (s : State) (o : Owed) : State :=
  let s1 := { s with fe := { s.fe with owed := s.fe.owed.filter (fun x => x.id ≠ o.id) } }
  let s2 := o.landed.foldl (fun (t : State) e => t.countLanded e.1 e.2) s1
  let s3 := match o.queue with
    | some (q, j) =>
      (match s2.fe.queues.find? (fun e => e.1 == q) with
       | some (_, m) =>
         let t : State := { s2 with fe := { s2.fe with
           queues := Tbl.set s2.fe.queues q { m with slots := Tbl.set m.slots j MSlot.filled } } }
         (match m.cnt with | some c => t.advance m.wg c 1 | none => t)
       | .none => s2)
    | .none => s2
  let s4 := match o.reply with | some p => s3.launchPacket p 1 | .none => s3
  let s4 := match o.say with | some m => s4.send m | .none => s4
  if o.op = 0 then s4 else s4.xferAck o.op o.len

/-- Owes an answer until a GWCT, or sends it at once if the time has come (R101, R347). -/
def State.answerAfter (s : State) (o : Owed) : State :=
  if o.gwct ≤ s.feTime then s.pay { o with id := 0 } else s.owe o

-- Dead peers (R349) -----------------------------------------------------------------------------------------------------

/-- The first byte of a get's packet that has not arrived, from the byte `at'` on. -/
def firstGap : Nat → List (Nat × Nat) → Nat → Nat
  | 0, _, at' => at'
  | n + 1, got, at' =>
    match got.find? (fun e => decide (e.1 ≤ at') && decide (at' < e.1 + e.2)) with
    | some e => firstGap n got (e.1 + e.2)
    | none => at'

/-- The committed offset of a transfer: the bytes below which every destination byte is written, so everything before its first
packet, or local piece, that is not answered or written, and before the first byte that waits for its unit (R360). -/
def State.committed (s : State) (id : Nat) (x : XferArgs) : Nat :=
  let n := (s.fe.tx.filter (fun t => t.op == id)).foldl (fun n t => Nat.min n (t.part + firstGap t.got.length t.got 0)) x.sent
  if x.get then x.hold.foldl (fun n e => Nat.min n e.1) n else n

/-- Does an operation that is not complete involve a peer? -/
def Op.involves (o : Op) (d : BitVec 16) : Bool :=
  (match o.kind with
   | .xfer x | .tsend x _ _ => (x.dst ++ x.src).any (fun r => match r.loc with | .peer e _ => e == d | _ => false)
   | .msend dev _ _ _ => dev == d
   | _ => false) ||
  o.parts.any (fun p => p.st != .done && (match p.loc with | .peer e _ => e == d | _ => false))

/-- DETAIL of a dead peer: the device id in bits 23:8 (R369). -/
def deadDetail (d : BitVec 16) : Nat := d.toNat * 256

/-- Marks a peer dead, as one action (R105, R349, R366): its packets go, its operations fail, system-scope fences that wait
on it and a `PEER.CLR` in progress fault, the control node is told. (Log 33 DESIGN CHOICE.) -/
def State.markDead (s : State) (d : BitVec 16) : State :=
  let gone := s.ops.filter (fun o => o.involves d)
  let clears := s.fe.resync.filter (fun e => e.1 == d)
  let fences := s.fibres.filterMap (fun e =>
    match e.2.fence with
    | some fe =>
      if e.2.st ≠ FSt.absent ∧ e.2.st ≠ FSt.frozen ∧ fe.scope = .system ∧
         gone.any (fun o => Tbl.has o.holders e.2.fid && decide (Tbl.get o.holders e.2.fid 0 < fe.mark) && (o.cls &&& fe.pred) != 0)
      then some (e.1, fe.pc) else none
    | .none => none)
  let s1 : State := { s with fe := { s.fe with
    dead := d :: s.fe.dead.filter (· ≠ d), tx := s.fe.tx.filter (fun t => t.pkt.dst ≠ d)
    resync := s.fe.resync.filter (fun e => e.1 ≠ d) } }
  let s2 := gone.foldl (fun (t : State) o =>
    let its := fun (p : Part) => p.st != .done && (match p.loc with | .peer e _ => e == d | _ => false)
    match t.op o.id, o.kind with
    | .none, _ => t
    | some _, .load .none => t.dropOp o.id
    | some u, .xfer x => t.feFail u 0x50 (deadDetail d) (x.dva + BitVec.ofNat 64 (s.committed o.id x))
    | some u, .tsend x _ _ => t.feFail u 0x50 (deadDetail d) x.dva
    | some u, .msend .. => t.feFail u 0x50 (deadDetail d) 0
    | some u, _ => t.failParts u (fun _ p => its p) 0x50 (deadDetail d) (((o.parts.find? its).map (·.va)).getD 0)) s1
  let s3 := fences.foldl (fun (t : State) e => t.freeze e.1 (faultAt e.2 0x50 (deadDetail d) 0 0 none)) s2
  let s4 := clears.foldl (fun (t : State) e =>
    let f := t.fib e.2.1
    if f.fid = e.2.2 ∧ f.st = FSt.ready then t.freeze e.2.1 (faultAt f.unitPc 0x50 (deadDetail d) 0 0 none) else t) s3
  s4.send (.note 0x84 [d.setWidth 64])

/-- The packet of this source that an answer belongs to: its number, class and destination. -/
def State.txFor (s : State) (p : Packet) (tcs : List Nat) : Option TxPkt :=
  s.fe.tx.find? (fun t => t.pkt.dst == p.src && t.pkt.seq == p.seq && tcs.contains t.pkt.tc.toNat && t.st != .waiting)

/-- Releases a packet from the retry buffer (R345, R347). -/
def State.dropTx (s : State) (id : Nat) : State := { s with fe := { s.fe with tx := s.fe.tx.filter (fun t => t.id ≠ id) } }

/-- Replaces a packet of this source. -/
def State.setTx (s : State) (t : TxPkt) : State :=
  { s with fe := { s.fe with tx := s.fe.tx.map (fun x => if x.id = t.id then t else x) } }

end Sys2Proof.Machine
end

