-- ==== Sys2Proof/Decode.lean ====
section
/-!
DEFINITION. The decoder and the encoder of instruction words (R32-R48). A word is a number below 2^32; `bitsOf w hi lo` is
its field hi..lo (R5). `decodeWord` finds the opcode table's row by the major opcode and the fixed bits; a word no row
matches is rejected by a name that says why. Field values that a rule forbids in a row's variable bits are the business of
`wellFormed`: such a word decodes, and its instruction raises illegal instruction when it issues (R47).
-/
namespace Sys2Proof

/-- Why a word is no instruction. -/
inductive DecodeError where
  /-- The word list is empty. -/
  | noWord
  /-- Majors 0x0E, 0x0F, 0x2D-0x2F, 0x3D-0x3F, 0x5F, 0x63, 0x76-0x7B, 0x7E: no instruction has them (R48). -/
  | reservedMajor
  /-- A reserved minor code, or a bit that must be zero is set (R34, R35, R48). -/
  | reservedField
  /-- Major 0x7F: a clause header is no instruction (R38). -/
  | header
  /-- A `LIMM` word with a K other than 0b00 or a set bit in 22:0 (R43). -/
  | badLimm
  /-- A `LIMM` word without its data word. -/
  | limmWithoutData
deriving DecidableEq, Repr

/-- Bits hi..lo of a word. -/
def bitsOf (w hi lo : Nat) : Nat := w / 2 ^ lo % 2 ^ (hi - lo + 1)

/-- Bits hi..lo of a word as a field of n bits. -/
def fieldOf {n : Nat} (w hi lo : Nat) : BitVec n := BitVec.ofNat n (bitsOf w hi lo)

/-- The major opcode (R32). -/
def majorOf (w : Nat) : Nat := bitsOf w 31 25

/-- The rows of major 0x00 (R48). -/
def decodeMajor00 (w : Nat) : Option Instr :=
  if bitsOf w 24 16 = 0 then some (.bra (fieldOf w 15 0)) else
  if bitsOf w 24 22 = 1 then some (.braZ (fieldOf w 21 16) (fieldOf w 15 0)) else
  if bitsOf w 24 22 = 2 then some (.braNz (fieldOf w 21 16) (fieldOf w 15 0)) else
  if bitsOf w 24 22 = 3 then some (.braLt (fieldOf w 21 16) (fieldOf w 15 0)) else
  if bitsOf w 24 22 = 4 then some (.braGe (fieldOf w 21 16) (fieldOf w 15 0)) else
  if bitsOf w 24 19 = 40 then some (.braAll (fieldOf w 18 16) (fieldOf w 15 0)) else
  if bitsOf w 24 19 = 48 then some (.braAny (fieldOf w 18 16) (fieldOf w 15 0)) else
  none

/-- The rows of major 0x01 (R48). -/
def decodeMajor01 (w : Nat) : Option Instr :=
  if bitsOf w 21 19 = 0 ∧ bitsOf w 24 23 = 0 then some (.brp (fieldOf w 22 22) (fieldOf w 18 16) (fieldOf w 15 0)) else
  none

/-- The rows of major 0x02 (R48). -/
def decodeMajor02 (w : Nat) : Option Instr :=
  if bitsOf w 24 22 = 0 then some (.call (fieldOf w 21 16) (fieldOf w 15 0)) else
  none

/-- The rows of major 0x03 (R48). -/
def decodeMajor03 (w : Nat) : Option Instr :=
  if bitsOf w 24 22 = 0 then some (.brx (fieldOf w 21 16) (fieldOf w 15 0)) else
  none

/-- The rows of major 0x04 (R48). -/
def decodeMajor04 (w : Nat) : Option Instr :=
  if bitsOf w 15 0 = 0 ∧ bitsOf w 24 22 = 0 then some (.ret (fieldOf w 21 16)) else
  none

/-- The rows of major 0x05 (R48). -/
def decodeMajor05 (w : Nat) : Option Instr :=
  if bitsOf w 17 0 = 0 ∧ bitsOf w 24 22 = 0 then some (.jset (fieldOf w 21 18)) else
  if bitsOf w 17 0 = 0 ∧ bitsOf w 24 22 = 1 then some (.join (fieldOf w 21 18)) else
  if bitsOf w 17 0 = 0 ∧ bitsOf w 24 22 = 2 then some (.waitj (fieldOf w 21 18)) else
  none

/-- The rows of major 0x06 (R48). -/
def decodeMajor06 (w : Nat) : Option Instr :=
  if bitsOf w 24 21 = 0 then some (.fork (fieldOf w 20 15) (fieldOf w 14 9) (fieldOf w 8 3) (fieldOf w 2 0)) else
  if bitsOf w 24 0 = 2097152 then some (.fend) else
  if bitsOf w 24 0 = 4194304 then some (.fyield) else
  if bitsOf w 8 0 = 0 ∧ bitsOf w 24 15 = 192 then some (.fsync (fieldOf w 14 9)) else
  if bitsOf w 8 0 = 1 ∧ bitsOf w 24 15 = 192 then some (.fsyncM (fieldOf w 14 9)) else
  if bitsOf w 8 0 = 0 ∧ bitsOf w 24 15 = 256 then some (.fresume (fieldOf w 14 9)) else
  if bitsOf w 2 0 = 1 ∧ bitsOf w 24 15 = 256 then some (.fresumePc (fieldOf w 14 9) (fieldOf w 8 3)) else
  if bitsOf w 8 0 = 2 ∧ bitsOf w 24 15 = 256 then some (.fresumeEnd (fieldOf w 14 9)) else
  if bitsOf w 8 0 = 0 ∧ bitsOf w 24 21 = 5 then some (.fstatMask (fieldOf w 20 15) (fieldOf w 14 9)) else
  if bitsOf w 8 0 = 1 ∧ bitsOf w 24 21 = 5 then some (.fstatPc (fieldOf w 20 15) (fieldOf w 14 9)) else
  if bitsOf w 8 0 = 2 ∧ bitsOf w 24 21 = 5 then some (.fstatInfo (fieldOf w 20 15) (fieldOf w 14 9)) else
  none

/-- The rows of major 0x07 (R48). -/
def decodeMajor07 (w : Nat) : Option Instr :=
  if bitsOf w 24 0 = 0 then some (.barWg) else
  if bitsOf w 24 0 = 2097152 then some (.barCa) else
  if bitsOf w 24 0 = 4194304 then some (.barCw) else
  if bitsOf w 24 0 = 6291456 then some (.barGrid) else
  none

/-- The rows of major 0x08 (R48). -/
def decodeMajor08 (w : Nat) : Option Instr :=
  if bitsOf w 9 0 = 0 ∧ bitsOf w 24 22 = 0 then some (.waitf (fieldOf w 21 10)) else
  if bitsOf w 9 0 = 0 ∧ bitsOf w 24 22 = 1 then some (.setf (fieldOf w 21 10)) else
  if bitsOf w 9 0 = 0 ∧ bitsOf w 24 22 = 2 then some (.clrf (fieldOf w 21 10)) else
  none

/-- The rows of major 0x09 (R48). -/
def decodeMajor09 (w : Nat) : Option Instr :=
  if bitsOf w 24 16 = 0 then some (.trap (fieldOf w 15 0)) else
  if bitsOf w 24 16 = 64 then some (.brk (fieldOf w 15 0)) else
  none

/-- The rows of major 0x0A (R48). -/
def decodeMajor0A (w : Nat) : Option Instr :=
  if bitsOf w 24 22 = 0 then some (.sysr (fieldOf w 21 16) (fieldOf w 15 0)) else
  if bitsOf w 24 22 = 1 then some (.sysw (fieldOf w 21 16) (fieldOf w 15 0)) else
  none

/-- The rows of major 0x0B (R48). -/
def decodeMajor0B (w : Nat) : Option Instr :=
  if bitsOf w 2 0 = 0 ∧ bitsOf w 24 15 = 0 then some (.icinv (fieldOf w 14 9) (fieldOf w 8 3)) else
  if bitsOf w 2 0 = 0 ∧ bitsOf w 24 15 = 64 then some (.icinvD (fieldOf w 14 9) (fieldOf w 8 3)) else
  if bitsOf w 24 0 = 4194304 then some (.isync) else
  none

/-- The rows of major 0x0C (R48). -/
def decodeMajor0C (w : Nat) : Option Instr :=
  if bitsOf w 12 0 = 0 ∧ bitsOf w 24 22 = 0 then some (.pand (fieldOf w 21 19) (fieldOf w 18 16) (fieldOf w 15 13)) else
  if bitsOf w 12 0 = 0 ∧ bitsOf w 24 22 = 1 then some (.por (fieldOf w 21 19) (fieldOf w 18 16) (fieldOf w 15 13)) else
  if bitsOf w 12 0 = 0 ∧ bitsOf w 24 22 = 2 then some (.pxor (fieldOf w 21 19) (fieldOf w 18 16) (fieldOf w 15 13)) else
  if bitsOf w 15 0 = 0 ∧ bitsOf w 24 22 = 3 then some (.pnot (fieldOf w 21 19) (fieldOf w 18 16)) else
  if bitsOf w 15 0 = 0 ∧ bitsOf w 24 22 = 4 then some (.pmov (fieldOf w 21 19) (fieldOf w 18 16)) else
  if bitsOf w 6 0 = 0 ∧ bitsOf w 18 13 = 0 ∧ bitsOf w 24 22 = 5 then some (.pmovFs (fieldOf w 21 19) (fieldOf w 12 7)) else
  if bitsOf w 6 0 = 0 ∧ bitsOf w 15 13 = 0 ∧ bitsOf w 24 19 = 48 then some (.pmovTs (fieldOf w 18 16) (fieldOf w 12 7)) else
  none

/-- The rows of major 0x0D (R48). -/
def decodeMajor0D (w : Nat) : Option Instr :=
  if bitsOf w 24 0 = 0 then some (.nop) else
  if bitsOf w 24 0 = 2097152 then some (.exit) else
  none

/-- The rows of major 0x10 (R48). -/
def decodeMajor10 (w : Nat) : Option Instr :=
  some (.vadd (fieldOf w 24 18) (fieldOf w 17 11) (fieldOf w 10 9) (fieldOf w 8 2) (fieldOf w 1 0))

/-- The rows of major 0x11 (R48). -/
def decodeMajor11 (w : Nat) : Option Instr :=
  some (.vsub (fieldOf w 24 18) (fieldOf w 17 11) (fieldOf w 10 9) (fieldOf w 8 2) (fieldOf w 1 0))

/-- The rows of major 0x12 (R48). -/
def decodeMajor12 (w : Nat) : Option Instr :=
  some (.vmul (fieldOf w 24 18) (fieldOf w 17 11) (fieldOf w 10 9) (fieldOf w 8 2) (fieldOf w 1 0))

/-- The rows of major 0x13 (R48). -/
def decodeMajor13 (w : Nat) : Option Instr :=
  some (.vmulh (fieldOf w 24 18) (fieldOf w 17 11) (fieldOf w 10 9) (fieldOf w 8 2) (fieldOf w 1 0))

/-- The rows of major 0x14 (R48). -/
def decodeMajor14 (w : Nat) : Option Instr :=
  some (.vfma (fieldOf w 24 18) (fieldOf w 17 11) (fieldOf w 10 9) (fieldOf w 8 2) (fieldOf w 1 0))

/-- The rows of major 0x15 (R48). -/
def decodeMajor15 (w : Nat) : Option Instr :=
  some (.vfms (fieldOf w 24 18) (fieldOf w 17 11) (fieldOf w 10 9) (fieldOf w 8 2) (fieldOf w 1 0))

/-- The rows of major 0x16 (R48). -/
def decodeMajor16 (w : Nat) : Option Instr :=
  some (.vmadi (fieldOf w 24 18) (fieldOf w 17 11) (fieldOf w 10 9) (fieldOf w 8 2) (fieldOf w 1 0))

/-- The rows of major 0x17 (R48). -/
def decodeMajor17 (w : Nat) : Option Instr :=
  some (.vmin (fieldOf w 24 18) (fieldOf w 17 11) (fieldOf w 10 9) (fieldOf w 8 2) (fieldOf w 1 0))

/-- The rows of major 0x18 (R48). -/
def decodeMajor18 (w : Nat) : Option Instr :=
  some (.vmax (fieldOf w 24 18) (fieldOf w 17 11) (fieldOf w 10 9) (fieldOf w 8 2) (fieldOf w 1 0))

/-- The rows of major 0x19 (R48). -/
def decodeMajor19 (w : Nat) : Option Instr :=
  some (.vand (fieldOf w 24 18) (fieldOf w 17 11) (fieldOf w 10 9) (fieldOf w 8 2) (fieldOf w 1 0))

/-- The rows of major 0x1A (R48). -/
def decodeMajor1A (w : Nat) : Option Instr :=
  some (.vor (fieldOf w 24 18) (fieldOf w 17 11) (fieldOf w 10 9) (fieldOf w 8 2) (fieldOf w 1 0))

/-- The rows of major 0x1B (R48). -/
def decodeMajor1B (w : Nat) : Option Instr :=
  some (.vxor (fieldOf w 24 18) (fieldOf w 17 11) (fieldOf w 10 9) (fieldOf w 8 2) (fieldOf w 1 0))

/-- The rows of major 0x1C (R48). -/
def decodeMajor1C (w : Nat) : Option Instr :=
  some (.vshl (fieldOf w 24 18) (fieldOf w 17 11) (fieldOf w 10 9) (fieldOf w 8 2) (fieldOf w 1 0))

/-- The rows of major 0x1D (R48). -/
def decodeMajor1D (w : Nat) : Option Instr :=
  some (.vshr (fieldOf w 24 18) (fieldOf w 17 11) (fieldOf w 10 9) (fieldOf w 8 2) (fieldOf w 1 0))

/-- The rows of major 0x1E (R48). -/
def decodeMajor1E (w : Nat) : Option Instr :=
  some (.vsra (fieldOf w 24 18) (fieldOf w 17 11) (fieldOf w 10 9) (fieldOf w 8 2) (fieldOf w 1 0))

/-- The rows of major 0x1F (R48). -/
def decodeMajor1F (w : Nat) : Option Instr :=
  some (.vscale (fieldOf w 24 18) (fieldOf w 17 11) (fieldOf w 10 9) (fieldOf w 8 2) (fieldOf w 1 0))

/-- The rows of major 0x20 (R48). -/
def decodeMajor20 (w : Nat) : Option Instr :=
  some (.vdot4 (fieldOf w 24 18) (fieldOf w 17 11) (fieldOf w 10 9) (fieldOf w 8 2) (fieldOf w 1 0))

/-- The rows of major 0x21 (R48). -/
def decodeMajor21 (w : Nat) : Option Instr :=
  some (.vpack (fieldOf w 24 18) (fieldOf w 17 11) (fieldOf w 10 9) (fieldOf w 8 2) (fieldOf w 1 0))

/-- The rows of major 0x22 (R48). -/
def decodeMajor22 (w : Nat) : Option Instr :=
  some (.vperm (fieldOf w 24 18) (fieldOf w 17 11) (fieldOf w 10 9) (fieldOf w 8 2) (fieldOf w 1 0))

/-- The rows of major 0x23 (R48). -/
def decodeMajor23 (w : Nat) : Option Instr :=
  if bitsOf w 21 21 = 0 then some (.vcmp (fieldOf w 24 22) (fieldOf w 20 18) (fieldOf w 17 11) (fieldOf w 10 9) (fieldOf w 8 2) (fieldOf w 1 0)) else
  none

/-- The rows of major 0x24 (R48). -/
def decodeMajor24 (w : Nat) : Option Instr :=
  if bitsOf w 4 0 = 0 then some (.vsel (fieldOf w 24 18) (fieldOf w 17 11) (fieldOf w 10 9) (fieldOf w 8 6) (fieldOf w 5 5)) else
  none

/-- The rows of major 0x25 (R48). -/
def decodeMajor25 (w : Nat) : Option Instr :=
  if bitsOf w 13 9 = 0 then some (.vmovi (fieldOf w 24 18) (fieldOf w 17 14) (fieldOf w 8 0)) else
  none

/-- The rows of major 0x26 (R48). -/
def decodeMajor26 (w : Nat) : Option Instr :=
  if bitsOf w 8 0 = 0 then some (.vmov (fieldOf w 24 18) (fieldOf w 17 11) (fieldOf w 10 9)) else
  if bitsOf w 8 0 = 4 then some (.vabs (fieldOf w 24 18) (fieldOf w 17 11) (fieldOf w 10 9)) else
  if bitsOf w 8 0 = 8 then some (.vneg (fieldOf w 24 18) (fieldOf w 17 11) (fieldOf w 10 9)) else
  if bitsOf w 8 0 = 12 then some (.vnot (fieldOf w 24 18) (fieldOf w 17 11) (fieldOf w 10 9)) else
  if bitsOf w 8 0 = 16 then some (.vclass (fieldOf w 24 18) (fieldOf w 17 11) (fieldOf w 10 9)) else
  if bitsOf w 8 0 = 20 then some (.vclz (fieldOf w 24 18) (fieldOf w 17 11) (fieldOf w 10 9)) else
  if bitsOf w 8 0 = 24 then some (.vffs (fieldOf w 24 18) (fieldOf w 17 11) (fieldOf w 10 9)) else
  if bitsOf w 8 0 = 28 then some (.vpopc (fieldOf w 24 18) (fieldOf w 17 11) (fieldOf w 10 9)) else
  if bitsOf w 8 0 = 32 then some (.vbrev (fieldOf w 24 18) (fieldOf w 17 11) (fieldOf w 10 9)) else
  if bitsOf w 10 0 = 36 then some (.vtag (fieldOf w 24 18) (fieldOf w 17 11)) else
  if bitsOf w 17 0 = 40 then some (.vlaneid (fieldOf w 24 18)) else
  if bitsOf w 8 0 = 64 then some (.vexp2 (fieldOf w 24 18) (fieldOf w 17 11) (fieldOf w 10 9)) else
  if bitsOf w 8 0 = 68 then some (.vlog2 (fieldOf w 24 18) (fieldOf w 17 11) (fieldOf w 10 9)) else
  if bitsOf w 8 0 = 72 then some (.vrcp (fieldOf w 24 18) (fieldOf w 17 11) (fieldOf w 10 9)) else
  if bitsOf w 8 0 = 76 then some (.vrsq (fieldOf w 24 18) (fieldOf w 17 11) (fieldOf w 10 9)) else
  if bitsOf w 8 0 = 80 then some (.vsin (fieldOf w 24 18) (fieldOf w 17 11) (fieldOf w 10 9)) else
  if bitsOf w 8 0 = 84 then some (.vcos (fieldOf w 24 18) (fieldOf w 17 11) (fieldOf w 10 9)) else
  if bitsOf w 1 0 = 0 ∧ bitsOf w 8 6 = 4 then some (.vunpk (fieldOf w 24 18) (fieldOf w 17 11) (fieldOf w 10 9) (fieldOf w 5 2)) else
  none

/-- The rows of major 0x27 (R48). -/
def decodeMajor27 (w : Nat) : Option Instr :=
  if bitsOf w 4 0 = 0 then some (.vcvt (fieldOf w 24 18) (fieldOf w 17 11) (fieldOf w 10 9) (fieldOf w 8 5)) else
  none

/-- The rows of major 0x28 (R48). -/
def decodeMajor28 (w : Nat) : Option Instr :=
  if bitsOf w 4 0 = 0 then some (.vretag (fieldOf w 24 18) (fieldOf w 17 11) (fieldOf w 10 9) (fieldOf w 8 5)) else
  none

/-- The rows of major 0x29 (R48). -/
def decodeMajor29 (w : Nat) : Option Instr :=
  if bitsOf w 24 18 = 0 then some (.vreduce (fieldOf w 17 11) (fieldOf w 10 9) (fieldOf w 8 3) (fieldOf w 2 0)) else
  none

/-- The rows of major 0x2A (R48). -/
def decodeMajor2A (w : Nat) : Option Instr :=
  some (.vscan (fieldOf w 24 18) (fieldOf w 17 11) (fieldOf w 10 9) (fieldOf w 8 3) (fieldOf w 2 0))

/-- The rows of major 0x2B (R48). -/
def decodeMajor2B (w : Nat) : Option Instr :=
  if bitsOf w 10 0 = 0 ∧ bitsOf w 24 22 = 0 then some (.route (fieldOf w 21 20) (fieldOf w 19 17) (fieldOf w 16 11)) else
  if bitsOf w 4 0 = 0 ∧ bitsOf w 16 11 = 0 ∧ bitsOf w 24 22 = 1 then some (.routeS (fieldOf w 21 20) (fieldOf w 19 17) (fieldOf w 10 5)) else
  if bitsOf w 8 0 = 0 ∧ bitsOf w 24 22 = 2 then some (.ptld (fieldOf w 21 18) (fieldOf w 17 11) (fieldOf w 10 9)) else
  none

/-- The rows of major 0x2C (R48). -/
def decodeMajor2C (w : Nat) : Option Instr :=
  if bitsOf w 9 0 = 0 ∧ bitsOf w 15 13 = 0 ∧ bitsOf w 24 22 = 0 then some (.vballot (fieldOf w 21 16) (fieldOf w 12 10)) else
  if bitsOf w 9 0 = 0 ∧ bitsOf w 24 22 = 1 then some (.vvoteAny (fieldOf w 21 16) (fieldOf w 15 13) (fieldOf w 12 10)) else
  if bitsOf w 9 0 = 0 ∧ bitsOf w 24 22 = 2 then some (.vvoteAll (fieldOf w 21 16) (fieldOf w 15 13) (fieldOf w 12 10)) else
  if bitsOf w 9 0 = 0 ∧ bitsOf w 24 22 = 3 then some (.vvoteEq (fieldOf w 21 16) (fieldOf w 15 13) (fieldOf w 12 10)) else
  none

/-- The rows of major 0x30 (R48). -/
def decodeMajor30 (w : Nat) : Option Instr :=
  if bitsOf w 6 0 = 0 then some (.sadd (fieldOf w 24 19) (fieldOf w 18 13) (fieldOf w 12 7)) else
  if bitsOf w 6 0 = 1 then some (.ssub (fieldOf w 24 19) (fieldOf w 18 13) (fieldOf w 12 7)) else
  if bitsOf w 6 0 = 2 then some (.smul (fieldOf w 24 19) (fieldOf w 18 13) (fieldOf w 12 7)) else
  if bitsOf w 6 0 = 3 then some (.smulh (fieldOf w 24 19) (fieldOf w 18 13) (fieldOf w 12 7)) else
  if bitsOf w 6 0 = 4 then some (.smulhU (fieldOf w 24 19) (fieldOf w 18 13) (fieldOf w 12 7)) else
  if bitsOf w 6 0 = 5 then some (.sdiv (fieldOf w 24 19) (fieldOf w 18 13) (fieldOf w 12 7)) else
  if bitsOf w 6 0 = 6 then some (.sdivU (fieldOf w 24 19) (fieldOf w 18 13) (fieldOf w 12 7)) else
  if bitsOf w 6 0 = 7 then some (.srem (fieldOf w 24 19) (fieldOf w 18 13) (fieldOf w 12 7)) else
  if bitsOf w 6 0 = 8 then some (.sremU (fieldOf w 24 19) (fieldOf w 18 13) (fieldOf w 12 7)) else
  if bitsOf w 6 0 = 9 then some (.sand (fieldOf w 24 19) (fieldOf w 18 13) (fieldOf w 12 7)) else
  if bitsOf w 6 0 = 10 then some (.sor (fieldOf w 24 19) (fieldOf w 18 13) (fieldOf w 12 7)) else
  if bitsOf w 6 0 = 11 then some (.sxor (fieldOf w 24 19) (fieldOf w 18 13) (fieldOf w 12 7)) else
  if bitsOf w 6 0 = 12 then some (.sshl (fieldOf w 24 19) (fieldOf w 18 13) (fieldOf w 12 7)) else
  if bitsOf w 6 0 = 13 then some (.sshr (fieldOf w 24 19) (fieldOf w 18 13) (fieldOf w 12 7)) else
  if bitsOf w 6 0 = 14 then some (.ssra (fieldOf w 24 19) (fieldOf w 18 13) (fieldOf w 12 7)) else
  if bitsOf w 6 0 = 15 then some (.smin (fieldOf w 24 19) (fieldOf w 18 13) (fieldOf w 12 7)) else
  if bitsOf w 6 0 = 16 then some (.sminU (fieldOf w 24 19) (fieldOf w 18 13) (fieldOf w 12 7)) else
  if bitsOf w 6 0 = 17 then some (.smax (fieldOf w 24 19) (fieldOf w 18 13) (fieldOf w 12 7)) else
  if bitsOf w 6 0 = 18 then some (.smaxU (fieldOf w 24 19) (fieldOf w 18 13) (fieldOf w 12 7)) else
  if bitsOf w 6 0 = 19 ∧ bitsOf w 18 13 = 0 then some (.smov (fieldOf w 24 19) (fieldOf w 12 7)) else
  if bitsOf w 12 0 = 20 then some (.sclz (fieldOf w 24 19) (fieldOf w 18 13)) else
  if bitsOf w 12 0 = 21 then some (.sffs (fieldOf w 24 19) (fieldOf w 18 13)) else
  if bitsOf w 12 0 = 22 then some (.spopc (fieldOf w 24 19) (fieldOf w 18 13)) else
  if bitsOf w 6 0 = 23 then some (.ssel (fieldOf w 24 19) (fieldOf w 18 13) (fieldOf w 12 7)) else
  if bitsOf w 6 4 = 2 then some (.scmp (fieldOf w 24 19) (fieldOf w 18 13) (fieldOf w 12 7) (fieldOf w 3 0)) else
  none

/-- The rows of major 0x31 (R48). -/
def decodeMajor31 (w : Nat) : Option Instr :=
  some (.saddImm (fieldOf w 24 19) (fieldOf w 18 13) (fieldOf w 12 0))

/-- The rows of major 0x32 (R48). -/
def decodeMajor32 (w : Nat) : Option Instr :=
  some (.sandImm (fieldOf w 24 19) (fieldOf w 18 13) (fieldOf w 12 0))

/-- The rows of major 0x33 (R48). -/
def decodeMajor33 (w : Nat) : Option Instr :=
  some (.sorImm (fieldOf w 24 19) (fieldOf w 18 13) (fieldOf w 12 0))

/-- The rows of major 0x34 (R48). -/
def decodeMajor34 (w : Nat) : Option Instr :=
  some (.sxorImm (fieldOf w 24 19) (fieldOf w 18 13) (fieldOf w 12 0))

/-- The rows of major 0x35 (R48). -/
def decodeMajor35 (w : Nat) : Option Instr :=
  if bitsOf w 12 6 = 0 then some (.sshlImm (fieldOf w 24 19) (fieldOf w 18 13) (fieldOf w 5 0)) else
  none

/-- The rows of major 0x36 (R48). -/
def decodeMajor36 (w : Nat) : Option Instr :=
  if bitsOf w 12 6 = 0 then some (.sshrImm (fieldOf w 24 19) (fieldOf w 18 13) (fieldOf w 5 0)) else
  none

/-- The rows of major 0x37 (R48). -/
def decodeMajor37 (w : Nat) : Option Instr :=
  if bitsOf w 12 6 = 0 then some (.ssraImm (fieldOf w 24 19) (fieldOf w 18 13) (fieldOf w 5 0)) else
  none

/-- The rows of major 0x38 (R48). -/
def decodeMajor38 (w : Nat) : Option Instr :=
  if bitsOf w 18 13 = 0 then some (.sli (fieldOf w 24 19) (fieldOf w 12 0)) else
  none

/-- The rows of major 0x39 (R48). -/
def decodeMajor39 (w : Nat) : Option Instr :=
  if bitsOf w 18 0 = 0 then some (.sliHi (fieldOf w 24 19)) else
  none

/-- The rows of major 0x3A (R48). -/
def decodeMajor3A (w : Nat) : Option Instr :=
  if bitsOf w 0 0 = 0 then some (.smadd (fieldOf w 24 19) (fieldOf w 18 13) (fieldOf w 12 7) (fieldOf w 6 1)) else
  none

/-- The rows of major 0x3B (R48). -/
def decodeMajor3B (w : Nat) : Option Instr :=
  some (.sbfx (fieldOf w 24 19) (fieldOf w 18 13) (fieldOf w 12 7) (fieldOf w 6 1) (fieldOf w 0 0))

/-- The rows of major 0x3C (R48). -/
def decodeMajor3C (w : Nat) : Option Instr :=
  if bitsOf w 0 0 = 0 then some (.sbfi (fieldOf w 24 19) (fieldOf w 18 13) (fieldOf w 12 7) (fieldOf w 6 1)) else
  none

/-- The rows of major 0x40 (R48). -/
def decodeMajor40 (w : Nat) : Option Instr :=
  some (.ld32 (fieldOf w 24 18) (fieldOf w 17 11) (fieldOf w 10 5) (fieldOf w 4 1) (fieldOf w 0 0))

/-- The rows of major 0x41 (R48). -/
def decodeMajor41 (w : Nat) : Option Instr :=
  some (.ld64 (fieldOf w 24 18) (fieldOf w 17 11) (fieldOf w 10 5) (fieldOf w 4 1) (fieldOf w 0 0))

/-- The rows of major 0x42 (R48). -/
def decodeMajor42 (w : Nat) : Option Instr :=
  some (.ld128 (fieldOf w 24 18) (fieldOf w 17 11) (fieldOf w 10 5) (fieldOf w 4 1) (fieldOf w 0 0))

/-- The rows of major 0x43 (R48). -/
def decodeMajor43 (w : Nat) : Option Instr :=
  if bitsOf w 4 4 = 0 then some (.ldN (fieldOf w 24 18) (fieldOf w 17 11) (fieldOf w 10 5) (fieldOf w 3 1) (fieldOf w 0 0)) else
  none

/-- The rows of major 0x44 (R48). -/
def decodeMajor44 (w : Nat) : Option Instr :=
  if bitsOf w 4 1 = 0 then some (.st32 (fieldOf w 24 18) (fieldOf w 17 11) (fieldOf w 10 5) (fieldOf w 0 0)) else
  none

/-- The rows of major 0x45 (R48). -/
def decodeMajor45 (w : Nat) : Option Instr :=
  if bitsOf w 4 1 = 0 then some (.st64 (fieldOf w 24 18) (fieldOf w 17 11) (fieldOf w 10 5) (fieldOf w 0 0)) else
  none

/-- The rows of major 0x46 (R48). -/
def decodeMajor46 (w : Nat) : Option Instr :=
  if bitsOf w 4 1 = 0 then some (.st128 (fieldOf w 24 18) (fieldOf w 17 11) (fieldOf w 10 5) (fieldOf w 0 0)) else
  none

/-- The rows of major 0x47 (R48). -/
def decodeMajor47 (w : Nat) : Option Instr :=
  if bitsOf w 4 2 = 0 then some (.stN (fieldOf w 24 18) (fieldOf w 17 11) (fieldOf w 10 5) (fieldOf w 1 1) (fieldOf w 0 0)) else
  none

/-- The rows of major 0x48 (R48). -/
def decodeMajor48 (w : Nat) : Option Instr :=
  if bitsOf w 12 12 = 0 then some (.lds (fieldOf w 24 19) (fieldOf w 18 13) (fieldOf w 11 9) (fieldOf w 8 8) (fieldOf w 7 0)) else
  if bitsOf w 12 11 = 2 then some (.sts (fieldOf w 24 19) (fieldOf w 18 13) (fieldOf w 10 9) (fieldOf w 8 8) (fieldOf w 7 0)) else
  none

/-- The rows of major 0x49 (R48). -/
def decodeMajor49 (w : Nat) : Option Instr :=
  if bitsOf w 17 11 = 0 then some (.ldb (fieldOf w 24 18) (fieldOf w 10 5) (fieldOf w 4 1) (fieldOf w 0 0)) else
  none

/-- The rows of major 0x4A (R48). -/
def decodeMajor4A (w : Nat) : Option Instr :=
  if bitsOf w 0 0 = 0 ∧ bitsOf w 4 2 = 0 ∧ bitsOf w 24 18 = 0 then some (.pref (fieldOf w 17 11) (fieldOf w 10 5) (fieldOf w 1 1)) else
  none

/-- The rows of major 0x4B (R48). -/
def decodeMajor4B (w : Nat) : Option Instr :=
  if bitsOf w 5 0 = 0 then some (.fence (fieldOf w 24 17) (fieldOf w 16 9) (fieldOf w 8 6)) else
  none

/-- The rows of major 0x4C (R48). -/
def decodeMajor4C (w : Nat) : Option Instr :=
  if bitsOf w 6 0 = 0 then some (.waitc (fieldOf w 24 19) (fieldOf w 18 13) (fieldOf w 12 9) (fieldOf w 8 8) (fieldOf w 7 7)) else
  none

/-- The rows of major 0x4D (R48). -/
def decodeMajor4D (w : Nat) : Option Instr :=
  if bitsOf w 6 0 = 0 then some (.decantBind (fieldOf w 24 19) (fieldOf w 18 13) (fieldOf w 12 7)) else
  if bitsOf w 12 0 = 1 then some (.decantUnbind (fieldOf w 24 19) (fieldOf w 18 13)) else
  none

/-- The rows of major 0x4E (R48). -/
def decodeMajor4E (w : Nat) : Option Instr :=
  if bitsOf w 4 1 = 0 ∧ bitsOf w 17 11 = 0 then some (.ldw (fieldOf w 24 18) (fieldOf w 10 5) (fieldOf w 0 0)) else
  if bitsOf w 4 1 = 1 ∧ bitsOf w 17 11 = 0 then some (.stw (fieldOf w 24 18) (fieldOf w 10 5) (fieldOf w 0 0)) else
  none

/-- The rows of major 0x4F (R48). -/
def decodeMajor4F (w : Nat) : Option Instr :=
  if bitsOf w 4 3 = 0 then some (.clst (fieldOf w 24 18) (fieldOf w 17 11) (fieldOf w 10 5) (fieldOf w 2 1) (fieldOf w 0 0)) else
  none

/-- The rows of major 0x50 (R48). -/
def decodeMajor50 (w : Nat) : Option Instr :=
  some (.amo (fieldOf w 24 18) (fieldOf w 17 11) (fieldOf w 10 7) (fieldOf w 6 4) (fieldOf w 3 1) (fieldOf w 0 0))

/-- The rows of major 0x51 (R48). -/
def decodeMajor51 (w : Nat) : Option Instr :=
  some (.amor (fieldOf w 24 18) (fieldOf w 17 11) (fieldOf w 10 7) (fieldOf w 6 4) (fieldOf w 3 1) (fieldOf w 0 0))

/-- The rows of major 0x52 (R48). -/
def decodeMajor52 (w : Nat) : Option Instr :=
  some (.cas (fieldOf w 24 18) (fieldOf w 17 11) (fieldOf w 10 7) (fieldOf w 6 4) (fieldOf w 3 1) (fieldOf w 0 0))

/-- The rows of major 0x53 (R48). -/
def decodeMajor53 (w : Nat) : Option Instr :=
  if bitsOf w 24 24 = 0 then some (.acust (fieldOf w 23 17) (fieldOf w 16 10) (fieldOf w 9 7) (fieldOf w 6 3) (fieldOf w 2 1) (fieldOf w 0 0)) else
  if bitsOf w 7 0 = 0 ∧ bitsOf w 24 24 = 1 then some (.asinst (fieldOf w 23 20) (fieldOf w 19 14) (fieldOf w 13 8)) else
  none

/-- The rows of major 0x54 (R48). -/
def decodeMajor54 (w : Nat) : Option Instr :=
  if bitsOf w 6 0 = 0 ∧ bitsOf w 24 19 = 0 then some (.tlbinvVaDev (fieldOf w 18 13) (fieldOf w 12 7)) else
  if bitsOf w 6 0 = 1 ∧ bitsOf w 24 19 = 0 then some (.tlbinvVaSys (fieldOf w 18 13) (fieldOf w 12 7)) else
  if bitsOf w 12 0 = 2 ∧ bitsOf w 24 19 = 0 then some (.tlbinvAsidDev (fieldOf w 18 13)) else
  if bitsOf w 12 0 = 3 ∧ bitsOf w 24 19 = 0 then some (.tlbinvAsidSys (fieldOf w 18 13)) else
  if bitsOf w 24 0 = 4 then some (.tlbinvAllDev) else
  if bitsOf w 24 0 = 5 then some (.tlbinvAllSys) else
  if bitsOf w 24 0 = 8 then some (.tlbsyncDev) else
  if bitsOf w 24 0 = 9 then some (.tlbsyncSys) else
  none

/-- The rows of major 0x55 (R48). -/
def decodeMajor55 (w : Nat) : Option Instr :=
  if bitsOf w 12 2 = 0 then some (.atrans (fieldOf w 24 19) (fieldOf w 18 13) (fieldOf w 1 0)) else
  none

/-- The rows of major 0x56 (R48). -/
def decodeMajor56 (w : Nat) : Option Instr :=
  if bitsOf w 0 0 = 0 ∧ bitsOf w 5 3 = 0 ∧ bitsOf w 11 9 = 0 ∧ bitsOf w 24 18 = 0 then some (.mbind (fieldOf w 17 12) (fieldOf w 8 6) (fieldOf w 2 1)) else
  none

/-- The rows of major 0x57 (R48). -/
def decodeMajor57 (w : Nat) : Option Instr :=
  if bitsOf w 24 0 = 0 then some (.mready) else
  none

/-- The rows of major 0x58 (R48). -/
def decodeMajor58 (w : Nat) : Option Instr :=
  if bitsOf w 11 4 = 0 ∧ bitsOf w 24 18 = 0 then some (.msign (fieldOf w 17 12) (fieldOf w 3 1) (fieldOf w 0 0)) else
  none

/-- The rows of major 0x59 (R48). -/
def decodeMajor59 (w : Nat) : Option Instr :=
  if bitsOf w 5 0 = 0 ∧ bitsOf w 11 9 = 0 then some (.mma (fieldOf w 24 18) (fieldOf w 17 12) (fieldOf w 8 6)) else
  none

/-- The rows of major 0x5A (R48). -/
def decodeMajor5A (w : Nat) : Option Instr :=
  if bitsOf w 5 0 = 0 ∧ bitsOf w 11 9 = 0 then some (.mtile (fieldOf w 24 18) (fieldOf w 17 12) (fieldOf w 8 6)) else
  none

/-- The rows of major 0x5B (R48). -/
def decodeMajor5B (w : Nat) : Option Instr :=
  if bitsOf w 0 0 = 0 ∧ bitsOf w 5 4 = 0 ∧ bitsOf w 17 9 = 0 then some (.mepi (fieldOf w 24 18) (fieldOf w 8 6) (fieldOf w 3 1)) else
  none

/-- The rows of major 0x5C (R48). -/
def decodeMajor5C (w : Nat) : Option Instr :=
  if bitsOf w 5 1 = 0 ∧ bitsOf w 24 18 = 0 then some (.splitEnc (fieldOf w 17 12) (fieldOf w 11 6) (fieldOf w 0 0)) else
  if bitsOf w 5 1 = 1 ∧ bitsOf w 24 18 = 0 then some (.splitDec (fieldOf w 17 12) (fieldOf w 11 6) (fieldOf w 0 0)) else
  none

/-- The rows of major 0x5D (R48). -/
def decodeMajor5D (w : Nat) : Option Instr :=
  if bitsOf w 5 0 = 0 ∧ bitsOf w 11 9 = 0 ∧ bitsOf w 24 21 = 0 then some (.mstat (fieldOf w 20 18) (fieldOf w 17 12) (fieldOf w 8 6)) else
  none

/-- The rows of major 0x5E (R48). -/
def decodeMajor5E (w : Nat) : Option Instr :=
  if bitsOf w 24 0 = 0 then some (.mrfence) else
  none

/-- The rows of major 0x60 (R48). -/
def decodeMajor60 (w : Nat) : Option Instr :=
  if bitsOf w 5 1 = 0 ∧ bitsOf w 24 18 = 0 then some (.spgRow (fieldOf w 17 12) (fieldOf w 11 6) (fieldOf w 0 0)) else
  none

/-- The rows of major 0x61 (R48). -/
def decodeMajor61 (w : Nat) : Option Instr :=
  if bitsOf w 5 1 = 0 ∧ bitsOf w 24 18 = 0 then some (.spgFlush (fieldOf w 17 12) (fieldOf w 11 6) (fieldOf w 0 0)) else
  none

/-- The rows of major 0x62 (R48). -/
def decodeMajor62 (w : Nat) : Option Instr :=
  if bitsOf w 5 0 = 0 ∧ bitsOf w 24 18 = 0 then some (.rackHint (fieldOf w 17 12) (fieldOf w 11 6)) else
  if bitsOf w 5 0 = 2 ∧ bitsOf w 24 18 = 0 then some (.rackInv (fieldOf w 17 12) (fieldOf w 11 6)) else
  none

/-- The rows of major 0x64 (R48). -/
def decodeMajor64 (w : Nat) : Option Instr :=
  if bitsOf w 5 1 = 0 ∧ bitsOf w 24 24 = 0 then some (.cp (fieldOf w 23 18) (fieldOf w 17 12) (fieldOf w 11 6) (fieldOf w 0 0)) else
  if bitsOf w 5 1 = 1 ∧ bitsOf w 24 24 = 0 then some (.cpG (fieldOf w 23 18) (fieldOf w 17 12) (fieldOf w 11 6) (fieldOf w 0 0)) else
  none

/-- The rows of major 0x65 (R48). -/
def decodeMajor65 (w : Nat) : Option Instr :=
  if bitsOf w 5 1 = 0 ∧ bitsOf w 24 18 = 0 then some (.cpT (fieldOf w 17 12) (fieldOf w 11 6) (fieldOf w 0 0)) else
  none

/-- The rows of major 0x66 (R48). -/
def decodeMajor66 (w : Nat) : Option Instr :=
  if bitsOf w 5 1 = 0 ∧ bitsOf w 24 24 = 0 then some (.cpMc (fieldOf w 23 18) (fieldOf w 17 12) (fieldOf w 11 6) (fieldOf w 0 0)) else
  none

/-- The rows of major 0x67 (R48). -/
def decodeMajor67 (w : Nat) : Option Instr :=
  if bitsOf w 11 0 = 0 ∧ bitsOf w 24 20 = 0 then some (.cpStat (fieldOf w 19 18) (fieldOf w 17 12)) else
  none

/-- The rows of major 0x68 (R48). -/
def decodeMajor68 (w : Nat) : Option Instr :=
  if bitsOf w 5 1 = 0 ∧ bitsOf w 24 24 = 0 then some (.put (fieldOf w 23 18) (fieldOf w 17 12) (fieldOf w 11 6) (fieldOf w 0 0)) else
  if bitsOf w 5 1 = 1 ∧ bitsOf w 24 24 = 0 then some (.putG (fieldOf w 23 18) (fieldOf w 17 12) (fieldOf w 11 6) (fieldOf w 0 0)) else
  none

/-- The rows of major 0x69 (R48). -/
def decodeMajor69 (w : Nat) : Option Instr :=
  if bitsOf w 5 1 = 0 ∧ bitsOf w 24 24 = 0 then some (.get (fieldOf w 23 18) (fieldOf w 17 12) (fieldOf w 11 6) (fieldOf w 0 0)) else
  if bitsOf w 5 1 = 1 ∧ bitsOf w 24 24 = 0 then some (.getG (fieldOf w 23 18) (fieldOf w 17 12) (fieldOf w 11 6) (fieldOf w 0 0)) else
  none

/-- The rows of major 0x6A (R48). -/
def decodeMajor6A (w : Nat) : Option Instr :=
  if bitsOf w 5 1 = 0 ∧ bitsOf w 24 24 = 0 then some (.tsend (fieldOf w 23 18) (fieldOf w 17 12) (fieldOf w 11 6) (fieldOf w 0 0)) else
  none

/-- The rows of major 0x6B (R48). -/
def decodeMajor6B (w : Nat) : Option Instr :=
  if bitsOf w 5 0 = 0 ∧ bitsOf w 24 18 = 0 then some (.cntRd (fieldOf w 17 12) (fieldOf w 11 6)) else
  if bitsOf w 5 0 = 2 ∧ bitsOf w 24 24 = 0 then some (.cntSet (fieldOf w 23 18) (fieldOf w 17 12) (fieldOf w 11 6)) else
  if bitsOf w 5 0 = 4 ∧ bitsOf w 24 18 = 0 then some (.cntAdd (fieldOf w 17 12) (fieldOf w 11 6)) else
  if bitsOf w 5 1 = 8 ∧ bitsOf w 24 18 = 0 then some (.cntwait (fieldOf w 17 12) (fieldOf w 11 6) (fieldOf w 0 0)) else
  none

/-- The rows of major 0x6C (R48). -/
def decodeMajor6C (w : Nat) : Option Instr :=
  if bitsOf w 5 0 = 0 ∧ bitsOf w 24 18 = 0 then some (.qpost (fieldOf w 17 12) (fieldOf w 11 6)) else
  none

/-- The rows of major 0x6D (R48). -/
def decodeMajor6D (w : Nat) : Option Instr :=
  if bitsOf w 5 1 = 0 ∧ bitsOf w 24 24 = 0 then some (.msend (fieldOf w 23 18) (fieldOf w 17 12) (fieldOf w 11 6) (fieldOf w 0 0)) else
  none

/-- The rows of major 0x6E (R48). -/
def decodeMajor6E (w : Nat) : Option Instr :=
  if bitsOf w 5 0 = 0 ∧ bitsOf w 24 24 = 0 then some (.qpop (fieldOf w 23 18) (fieldOf w 17 12) (fieldOf w 11 6)) else
  none

/-- The rows of major 0x6F (R48). -/
def decodeMajor6F (w : Nat) : Option Instr :=
  if bitsOf w 5 0 = 0 ∧ bitsOf w 24 18 = 0 then some (.peerStat (fieldOf w 17 12) (fieldOf w 11 6)) else
  if bitsOf w 5 0 = 2 ∧ bitsOf w 24 12 = 0 then some (.peerClr (fieldOf w 11 6)) else
  none

/-- The rows of major 0x70 (R48). -/
def decodeMajor70 (w : Nat) : Option Instr :=
  if bitsOf w 5 1 = 0 ∧ bitsOf w 24 21 = 0 then some (.spawn (fieldOf w 20 18) (fieldOf w 17 12) (fieldOf w 11 6) (fieldOf w 0 0)) else
  none

/-- The rows of major 0x71 (R48). -/
def decodeMajor71 (w : Nat) : Option Instr :=
  if bitsOf w 11 1 = 0 ∧ bitsOf w 17 15 = 0 then some (.spawnv (fieldOf w 24 18) (fieldOf w 14 12) (fieldOf w 0 0)) else
  none

/-- The rows of major 0x72 (R48). -/
def decodeMajor72 (w : Nat) : Option Instr :=
  if bitsOf w 24 0 = 0 then some (.itemdone) else
  none

/-- The rows of major 0x73 (R48). -/
def decodeMajor73 (w : Nat) : Option Instr :=
  if bitsOf w 5 1 = 0 ∧ bitsOf w 24 18 = 0 then some (.launch (fieldOf w 17 12) (fieldOf w 11 6) (fieldOf w 0 0)) else
  if bitsOf w 11 0 = 2 then some (.preemptPt (fieldOf w 24 18) (fieldOf w 17 12)) else
  none

/-- The rows of major 0x74 (R48). -/
def decodeMajor74 (w : Nat) : Option Instr :=
  if bitsOf w 11 0 = 0 ∧ bitsOf w 24 22 = 0 then some (.evread (fieldOf w 21 18) (fieldOf w 17 12)) else
  if bitsOf w 11 0 = 2 ∧ bitsOf w 24 22 = 0 then some (.evctl (fieldOf w 21 18) (fieldOf w 17 12)) else
  none

/-- The rows of major 0x75 (R48). -/
def decodeMajor75 (w : Nat) : Option Instr :=
  if bitsOf w 11 0 = 0 ∧ bitsOf w 24 18 = 0 then some (.tmark (fieldOf w 17 12)) else
  none

/-- The rows of major 0x7D (R48). -/
def decodeMajor7D (w : Nat) : Option Instr :=
  if bitsOf w 7 0 = 0 then some (.mod (fieldOf w 24 22) (fieldOf w 21 20) (fieldOf w 19 17) (fieldOf w 16 14) (fieldOf w 13 11) (fieldOf w 10 8)) else
  none

/-- The row of the opcode table that a word matches, if any (R48). -/
def decodeRow (w : Nat) : Option Instr :=
  match majorOf w with
  | 0x00 => decodeMajor00 w
  | 0x01 => decodeMajor01 w
  | 0x02 => decodeMajor02 w
  | 0x03 => decodeMajor03 w
  | 0x04 => decodeMajor04 w
  | 0x05 => decodeMajor05 w
  | 0x06 => decodeMajor06 w
  | 0x07 => decodeMajor07 w
  | 0x08 => decodeMajor08 w
  | 0x09 => decodeMajor09 w
  | 0x0A => decodeMajor0A w
  | 0x0B => decodeMajor0B w
  | 0x0C => decodeMajor0C w
  | 0x0D => decodeMajor0D w
  | 0x10 => decodeMajor10 w
  | 0x11 => decodeMajor11 w
  | 0x12 => decodeMajor12 w
  | 0x13 => decodeMajor13 w
  | 0x14 => decodeMajor14 w
  | 0x15 => decodeMajor15 w
  | 0x16 => decodeMajor16 w
  | 0x17 => decodeMajor17 w
  | 0x18 => decodeMajor18 w
  | 0x19 => decodeMajor19 w
  | 0x1A => decodeMajor1A w
  | 0x1B => decodeMajor1B w
  | 0x1C => decodeMajor1C w
  | 0x1D => decodeMajor1D w
  | 0x1E => decodeMajor1E w
  | 0x1F => decodeMajor1F w
  | 0x20 => decodeMajor20 w
  | 0x21 => decodeMajor21 w
  | 0x22 => decodeMajor22 w
  | 0x23 => decodeMajor23 w
  | 0x24 => decodeMajor24 w
  | 0x25 => decodeMajor25 w
  | 0x26 => decodeMajor26 w
  | 0x27 => decodeMajor27 w
  | 0x28 => decodeMajor28 w
  | 0x29 => decodeMajor29 w
  | 0x2A => decodeMajor2A w
  | 0x2B => decodeMajor2B w
  | 0x2C => decodeMajor2C w
  | 0x30 => decodeMajor30 w
  | 0x31 => decodeMajor31 w
  | 0x32 => decodeMajor32 w
  | 0x33 => decodeMajor33 w
  | 0x34 => decodeMajor34 w
  | 0x35 => decodeMajor35 w
  | 0x36 => decodeMajor36 w
  | 0x37 => decodeMajor37 w
  | 0x38 => decodeMajor38 w
  | 0x39 => decodeMajor39 w
  | 0x3A => decodeMajor3A w
  | 0x3B => decodeMajor3B w
  | 0x3C => decodeMajor3C w
  | 0x40 => decodeMajor40 w
  | 0x41 => decodeMajor41 w
  | 0x42 => decodeMajor42 w
  | 0x43 => decodeMajor43 w
  | 0x44 => decodeMajor44 w
  | 0x45 => decodeMajor45 w
  | 0x46 => decodeMajor46 w
  | 0x47 => decodeMajor47 w
  | 0x48 => decodeMajor48 w
  | 0x49 => decodeMajor49 w
  | 0x4A => decodeMajor4A w
  | 0x4B => decodeMajor4B w
  | 0x4C => decodeMajor4C w
  | 0x4D => decodeMajor4D w
  | 0x4E => decodeMajor4E w
  | 0x4F => decodeMajor4F w
  | 0x50 => decodeMajor50 w
  | 0x51 => decodeMajor51 w
  | 0x52 => decodeMajor52 w
  | 0x53 => decodeMajor53 w
  | 0x54 => decodeMajor54 w
  | 0x55 => decodeMajor55 w
  | 0x56 => decodeMajor56 w
  | 0x57 => decodeMajor57 w
  | 0x58 => decodeMajor58 w
  | 0x59 => decodeMajor59 w
  | 0x5A => decodeMajor5A w
  | 0x5B => decodeMajor5B w
  | 0x5C => decodeMajor5C w
  | 0x5D => decodeMajor5D w
  | 0x5E => decodeMajor5E w
  | 0x60 => decodeMajor60 w
  | 0x61 => decodeMajor61 w
  | 0x62 => decodeMajor62 w
  | 0x64 => decodeMajor64 w
  | 0x65 => decodeMajor65 w
  | 0x66 => decodeMajor66 w
  | 0x67 => decodeMajor67 w
  | 0x68 => decodeMajor68 w
  | 0x69 => decodeMajor69 w
  | 0x6A => decodeMajor6A w
  | 0x6B => decodeMajor6B w
  | 0x6C => decodeMajor6C w
  | 0x6D => decodeMajor6D w
  | 0x6E => decodeMajor6E w
  | 0x6F => decodeMajor6F w
  | 0x70 => decodeMajor70 w
  | 0x71 => decodeMajor71 w
  | 0x72 => decodeMajor72 w
  | 0x73 => decodeMajor73 w
  | 0x74 => decodeMajor74 w
  | 0x75 => decodeMajor75 w
  | 0x7D => decodeMajor7D w
  | _ => none

/-- The majors to which R48 gives an instruction, a hint or the header. -/
def majorAssigned (m : Nat) : Bool :=
  !(m == 0x0E || m == 0x0F || (0x2D ≤ m && m ≤ 0x2F) || (0x3D ≤ m && m ≤ 0x3F) || m == 0x5F || m == 0x63 ||
    (0x76 ≤ m && m ≤ 0x7B) || m == 0x7E)

/-- Decodes one word that is not a `LIMM` (R47, R48). (Log 18 DESIGN CHOICE.) -/
def decodeWord (w : Nat) : Except DecodeError Instr :=
  match decodeRow w with
  | some i => .ok i
  | none =>
    if majorOf w = 0x7F then .error .header
    else if majorOf w = 0x7C then .error .limmWithoutData
    else if majorAssigned (majorOf w) then .error .reservedField
    else .error .reservedMajor

/-- Is the word the first word of a `LIMM` hint (R43)? K = 0b01 is the clause extension word (R39). -/
def isLimmWord (w : Word) : Bool := majorOf w.toNat == 0x7C

/-- Reads the next instruction of a list of words and says how many words it takes: two for `LIMM`, one for every other
instruction (R39, R43). -/
def decode : List Word → Except DecodeError (Instr × Nat)
  | [] => .error .noWord
  | w :: rest =>
    if isLimmWord w then
      if bitsOf w.toNat 24 0 = 0 then
        match rest with
        | imm :: _ => .ok (.limm imm, 2)
        | [] => .error .limmWithoutData
      else .error .badLimm
    else
      match decodeWord w.toNat with
      | .ok i => .ok (i, 1)
      | .error e => .error e

/-- A word from its fixed bits and the values of its fields, each already moved to its place (R34). -/
def pack (base : Nat) (fs : List Nat) : Nat := base + fs.sum

/-- A field whose lowest bit is bit 0. -/
def at0 {n : Nat} (v : BitVec n) : Nat := v.toNat * 1
/-- A field whose lowest bit is bit 1. -/
def at1 {n : Nat} (v : BitVec n) : Nat := v.toNat * 2
/-- A field whose lowest bit is bit 2. -/
def at2 {n : Nat} (v : BitVec n) : Nat := v.toNat * 4
/-- A field whose lowest bit is bit 3. -/
def at3 {n : Nat} (v : BitVec n) : Nat := v.toNat * 8
/-- A field whose lowest bit is bit 4. -/
def at4 {n : Nat} (v : BitVec n) : Nat := v.toNat * 16
/-- A field whose lowest bit is bit 5. -/
def at5 {n : Nat} (v : BitVec n) : Nat := v.toNat * 32
/-- A field whose lowest bit is bit 6. -/
def at6 {n : Nat} (v : BitVec n) : Nat := v.toNat * 64
/-- A field whose lowest bit is bit 7. -/
def at7 {n : Nat} (v : BitVec n) : Nat := v.toNat * 128
/-- A field whose lowest bit is bit 8. -/
def at8 {n : Nat} (v : BitVec n) : Nat := v.toNat * 256
/-- A field whose lowest bit is bit 9. -/
def at9 {n : Nat} (v : BitVec n) : Nat := v.toNat * 512
/-- A field whose lowest bit is bit 10. -/
def at10 {n : Nat} (v : BitVec n) : Nat := v.toNat * 1024
/-- A field whose lowest bit is bit 11. -/
def at11 {n : Nat} (v : BitVec n) : Nat := v.toNat * 2048
/-- A field whose lowest bit is bit 12. -/
def at12 {n : Nat} (v : BitVec n) : Nat := v.toNat * 4096
/-- A field whose lowest bit is bit 13. -/
def at13 {n : Nat} (v : BitVec n) : Nat := v.toNat * 8192
/-- A field whose lowest bit is bit 14. -/
def at14 {n : Nat} (v : BitVec n) : Nat := v.toNat * 16384
/-- A field whose lowest bit is bit 15. -/
def at15 {n : Nat} (v : BitVec n) : Nat := v.toNat * 32768
/-- A field whose lowest bit is bit 16. -/
def at16 {n : Nat} (v : BitVec n) : Nat := v.toNat * 65536
/-- A field whose lowest bit is bit 17. -/
def at17 {n : Nat} (v : BitVec n) : Nat := v.toNat * 131072
/-- A field whose lowest bit is bit 18. -/
def at18 {n : Nat} (v : BitVec n) : Nat := v.toNat * 262144
/-- A field whose lowest bit is bit 19. -/
def at19 {n : Nat} (v : BitVec n) : Nat := v.toNat * 524288
/-- A field whose lowest bit is bit 20. -/
def at20 {n : Nat} (v : BitVec n) : Nat := v.toNat * 1048576
/-- A field whose lowest bit is bit 22. -/
def at22 {n : Nat} (v : BitVec n) : Nat := v.toNat * 4194304

/-- The word of an instruction, as a number; none for `LIMM` and for the hardware steps. -/
def encodeNat : Instr → Option Nat
  | .bra o => some (pack 0x00000000 [at0 o])
  | .braZ s o => some (pack 0x00400000 [at16 s, at0 o])
  | .braNz s o => some (pack 0x00800000 [at16 s, at0 o])
  | .braLt s o => some (pack 0x00C00000 [at16 s, at0 o])
  | .braGe s o => some (pack 0x01000000 [at16 s, at0 o])
  | .braAll p o => some (pack 0x01400000 [at16 p, at0 o])
  | .braAny p o => some (pack 0x01800000 [at16 p, at0 o])
  | .brp n p o => some (pack 0x02000000 [at22 n, at16 p, at0 o])
  | .call l o => some (pack 0x04000000 [at16 l, at0 o])
  | .brx t o => some (pack 0x06000000 [at16 t, at0 o])
  | .ret r => some (pack 0x08000000 [at16 r])
  | .jset j => some (pack 0x0A000000 [at18 j])
  | .join j => some (pack 0x0A400000 [at18 j])
  | .waitj j => some (pack 0x0A800000 [at18 j])
  | .fork d t w p => some (pack 0x0C000000 [at15 d, at9 t, at3 w, at0 p])
  | .fend => some (pack 0x0C200000 [])
  | .fyield => some (pack 0x0C400000 [])
  | .fsync a => some (pack 0x0C600000 [at9 a])
  | .fsyncM a => some (pack 0x0C600001 [at9 a])
  | .fresume k => some (pack 0x0C800000 [at9 k])
  | .fresumePc k p => some (pack 0x0C800001 [at9 k, at3 p])
  | .fresumeEnd k => some (pack 0x0C800002 [at9 k])
  | .fstatMask d k => some (pack 0x0CA00000 [at15 d, at9 k])
  | .fstatPc d k => some (pack 0x0CA00001 [at15 d, at9 k])
  | .fstatInfo d k => some (pack 0x0CA00002 [at15 d, at9 k])
  | .barWg => some (pack 0x0E000000 [])
  | .barCa => some (pack 0x0E200000 [])
  | .barCw => some (pack 0x0E400000 [])
  | .barGrid => some (pack 0x0E600000 [])
  | .waitf m => some (pack 0x10000000 [at10 m])
  | .setf m => some (pack 0x10400000 [at10 m])
  | .clrf m => some (pack 0x10800000 [at10 m])
  | .trap c => some (pack 0x12000000 [at0 c])
  | .brk c => some (pack 0x12400000 [at0 c])
  | .sysr s r => some (pack 0x14000000 [at16 s, at0 r])
  | .sysw s r => some (pack 0x14400000 [at16 s, at0 r])
  | .icinv a b => some (pack 0x16000000 [at9 a, at3 b])
  | .icinvD a b => some (pack 0x16200000 [at9 a, at3 b])
  | .isync => some (pack 0x16400000 [])
  | .pand d a b => some (pack 0x18000000 [at19 d, at16 a, at13 b])
  | .por d a b => some (pack 0x18400000 [at19 d, at16 a, at13 b])
  | .pxor d a b => some (pack 0x18800000 [at19 d, at16 a, at13 b])
  | .pnot d a => some (pack 0x18C00000 [at19 d, at16 a])
  | .pmov d a => some (pack 0x19000000 [at19 d, at16 a])
  | .pmovFs d s => some (pack 0x19400000 [at19 d, at7 s])
  | .pmovTs a s => some (pack 0x19800000 [at16 a, at7 s])
  | .nop => some (pack 0x1A000000 [])
  | .exit => some (pack 0x1A200000 [])
  | .vadd d a x b y => some (pack 0x20000000 [at18 d, at11 a, at9 x, at2 b, at0 y])
  | .vsub d a x b y => some (pack 0x22000000 [at18 d, at11 a, at9 x, at2 b, at0 y])
  | .vmul d a x b y => some (pack 0x24000000 [at18 d, at11 a, at9 x, at2 b, at0 y])
  | .vmulh d a x b y => some (pack 0x26000000 [at18 d, at11 a, at9 x, at2 b, at0 y])
  | .vfma d a x b y => some (pack 0x28000000 [at18 d, at11 a, at9 x, at2 b, at0 y])
  | .vfms d a x b y => some (pack 0x2A000000 [at18 d, at11 a, at9 x, at2 b, at0 y])
  | .vmadi d a x b y => some (pack 0x2C000000 [at18 d, at11 a, at9 x, at2 b, at0 y])
  | .vmin d a x b y => some (pack 0x2E000000 [at18 d, at11 a, at9 x, at2 b, at0 y])
  | .vmax d a x b y => some (pack 0x30000000 [at18 d, at11 a, at9 x, at2 b, at0 y])
  | .vand d a x b y => some (pack 0x32000000 [at18 d, at11 a, at9 x, at2 b, at0 y])
  | .vor d a x b y => some (pack 0x34000000 [at18 d, at11 a, at9 x, at2 b, at0 y])
  | .vxor d a x b y => some (pack 0x36000000 [at18 d, at11 a, at9 x, at2 b, at0 y])
  | .vshl d a x b y => some (pack 0x38000000 [at18 d, at11 a, at9 x, at2 b, at0 y])
  | .vshr d a x b y => some (pack 0x3A000000 [at18 d, at11 a, at9 x, at2 b, at0 y])
  | .vsra d a x b y => some (pack 0x3C000000 [at18 d, at11 a, at9 x, at2 b, at0 y])
  | .vscale d a x b y => some (pack 0x3E000000 [at18 d, at11 a, at9 x, at2 b, at0 y])
  | .vdot4 d a x b y => some (pack 0x40000000 [at18 d, at11 a, at9 x, at2 b, at0 y])
  | .vpack d a x b y => some (pack 0x42000000 [at18 d, at11 a, at9 x, at2 b, at0 y])
  | .vperm d a x b y => some (pack 0x44000000 [at18 d, at11 a, at9 x, at2 b, at0 y])
  | .vcmp p c a x b y => some (pack 0x46000000 [at22 p, at18 c, at11 a, at9 x, at2 b, at0 y])
  | .vsel d a x p n => some (pack 0x48000000 [at18 d, at11 a, at9 x, at6 p, at5 n])
  | .vmovi d t i => some (pack 0x4A000000 [at18 d, at14 t, at0 i])
  | .vmov d a x => some (pack 0x4C000000 [at18 d, at11 a, at9 x])
  | .vabs d a x => some (pack 0x4C000004 [at18 d, at11 a, at9 x])
  | .vneg d a x => some (pack 0x4C000008 [at18 d, at11 a, at9 x])
  | .vnot d a x => some (pack 0x4C00000C [at18 d, at11 a, at9 x])
  | .vclass d a x => some (pack 0x4C000010 [at18 d, at11 a, at9 x])
  | .vclz d a x => some (pack 0x4C000014 [at18 d, at11 a, at9 x])
  | .vffs d a x => some (pack 0x4C000018 [at18 d, at11 a, at9 x])
  | .vpopc d a x => some (pack 0x4C00001C [at18 d, at11 a, at9 x])
  | .vbrev d a x => some (pack 0x4C000020 [at18 d, at11 a, at9 x])
  | .vtag d a => some (pack 0x4C000024 [at18 d, at11 a])
  | .vlaneid d => some (pack 0x4C000028 [at18 d])
  | .vexp2 d a x => some (pack 0x4C000040 [at18 d, at11 a, at9 x])
  | .vlog2 d a x => some (pack 0x4C000044 [at18 d, at11 a, at9 x])
  | .vrcp d a x => some (pack 0x4C000048 [at18 d, at11 a, at9 x])
  | .vrsq d a x => some (pack 0x4C00004C [at18 d, at11 a, at9 x])
  | .vsin d a x => some (pack 0x4C000050 [at18 d, at11 a, at9 x])
  | .vcos d a x => some (pack 0x4C000054 [at18 d, at11 a, at9 x])
  | .vunpk d a x e => some (pack 0x4C000100 [at18 d, at11 a, at9 x, at2 e])
  | .vcvt d a x t => some (pack 0x4E000000 [at18 d, at11 a, at9 x, at5 t])
  | .vretag d a x t => some (pack 0x50000000 [at18 d, at11 a, at9 x, at5 t])
  | .vreduce a x s o => some (pack 0x52000000 [at11 a, at9 x, at3 s, at0 o])
  | .vscan d a x s o => some (pack 0x54000000 [at18 d, at11 a, at9 x, at3 s, at0 o])
  | .route q k p => some (pack 0x56000000 [at20 q, at17 k, at11 p])
  | .routeS q k s => some (pack 0x56400000 [at20 q, at17 k, at5 s])
  | .ptld t a x => some (pack 0x56800000 [at18 t, at11 a, at9 x])
  | .vballot s p => some (pack 0x58000000 [at16 s, at10 p])
  | .vvoteAny s d p => some (pack 0x58400000 [at16 s, at13 d, at10 p])
  | .vvoteAll s d p => some (pack 0x58800000 [at16 s, at13 d, at10 p])
  | .vvoteEq s d p => some (pack 0x58C00000 [at16 s, at13 d, at10 p])
  | .sadd d a b => some (pack 0x60000000 [at19 d, at13 a, at7 b])
  | .ssub d a b => some (pack 0x60000001 [at19 d, at13 a, at7 b])
  | .smul d a b => some (pack 0x60000002 [at19 d, at13 a, at7 b])
  | .smulh d a b => some (pack 0x60000003 [at19 d, at13 a, at7 b])
  | .smulhU d a b => some (pack 0x60000004 [at19 d, at13 a, at7 b])
  | .sdiv d a b => some (pack 0x60000005 [at19 d, at13 a, at7 b])
  | .sdivU d a b => some (pack 0x60000006 [at19 d, at13 a, at7 b])
  | .srem d a b => some (pack 0x60000007 [at19 d, at13 a, at7 b])
  | .sremU d a b => some (pack 0x60000008 [at19 d, at13 a, at7 b])
  | .sand d a b => some (pack 0x60000009 [at19 d, at13 a, at7 b])
  | .sor d a b => some (pack 0x6000000A [at19 d, at13 a, at7 b])
  | .sxor d a b => some (pack 0x6000000B [at19 d, at13 a, at7 b])
  | .sshl d a b => some (pack 0x6000000C [at19 d, at13 a, at7 b])
  | .sshr d a b => some (pack 0x6000000D [at19 d, at13 a, at7 b])
  | .ssra d a b => some (pack 0x6000000E [at19 d, at13 a, at7 b])
  | .smin d a b => some (pack 0x6000000F [at19 d, at13 a, at7 b])
  | .sminU d a b => some (pack 0x60000010 [at19 d, at13 a, at7 b])
  | .smax d a b => some (pack 0x60000011 [at19 d, at13 a, at7 b])
  | .smaxU d a b => some (pack 0x60000012 [at19 d, at13 a, at7 b])
  | .smov d b => some (pack 0x60000013 [at19 d, at7 b])
  | .sclz d a => some (pack 0x60000014 [at19 d, at13 a])
  | .sffs d a => some (pack 0x60000015 [at19 d, at13 a])
  | .spopc d a => some (pack 0x60000016 [at19 d, at13 a])
  | .ssel d a b => some (pack 0x60000017 [at19 d, at13 a, at7 b])
  | .scmp d a b r => some (pack 0x60000020 [at19 d, at13 a, at7 b, at0 r])
  | .saddImm d a i => some (pack 0x62000000 [at19 d, at13 a, at0 i])
  | .sandImm d a i => some (pack 0x64000000 [at19 d, at13 a, at0 i])
  | .sorImm d a i => some (pack 0x66000000 [at19 d, at13 a, at0 i])
  | .sxorImm d a i => some (pack 0x68000000 [at19 d, at13 a, at0 i])
  | .sshlImm d a n => some (pack 0x6A000000 [at19 d, at13 a, at0 n])
  | .sshrImm d a n => some (pack 0x6C000000 [at19 d, at13 a, at0 n])
  | .ssraImm d a n => some (pack 0x6E000000 [at19 d, at13 a, at0 n])
  | .sli d i => some (pack 0x70000000 [at19 d, at0 i])
  | .sliHi d => some (pack 0x72000000 [at19 d])
  | .smadd d a b c => some (pack 0x74000000 [at19 d, at13 a, at7 b, at1 c])
  | .sbfx d a p l x => some (pack 0x76000000 [at19 d, at13 a, at7 p, at1 l, at0 x])
  | .sbfi d a p l => some (pack 0x78000000 [at19 d, at13 a, at7 p, at1 l])
  | .ld32 d a b t f => some (pack 0x80000000 [at18 d, at11 a, at5 b, at1 t, at0 f])
  | .ld64 d a b t f => some (pack 0x82000000 [at18 d, at11 a, at5 b, at1 t, at0 f])
  | .ld128 d a b t f => some (pack 0x84000000 [at18 d, at11 a, at5 b, at1 t, at0 f])
  | .ldN d a b n f => some (pack 0x86000000 [at18 d, at11 a, at5 b, at1 n, at0 f])
  | .st32 d a b f => some (pack 0x88000000 [at18 d, at11 a, at5 b, at0 f])
  | .st64 d a b f => some (pack 0x8A000000 [at18 d, at11 a, at5 b, at0 f])
  | .st128 d a b f => some (pack 0x8C000000 [at18 d, at11 a, at5 b, at0 f])
  | .stN d a b n f => some (pack 0x8E000000 [at18 d, at11 a, at5 b, at1 n, at0 f])
  | .lds d b n f i => some (pack 0x90000000 [at19 d, at13 b, at9 n, at8 f, at0 i])
  | .sts d b n f i => some (pack 0x90001000 [at19 d, at13 b, at9 n, at8 f, at0 i])
  | .ldb d b t f => some (pack 0x92000000 [at18 d, at5 b, at1 t, at0 f])
  | .pref a b n => some (pack 0x94000000 [at11 a, at5 b, at1 n])
  | .fence p s c => some (pack 0x96000000 [at17 p, at9 s, at6 c])
  | .waitc a v o z f => some (pack 0x98000000 [at19 a, at13 v, at9 o, at8 z, at7 f])
  | .decantBind d a b => some (pack 0x9A000000 [at19 d, at13 a, at7 b])
  | .decantUnbind d a => some (pack 0x9A000001 [at19 d, at13 a])
  | .ldw d b f => some (pack 0x9C000000 [at18 d, at5 b, at0 f])
  | .stw d b f => some (pack 0x9C000002 [at18 d, at5 b, at0 f])
  | .clst d a b n f => some (pack 0x9E000000 [at18 d, at11 a, at5 b, at1 n, at0 f])
  | .amo d a b o r f => some (pack 0xA0000000 [at18 d, at11 a, at7 b, at4 o, at1 r, at0 f])
  | .amor d a b o r f => some (pack 0xA2000000 [at18 d, at11 a, at7 b, at4 o, at1 r, at0 f])
  | .cas d a b s r f => some (pack 0xA4000000 [at18 d, at11 a, at7 b, at4 s, at1 r, at0 f])
  | .acust d a b h r f => some (pack 0xA6000000 [at17 d, at10 a, at7 b, at3 h, at1 r, at0 f])
  | .asinst h a b => some (pack 0xA7000000 [at20 h, at14 a, at8 b])
  | .tlbinvVaDev a b => some (pack 0xA8000000 [at13 a, at7 b])
  | .tlbinvVaSys a b => some (pack 0xA8000001 [at13 a, at7 b])
  | .tlbinvAsidDev a => some (pack 0xA8000002 [at13 a])
  | .tlbinvAsidSys a => some (pack 0xA8000003 [at13 a])
  | .tlbinvAllDev => some (pack 0xA8000004 [])
  | .tlbinvAllSys => some (pack 0xA8000005 [])
  | .tlbsyncDev => some (pack 0xA8000008 [])
  | .tlbsyncSys => some (pack 0xA8000009 [])
  | .atrans d a n => some (pack 0xAA000000 [at19 d, at13 a, at0 n])
  | .mbind a g n => some (pack 0xAC000000 [at12 a, at6 g, at1 n])
  | .mready => some (pack 0xAE000000 [])
  | .msign a g f => some (pack 0xB0000000 [at12 a, at1 g, at0 f])
  | .mma c a g => some (pack 0xB2000000 [at18 c, at12 a, at6 g])
  | .mtile c a g => some (pack 0xB4000000 [at18 c, at12 a, at6 g])
  | .mepi c g m => some (pack 0xB6000000 [at18 c, at6 g, at1 m])
  | .splitEnc a b f => some (pack 0xB8000000 [at12 a, at6 b, at0 f])
  | .splitDec a b f => some (pack 0xB8000002 [at12 a, at6 b, at0 f])
  | .mstat i d g => some (pack 0xBA000000 [at18 i, at12 d, at6 g])
  | .mrfence => some (pack 0xBC000000 [])
  | .spgRow a b f => some (pack 0xC0000000 [at12 a, at6 b, at0 f])
  | .spgFlush a b f => some (pack 0xC2000000 [at12 a, at6 b, at0 f])
  | .rackHint a b => some (pack 0xC4000000 [at12 a, at6 b])
  | .rackInv a b => some (pack 0xC4000002 [at12 a, at6 b])
  | .cp l a b f => some (pack 0xC8000000 [at18 l, at12 a, at6 b, at0 f])
  | .cpG l a b f => some (pack 0xC8000002 [at18 l, at12 a, at6 b, at0 f])
  | .cpT a b f => some (pack 0xCA000000 [at12 a, at6 b, at0 f])
  | .cpMc l a b f => some (pack 0xCC000000 [at18 l, at12 a, at6 b, at0 f])
  | .cpStat i d => some (pack 0xCE000000 [at18 i, at12 d])
  | .put l a b f => some (pack 0xD0000000 [at18 l, at12 a, at6 b, at0 f])
  | .putG l a b f => some (pack 0xD0000002 [at18 l, at12 a, at6 b, at0 f])
  | .get l a b f => some (pack 0xD2000000 [at18 l, at12 a, at6 b, at0 f])
  | .getG l a b f => some (pack 0xD2000002 [at18 l, at12 a, at6 b, at0 f])
  | .tsend p a b f => some (pack 0xD4000000 [at18 p, at12 a, at6 b, at0 f])
  | .cntRd d c => some (pack 0xD6000000 [at12 d, at6 c])
  | .cntSet l a c => some (pack 0xD6000002 [at18 l, at12 a, at6 c])
  | .cntAdd v c => some (pack 0xD6000004 [at12 v, at6 c])
  | .cntwait v c f => some (pack 0xD6000010 [at12 v, at6 c, at0 f])
  | .qpost q a => some (pack 0xD8000000 [at12 q, at6 a])
  | .msend l t s f => some (pack 0xDA000000 [at18 l, at12 t, at6 s, at0 f])
  | .qpop r d q => some (pack 0xDC000000 [at18 r, at12 d, at6 q])
  | .peerStat d i => some (pack 0xDE000000 [at12 d, at6 i])
  | .peerClr i => some (pack 0xDE000002 [at6 i])
  | .spawn t a b f => some (pack 0xE0000000 [at18 t, at12 a, at6 b, at0 f])
  | .spawnv d t f => some (pack 0xE2000000 [at18 d, at12 t, at0 f])
  | .itemdone => some (pack 0xE4000000 [])
  | .launch a b f => some (pack 0xE6000000 [at12 a, at6 b, at0 f])
  | .preemptPt n a => some (pack 0xE6000002 [at18 n, at12 a])
  | .evread n d => some (pack 0xE8000000 [at18 n, at12 d])
  | .evctl n c => some (pack 0xE8000002 [at18 n, at12 c])
  | .tmark v => some (pack 0xEA000000 [at12 v])
  | .mod m s c o l t => some (pack 0xFA000000 [at22 m, at20 s, at17 c, at14 o, at11 l, at8 t])
  | _ => none

/-- The words of an instruction, first word first: two for `LIMM` (R43), none for a hardware step. -/
def encode : Instr → List Word
  | .limm imm => [0xF8000000#32, imm]
  | i =>
    match encodeNat i with
    | some w => [BitVec.ofNat 32 w]
    | none => []

/-- The words that `nbits` bits numbered as in spec/opcode_table.json stand for: bit 0 is the least significant bit of the
first word (R5, R32); the bits above `nbits`, up to the two words of `LIMM`, are zero. -/
def tableWords (nbits w : Nat) : List Word :=
  let v := w % 2 ^ nbits
  [BitVec.ofNat 32 v, BitVec.ofNat 32 (v / 2 ^ 32)]

/-- What the decoder reads from the words of an opcode-table row. -/
def decodeTableWord (nbits w : Nat) : Option Instr :=
  match decode (tableWords nbits w) with
  | .ok (i, _) => some i
  | .error _ => none

end Sys2Proof
end

