-- ==== Sys2Proof/Machine/Num.lean ====
section
/-!
DEFINITION. Number formats and arithmetic: exact values of the float formats, rounding and saturation with their flags, integer
elements, conversions, the special functions (R56-R66, R184-R198).
-/
namespace Sys2Proof.Machine

-- Formats (R57) -------------------------------------------------------------------------------------------------------

/-- What a format does with its topmost codes: IEEE 754, the single NaN of E4M3, or finite numbers only. -/
inductive FKind where
  | ieee | e4m3 | finite
deriving DecidableEq, Repr

/-- A float format: exponent bits, mantissa bits, kind, and whether it saturates by default (R65). -/
structure Fmt where
  eb : Nat
  mb : Nat
  kind : FKind
  sat : Bool
deriving DecidableEq, Repr

/-- F32. -/
def fmtF32 : Fmt := { eb := 8, mb := 23, kind := .ieee, sat := false }
/-- BF16. -/
def fmtBF16 : Fmt := { eb := 8, mb := 7, kind := .ieee, sat := false }
/-- F16. -/
def fmtF16 : Fmt := { eb := 5, mb := 10, kind := .ieee, sat := false }
/-- E5M2. -/
def fmtE5M2 : Fmt := { eb := 5, mb := 2, kind := .ieee, sat := true }
/-- E4M3. -/
def fmtE4M3 : Fmt := { eb := 4, mb := 3, kind := .e4m3, sat := true }
/-- E3M2. -/
def fmtE3M2 : Fmt := { eb := 3, mb := 2, kind := .finite, sat := true }
/-- E2M3. -/
def fmtE2M3 : Fmt := { eb := 2, mb := 3, kind := .finite, sat := true }
/-- E2M1. -/
def fmtE2M1 : Fmt := { eb := 2, mb := 1, kind := .finite, sat := true }

/-- Exponent bias. -/
def Fmt.bias (f : Fmt) : Int := 2 ^ (f.eb - 1) - 1
/-- Exponent of the smallest normal number. -/
def Fmt.emin (f : Fmt) : Int := 1 - f.bias
/-- Exponent of the largest finite number. -/
def Fmt.emax (f : Fmt) : Int := match f.kind with | .ieee => f.bias | _ => 2 ^ f.eb - 1 - f.bias
/-- Largest mantissa, with its leading one, at the largest exponent. -/
def Fmt.mmax (f : Fmt) : Nat := match f.kind with | .e4m3 => 2 ^ (f.mb + 1) - 2 | _ => 2 ^ (f.mb + 1) - 1
/-- Width in bits. -/
def Fmt.width (f : Fmt) : Nat := 1 + f.eb + f.mb
/-- The sign bit as a number. -/
def Fmt.signBit (f : Fmt) (neg : Bool) : Nat := if neg then 2 ^ (f.eb + f.mb) else 0
/-- The largest finite magnitude's code. -/
def Fmt.maxCode (f : Fmt) : Nat :=
  match f.kind with
  | .ieee => (2 ^ f.eb - 1) * 2 ^ f.mb - 1
  | .e4m3 => 2 ^ (f.eb + f.mb) - 2
  | .finite => 2 ^ (f.eb + f.mb) - 1
/-- The default NaN (R57): E3M2, E2M3 and E2M1 have none and give +0 (R65). -/
def Fmt.nanCode (f : Fmt) : Nat :=
  match f.kind with
  | .ieee => (2 ^ f.eb - 1) * 2 ^ f.mb + 2 ^ (f.mb - 1)
  | .e4m3 => 2 ^ (f.eb + f.mb) - 1
  | .finite => 0
/-- The infinity of a sign. -/
def Fmt.infCode (f : Fmt) (neg : Bool) : Nat := f.signBit neg + (2 ^ f.eb - 1) * 2 ^ f.mb

/-- An exact float value: a NaN, signalling or quiet, an infinity, or a sign with `m × 2^e`. -/
inductive FV where
  | nan (sig : Bool)
  | inf (neg : Bool)
  | fin (neg : Bool) (m : Nat) (e : Int)
deriving DecidableEq, Repr

/-- The value of a code (R57, R58). -/
def FV.ofBits (f : Fmt) (x : Nat) : FV :=
  let neg := bitsN x (f.eb + f.mb) 1 == 1
  let ex := bitsN x f.mb f.eb
  let m := bitsN x 0 f.mb
  if f.kind = .ieee ∧ ex = 2 ^ f.eb - 1 then
    if m = 0 then .inf neg else .nan (m / 2 ^ (f.mb - 1) == 0)
  else if f.kind = .e4m3 ∧ ex = 2 ^ f.eb - 1 ∧ m = 2 ^ f.mb - 1 then .nan false
  else if ex = 0 then .fin neg m (f.emin - f.mb)
  else .fin neg (2 ^ f.mb + m) ((ex : Int) - f.bias - f.mb)

/-- Is the value zero? -/
def FV.isZero : FV → Bool
  | .fin _ m _ => m == 0
  | _ => false

/-- NV for a signalling NaN that is read (R58). -/
def FV.sigFl : FV → Fl
  | .nan true => flNV
  | _ => 0

/-- The value with its sign changed. -/
def FV.neg : FV → FV
  | .nan s => .nan s
  | .inf n => .inf (!n)
  | .fin n m e => .fin (!n) m e

-- Rounding (R64, R65) -------------------------------------------------------------------------------------------------

/-- `m / 2^sh` rounded to an integer in mode `rm` for a sign; whether it is inexact. -/
def rshr (rm : Nat) (neg : Bool) (m sh : Nat) : Nat × Bool :=
  if m = 0 then (0, false)
  else if Nat.log2 m + 2 < sh then (if (rm = 2 ∧ neg) ∨ (rm = 3 ∧ ¬ neg) then 1 else 0, true)
  else
    let h := 2 ^ sh
    let q := m / h
    let r := m % h
    if r = 0 then (q, false)
    else
      let up := match rm with
        | 0 => decide (h < 2 * r) || (decide (2 * r = h) && q % 2 == 1)
        | 1 => false
        | 2 => neg
        | 3 => !neg
        | _ => decide (h ≤ 2 * r)
      (if up then q + 1 else q, true)

/-- `m × 2^e` as a multiple of `2^q`, rounded. -/
def toUlps (rm : Nat) (neg : Bool) (m : Nat) (e q : Int) : Nat × Bool :=
  if q ≤ e then (m * 2 ^ (e - q).toNat, false) else rshr rm neg m (q - e).toNat

/-- Overflow of a finite result (R65). -/
def overflow (f : Fmt) (rm : Nat) (sat neg : Bool) : Nat × Fl :=
  if sat then (f.signBit neg + f.maxCode, flOF ||| flSAT ||| flNX)
  else match f.kind with
    | .ieee =>
      let toMax := match rm with | 1 => true | 2 => !neg | 3 => neg | _ => false
      (if toMax then f.signBit neg + f.maxCode else f.infCode neg, flOF ||| flNX)
    | _ => (f.nanCode, flOF ||| flNV)

/-- Rounds a finite exact value once into a format (R64-R66). -/
def encFin (f : Fmt) (rm : Nat) (sat neg : Bool) (m : Nat) (e : Int) : Nat × Fl :=
  if m = 0 then (f.signBit neg, 0)
  else
    let k : Int := (Nat.log2 m : Int) + e
    let q := max (k - f.mb) (f.emin - f.mb)
    let r := toUlps rm neg m e q
    let n := r.1
    let u := toUlps rm neg m e (k - f.mb)
    let tiny := decide ((Nat.log2 u.1 : Int) + (k - f.mb) < f.emin)
    let fl : Fl := (if r.2 then flNX else 0) ||| (if r.2 && tiny then flUF else 0)
    if n = 0 then (f.signBit neg, fl)
    else
      let kk : Int := (Nat.log2 n : Int) + q
      let nm := n * 2 ^ f.mb / 2 ^ Nat.log2 n
      if f.emax < kk ∨ (kk = f.emax ∧ f.mmax < nm) then overflow f rm sat neg
      else if kk < f.emin then (f.signBit neg + n, fl)
      else (f.signBit neg + (kk + f.bias).toNat * 2 ^ f.mb + (nm - 2 ^ f.mb), fl)

/-- Puts an exact result into a format (R65). (Log 162 DESIGN CHOICE.) -/
def encFV (f : Fmt) (rm : Nat) (sat : Bool) : FV → Nat × Fl
  | .nan _ => (f.nanCode, if f.kind = .finite then flNV else 0)
  | .inf neg =>
    if sat then (f.signBit neg + f.maxCode, flSAT)
    else match f.kind with
      | .ieee => (f.infCode neg, 0)
      | _ => (f.nanCode, flNV)
  | .fin neg m e => encFin f rm sat neg m e

/-- Does an instruction with this SAT hint saturate into the format (R65)? -/
def satOn (f : Fmt) (sat : Nat) : Bool := if sat = 0 then f.sat else sat == 1

-- Exact operations ----------------------------------------------------------------------------------------------------

/-- Signed mantissa. -/
def sgnm (neg : Bool) (m : Nat) : Int := if neg then -(m : Int) else m

/-- Exact sum; an exact zero is +0, under RDN -0 (R58). -/
def fvAdd (rm : Nat) (a b : FV) : FV × Fl :=
  let sg := a.sigFl ||| b.sigFl
  match a, b with
  | .nan _, _ | _, .nan _ => (.nan false, sg)
  | .inf x, .inf y => if x = y then (.inf x, 0) else (.nan false, flNV)
  | .inf x, _ => (.inf x, 0)
  | _, .inf y => (.inf y, 0)
  | .fin na ma ea, .fin nb mb eb =>
    let e := min ea eb
    let v := sgnm na (ma * 2 ^ (ea - e).toNat) + sgnm nb (mb * 2 ^ (eb - e).toNat)
    if v = 0 then (.fin (if na = nb then na else rm == 2) 0 e, 0) else (.fin (decide (v < 0)) v.natAbs e, 0)

/-- Exact product. -/
def fvMul (a b : FV) : FV × Fl :=
  let sg := a.sigFl ||| b.sigFl
  match a, b with
  | .nan _, _ | _, .nan _ => (.nan false, sg)
  | .inf x, .inf y => (.inf (x != y), 0)
  | .inf x, .fin y m _ | .fin y m _, .inf x => if m = 0 then (.nan false, flNV) else (.inf (x != y), 0)
  | .fin na ma ea, .fin nb mb eb => (.fin (na != nb) (ma * mb) (ea + eb), 0)

/-- Exact `a × b + d`; an invalid product sets NV whatever d is (R66). (Log 35 DEDUCED.) -/
def fvFma (rm : Nat) (a b d : FV) : FV × Fl :=
  let p := fvMul a b
  let r := fvAdd rm p.1 d
  (r.1, p.2 ||| r.2)

/-- Is a finite value or infinity below another, with -0 equal to +0; NaNs are the caller's. -/
def fvLt (a b : FV) : Bool :=
  match a, b with
  | .inf x, .inf y => x && !y
  | .inf x, .fin .. => x
  | .fin .., .inf y => !y
  | .fin na ma ea, .fin nb mb eb =>
    let e := min ea eb
    decide (sgnm na (ma * 2 ^ (ea - e).toNat) < sgnm nb (mb * 2 ^ (eb - e).toNat))
  | _, _ => false

/-- Sign of a value. -/
def FV.sign : FV → Bool
  | .fin n _ _ | .inf n => n
  | .nan _ => false

/-- VMIN and VMAX: a NaN gives the NaN, -0 lies below +0 (R184). Gives the code. -/
def fvMinMax (f : Fmt) (isMax : Bool) (a b : Nat) : Nat × Fl :=
  let x := FV.ofBits f a
  let y := FV.ofBits f b
  match x, y with
  | .nan _, _ | _, .nan _ => (f.nanCode, x.sigFl ||| y.sigFl)
  | _, _ =>
    let less := fvLt x y || (!fvLt y x && x.sign && !y.sign)
    (if less != isMax then a else b, 0)

-- Integer elements (R56, R185) ----------------------------------------------------------------------------------------

/-- Two's complement value of `w` bits. -/
def sgnOf (w x : Nat) : Int := if x % 2 ^ w < 2 ^ (w - 1) then ((x % 2 ^ w : Nat) : Int) else ((x % 2 ^ w : Nat) : Int) - 2 ^ w

/-- Value of `w` bits, signed or not. -/
def intOf (w : Nat) (uns : Bool) (x : Nat) : Int := if uns then ((x % 2 ^ w : Nat) : Int) else sgnOf w x

/-- The low `w` bits of an integer. -/
def wrapI (w : Nat) (x : Int) : Nat := (x % (2 ^ w : Int)).toNat

/-- Least and greatest value of an integer format. -/
def intMin (w : Nat) (uns : Bool) : Int := if uns then 0 else -(2 ^ (w - 1))
/-- Greatest value of an integer format. -/
def intMax (w : Nat) (uns : Bool) : Int := if uns then 2 ^ w - 1 else 2 ^ (w - 1) - 1

/-- An integer result: wrapped, or clamped with SAT (R56). -/
def encInt (w : Nat) (uns sat : Bool) (x : Int) : Nat × Fl :=
  if sat then
    if x < intMin w uns then (wrapI w (intMin w uns), flSAT)
    else if intMax w uns < x then (wrapI w (intMax w uns), flSAT)
    else (wrapI w x, 0)
  else (wrapI w x, 0)

-- Tags (R61) ----------------------------------------------------------------------------------------------------------

/-- The float format of a tag's elements. -/
def fmtOf (t : Tag) : Option Fmt :=
  match t.toNat with
  | 3 => some fmtF32 | 4 => some fmtBF16 | 5 => some fmtF16 | 6 => some fmtE4M3 | 7 => some fmtE5M2 | 8 => some fmtE2M3
  | 9 => some fmtE3M2 | 10 => some fmtE2M1 | _ => none

/-- Is the tag an integer tag of class IN? -/
def isInt (t : Tag) : Bool := t == 1 || t == 2 || t == 0xC || t == 0xD

/-- Elements per lane; a pair counts one (R61). -/
def elemsOf (t : Tag) : Nat :=
  match t.toNat with
  | 4 | 5 | 12 => 2 | 6 | 7 | 13 => 4 | 8 | 9 => 5 | 10 => 8 | 11 => 10 | _ => 1

/-- Width of an element; 64 for a pair. -/
def widthOf (t : Tag) : Nat :=
  match t.toNat with
  | 4 | 5 | 12 => 16 | 6 | 7 | 13 => 8 | 8 | 9 => 6 | 10 => 4 | 11 => 3 | 14 => 64 | _ => 32

/-- Element `i` of a lane. -/
def elemOf (t : Tag) (x i : Nat) : Nat := bitsN x (widthOf t * i) (widthOf t)

/-- A lane from its elements, with the flags of all. -/
def packElems (t : Tag) (f : Nat → Nat × Fl) : Nat × Fl :=
  (List.range (elemsOf t)).foldl (fun (p : Nat × Fl) i =>
    let r := f i
    (p.1 + (r.1 % 2 ^ widthOf t) * 2 ^ (widthOf t * i), p.2 ||| r.2)) (0, 0)

/-- The integer of a B3 code (R59). -/
def b3Val (x : Nat) : Int := if x / 4 % 2 = 1 then -((x % 4 : Nat) : Int) else ((x % 4 : Nat) : Int)

/-- What an element holds: a float value or an integer. -/
inductive EV where
  | f (v : FV)
  | i (x : Int)
deriving DecidableEq, Repr

/-- The value of an element of a tag; `uns` is for a pair (R177). -/
def elemVal (t : Tag) (uns : Bool) (x : Nat) : EV :=
  match fmtOf t with
  | some f => .f (FV.ofBits f x)
  | none =>
    if t = 0xB then .i (b3Val x)
    else .i (intOf (widthOf t) (t == 2 || (t == 0xE && uns)) x)

-- Conversions (R197, R198) --------------------------------------------------------------------------------------------

/-- A float rounded to an integer, with R65's integer row. (Log 36 DEDUCED.) -/
def floatToInt (rm w : Nat) (uns : Bool) (v : FV) : Nat × Fl :=
  let clamp := fun (neg : Bool) => wrapI w (if neg then intMin w uns else intMax w uns)
  match v with
  | .nan sg => (0, flNV)
  | .inf neg => (clamp neg, flNV ||| flSAT)
  | .fin neg m e =>
    let r := toUlps rm neg m e 0
    let x := sgnm neg r.1
    if x < intMin w uns ∨ intMax w uns < x then (clamp neg, flNV ||| flSAT)
    else (wrapI w x, if r.2 then flNX else 0)

/-- The B3 code of a sign and a magnitude. -/
def b3Code (neg : Bool) (q : Nat) : Nat := (if neg then 4 else 0) + q

/-- cvt of R198 into a tag: 0xE an I64 pair, 0xF a U64 pair. `sat` is the SAT hint. (Log 36 DEDUCED.) -/
def cvtTo (rm sat : Nat) (t : Tag) (v : EV) : Nat × Fl :=
  match fmtOf t with
  | some f =>
    (match v with
     | .f x => let r := encFV f rm (satOn f sat) x; (r.1, r.2 ||| x.sigFl)
     | .i x => encFin f rm (satOn f sat) (decide (x < 0)) x.natAbs 0)
  | none =>
    if t = 0xB then
      match v with
      | .f (.nan _) => (0, flNV)
      | .f (.inf neg) => (b3Code neg 3, flNV ||| flSAT)
      | .f (.fin neg m e) =>
        let r := toUlps rm neg m e 0
        if 3 < r.1 then (b3Code neg 3, flNV ||| flSAT) else (b3Code neg r.1, if r.2 then flNX else 0)
      | .i x => if 3 < x.natAbs then (b3Code (decide (x < 0)) 3, flSAT) else (b3Code (decide (x < 0)) x.natAbs, 0)
    else
      let w := if t = 0xF then 64 else widthOf t
      let uns := t == 2 || t == 0xF
      match v with
      | .f x => floatToInt rm w uns x
      | .i x => encInt w uns (sat == 1 || t == 0xE || t == 0xF) x

/-- A whole lane converted to a tag (R198). (Log 36 DEDUCED.) -/
def cvtLane (rm sat : Nat) (src : Tag) (uns : Bool) (dst : Tag) (x : Nat) : Nat × Fl :=
  if src = dst ∧ ¬ (src = 0xE ∧ uns) ∨ (dst = 0xF ∧ src = 0xE ∧ uns) then (x, 0)
  else if dst = 0xF then cvtTo rm sat 0xF (elemVal src uns (elemOf src x 0))
  else packElems dst (fun i => if i < elemsOf src then cvtTo rm sat dst (elemVal src uns (elemOf src x i)) else (0, 0))

-- Special functions (R196) --------------------------------------------------------------------------------------------

/-- Fraction bits of the fixed-point approximations. -/
def fxBits : Nat := 128
/-- One. -/
def fxOne : Int := 2 ^ fxBits
/-- Product of two fixed-point numbers. -/
def fxMul (a b : Int) : Int := a * b / fxOne

/-- ln 2 with 128 fraction bits. -/
def fxLn2 : Int := 0xB17217F7D1CF79ABC9E3B39803F2F6AF
/-- Pi with 128 fraction bits. -/
def fxPi : Int := 0x3243F6A8885A308D313198A2E03707344

/-- Sum of a series: term, next term from the term and the index, `n` terms. -/
def fxSeries (next : Int → Nat → Int) : Nat → Nat → Int → Int → Int
  | 0, _, _, acc => acc
  | n + 1, i, t, acc => fxSeries next n (i + 1) (next t i) (acc + t)

/-- 2^x for x in [0, 1). -/
def fxExp2 (x : Int) : Int :=
  let y := fxMul x fxLn2
  fxSeries (fun t i => fxMul t y / (i + 1 : Int)) 40 0 fxOne 0

/-- log2 of m in [1, 2): 2 atanh((m - 1)/(m + 1)) / ln 2. -/
def fxLog2 (m : Int) : Int :=
  let z := (m - fxOne) * fxOne / (m + fxOne)
  let z2 := fxMul z z
  let s := (List.range 45).foldl (fun (p : Int × Int) (i : Nat) => (p.1 + p.2 / (2 * (i : Int) + 1), fxMul p.2 z2)) (0, z)
  2 * s.1 * fxOne / fxLn2

/-- sin(πr) for r in [-1/2, 1/2]. -/
def fxSin (r : Int) : Int :=
  let y := fxMul r fxPi
  let y2 := fxMul y y
  fxSeries (fun t i => -(fxMul t y2) / ((2 * i + 2) * (2 * i + 3) : Int)) 30 0 y 0

/-- Square root of a natural number, bit by bit. -/
def isqrt (n : Nat) : Nat → Nat → Nat
  | 0, r => r
  | k + 1, r => isqrt n k (if (r + 2 ^ k) * (r + 2 ^ k) ≤ n then r + 2 ^ k else r)

/-- The six functions by the minor of R48. -/
inductive SFn where
  | exp2 | log2 | rcp | rsq | sin | cos
deriving DecidableEq, Repr

/-- Number of a function and format, for the free value. -/
def SFn.code (g : SFn) (f : Fmt) : Nat :=
  (match g with | .exp2 => 0 | .log2 => 1 | .rcp => 2 | .rsq => 3 | .sin => 4 | .cos => 5) + 16 * f.eb + 1024 * f.mb

/-- An approximation `x × 2^e` of the function's value, good to more than 90 bits relative to its bound.
(Log 40 DESIGN CHOICE.) -/
def SFn.approx (g : SFn) (neg : Bool) (m : Nat) (e : Int) : Int × Int :=
  match g with
  | .exp2 =>
    let v : Int := if 0 ≤ e + fxBits then sgnm neg (m * 2 ^ (e + fxBits).toNat)
      else (sgnm neg m) / (2 ^ (-(e + fxBits)).toNat : Int)
    let n := v / fxOne
    (fxExp2 (v - n * fxOne), n - fxBits)
  | .log2 =>
    let k := Nat.log2 m
    let mm : Int := ((m * 2 ^ fxBits / 2 ^ k : Nat) : Int)
    (((k : Int) + e) * fxOne + fxLog2 mm, -(fxBits : Int))
  | .rcp => (sgnm neg (2 ^ (fxBits + Nat.log2 m) / m), -(e + ((fxBits + Nat.log2 m : Nat) : Int)))
  | .rsq =>
    let odd := e % 2 == 1
    let m2 := if odd then 2 * m else m
    let e2 := if odd then e - 1 else e
    let s := 2 * fxBits + 2 * (Nat.log2 m2)
    ((isqrt (2 ^ s / m2) (fxBits + Nat.log2 m2 + 2) 0 : Nat), -(((s / 2 : Nat) : Int) + e2 / 2))
  | .sin | .cos =>
    -- the argument in half-turns, reduced modulo 2
    let v : Int := if 0 ≤ e + fxBits then ((m * 2 ^ ((e + fxBits).toNat) % (2 * fxOne.toNat) : Nat) : Int)
      else ((m / 2 ^ (-(e + fxBits)).toNat % (2 * fxOne.toNat) : Nat) : Int)
    let a : Int := if g = .cos then v + fxOne / 2 else (if neg then 2 * fxOne - v else v)
    let r := a % (2 * fxOne)
    let half := fxOne / 2
    let x := if r ≤ half then r else if r ≤ 3 * half then fxOne - r else r - 2 * fxOne
    (fxSin x, -(fxBits : Int))

/-- Is the code within the bound of the approximation (R196)? `ulps` units in the last place, or an absolute bound
`2^(-k)`. (Log 39 DEDUCED, 40 DESIGN CHOICE.) -/
def withinBound (f : Fmt) (code : Nat) (x e : Int) (ulps : Nat) (abs : Option Nat) : Bool :=
  match FV.ofBits f code with
  | .fin n m c =>
    let k : Int := (Nat.log2 x.natAbs : Int) + e
    let q := max (k - f.mb) (f.emin - f.mb)
    let b : Int × Int := match abs with | some a => (1, -(a : Int)) | none => (ulps, q)
    let lo := min (min e c) b.2 - 8
    let d := (sgnm n (m * 2 ^ (c - lo).toNat) - x * 2 ^ (e - lo).toNat).natAbs
    let eps : Int := match abs with | some _ => -100 | none => k - 80
    decide ((d : Int) + 2 ^ (eps - lo).toNat ≤ b.1 * 2 ^ (b.2 - lo).toNat)
  | _ => false

/-- Is a value an integer? -/
def FV.isInteger : FV → Bool
  | .fin _ m e => decide (0 ≤ e) || decide (m % 2 ^ (Nat.min (-e).toNat (Nat.log2 m + 1)) = 0)
  | _ => false

/-- Is the mantissa a power of two? -/
def isPow2 (m : Nat) : Bool := m != 0 && m == 2 ^ Nat.log2 m

/-- A special function outside its special values: overflow by R65, exact results exactly, otherwise the free value where it
keeps the bound, and the nearest code where it does not. Neither NX nor UF is set. (Log 38 DEDUCED.) -/
def SFn.general (g : SFn) (f : Fmt) (sat : Bool) (bits : Nat) (neg : Bool) (m : Nat) (e : Int) : Nat × Fl :=
  let k : Int := (Nat.log2 m : Int) + e
  let exact : Option (Int × Int) := match g with
    | .exp2 => if (FV.fin neg m e).isInteger ∧ k ≤ 20 then some (1, sgnm neg (if 0 ≤ e then m * 2 ^ e.toNat else m / 2 ^ (-e).toNat)) else none
    | .log2 => if isPow2 m then some (k, 0) else none
    | .rcp => if isPow2 m then some (sgnm neg 1, -k) else none
    | .rsq => if isPow2 m ∧ k % 2 = 0 then some (1, -(k / 2)) else none
    | _ => none
  let big := g = .exp2 ∧ 20 < k
  if big then (if neg then (0, 0) else ((overflow f 0 sat false).1, (overflow f 0 sat false).2 &&& ~~~flNX))
  else
    let a : Int × Int := match exact with | some x => x | none => g.approx neg m e
    let ax := a.1.natAbs
    let an := decide (a.1 < 0)
    let near : Nat × Fl := encFin f 0 sat an ax a.2
    if f.emax < (Nat.log2 ax : Int) + a.2 then (near.1, near.2 &&& ~~~flNX)
    else if exact.isSome then (near.1, 0)
    else
      let c := (Config.special (g.code f) (BitVec.ofNat 32 bits)).toNat % 2 ^ f.width
      let half := decide (-1 ≤ k) && (decide (k < 1) || (k == 1 && isPow2 m))
      let abs : Option Nat := match g with
        | .sin | .cos => some (if f.mb = 23 then 22 else 9)
        | .log2 => if half then some (if f.mb = 23 then 22 else 9) else none
        | _ => none
      let ulps := match g with | .rcp => 1 | _ => if f.mb = 23 then 2 else 1
      (if withinBound f c a.1 a.2 ulps abs then c else near.1, 0)

/-- A special function of one element (R196). (Log 16 DESIGN CHOICE, 38 DEDUCED, 39 DEDUCED, 40 DESIGN CHOICE.) -/
def SFn.eval (g : SFn) (f : Fmt) (sat : Bool) (bits : Nat) : Nat × Fl :=
  let one := encFin f 0 false false 1 0
  match FV.ofBits f bits with
  | .nan sg => (f.nanCode, if sg then flNV else 0)
  | .inf neg =>
    (match g with
     | .exp2 => (if neg then 0 else f.infCode false, 0)
     | .log2 => if neg then (f.nanCode, flNV) else (f.infCode false, 0)
     | .rcp => (f.signBit neg, 0)
     | .rsq => if neg then (f.nanCode, flNV) else (0, 0)
     | _ => (f.nanCode, flNV))
  | .fin neg m e =>
    if m = 0 then
      match g with
      | .exp2 | .cos => (one.1, 0)
      | .log2 => (f.infCode true, flDZ)
      | .rcp | .rsq => (f.infCode neg, flDZ)
      | .sin => (f.signBit neg, 0)
    else
      match g with
      | .log2 | .rsq => if neg then (f.nanCode, flNV) else g.general f sat bits neg m e
      | .sin | .cos =>
        -- twice the argument: whole half-turns have exact values
        let v := FV.fin neg m (e + 1)
        if v.isInteger then
          let n : Int := if 0 ≤ e + 1 then (if 2 ≤ e + 1 then 0 else sgnm neg (m * 2 ^ (e + 1).toNat))
            else sgnm neg (m / 2 ^ (-(e + 1)).toNat)
          let r := n % 4
          let i := if g = .cos then (r + 1) % 4 else r
          (match i with
           | 0 | 2 => (0, 0)
           | 1 => (one.1, 0)
           | _ => (f.signBit true + one.1, 0))
        else g.general f sat bits neg m e
      | _ => g.general f sat bits neg m e

end Sys2Proof.Machine
end

