-- ==== Sys2Proof/Machine/Scalar.lean ====
section
/-!
DEFINITION. The scalar unit: register, immediate and bit-field forms (R163-R165). They set no flag and never fault beyond the
checks of R47.
-/
namespace Sys2Proof.Machine

/-- Writes a scalar result and ends the unit. -/
def State.setSRetire (s : State) (d : BitVec 6) (v : DWord) : State := (s.setS d.toNat v).retire

/-- A scalar operation of the register forms: a = s[SS1], b = s[SS2] or the LIMM word. -/
def scal2 (i : Instr) (d a b : SReg) (f : DWord → DWord → DWord) (s : State) : Host.Outcome State Fault Refusal :=
  issue i s (fun s => s.setSRetire d (f (s.sreg a.toNat) (s.sB b)))

/-- 1 or 0. -/
def bit64 (b : Bool) : DWord := if b then 1 else 0

/-- Leading zeros of `w` bits, `w` for 0. -/
def clzN (w x : Nat) : Nat := if x = 0 then w else w - 1 - Nat.log2 x

/-- 1 + index of the lowest set bit of `w` bits, 0 for 0. -/
def ffsN (w x : Nat) : Nat := match (List.range w).find? (fun i => x.testBit i) with | some i => i + 1 | none => 0

/-- Set bits of `w` bits. -/
def popcN (w x : Nat) : Nat := ((List.range w).filter (fun i => x.testBit i)).length

/-- Signed division toward zero that never traps (R164). -/
def sdivR (a b : DWord) : DWord := if b = 0 then BitVec.allOnes 64 else BitVec.sdiv a b

/-- Signed remainder (R164). -/
def sremR (a b : DWord) : DWord := if b = 0 then a else BitVec.srem a b

/-- Unsigned division (R164). -/
def udivR (a b : DWord) : DWord := if b = 0 then BitVec.allOnes 64 else a / b

/-- Unsigned remainder (R164). -/
def uremR (a b : DWord) : DWord := if b = 0 then a else a % b

/-- `SADD` (R163). -/
def execSadd (d a b : SReg) (s : State) : Host.Outcome State Fault Refusal := scal2 (.sadd d a b) d a b (fun x y => x + y) s
/-- `SSUB` (R163). -/
def execSsub (d a b : SReg) (s : State) : Host.Outcome State Fault Refusal := scal2 (.ssub d a b) d a b (fun x y => x - y) s
/-- `SMUL` (R163). -/
def execSmul (d a b : SReg) (s : State) : Host.Outcome State Fault Refusal := scal2 (.smul d a b) d a b (fun x y => x * y) s
/-- `SMULH`: bits 127:64 of the signed product (R163). -/
def execSmulh (d a b : SReg) (s : State) : Host.Outcome State Fault Refusal :=
  scal2 (.smulh d a b) d a b (fun x y => BitVec.ofInt 64 (x.toInt * y.toInt / 2 ^ 64)) s
/-- `SMULH.U`: bits 127:64 of the unsigned product (R163). -/
def execSmulhU (d a b : SReg) (s : State) : Host.Outcome State Fault Refusal :=
  scal2 (.smulhU d a b) d a b (fun x y => BitVec.ofNat 64 (x.toNat * y.toNat / 2 ^ 64)) s
/-- `SDIV` (R164). -/
def execSdiv (d a b : SReg) (s : State) : Host.Outcome State Fault Refusal := scal2 (.sdiv d a b) d a b sdivR s
/-- `SDIV.U` (R164). -/
def execSdivU (d a b : SReg) (s : State) : Host.Outcome State Fault Refusal := scal2 (.sdivU d a b) d a b udivR s
/-- `SREM` (R164). -/
def execSrem (d a b : SReg) (s : State) : Host.Outcome State Fault Refusal := scal2 (.srem d a b) d a b sremR s
/-- `SREM.U` (R164). -/
def execSremU (d a b : SReg) (s : State) : Host.Outcome State Fault Refusal := scal2 (.sremU d a b) d a b uremR s
/-- `SAND` (R163). -/
def execSand (d a b : SReg) (s : State) : Host.Outcome State Fault Refusal := scal2 (.sand d a b) d a b (fun x y => x &&& y) s
/-- `SOR` (R163). -/
def execSor (d a b : SReg) (s : State) : Host.Outcome State Fault Refusal := scal2 (.sor d a b) d a b (fun x y => x ||| y) s
/-- `SXOR` (R163). -/
def execSxor (d a b : SReg) (s : State) : Host.Outcome State Fault Refusal := scal2 (.sxor d a b) d a b (fun x y => x ^^^ y) s
/-- `SSHL`: the count is b[5:0] (R163). -/
def execSshl (d a b : SReg) (s : State) : Host.Outcome State Fault Refusal :=
  scal2 (.sshl d a b) d a b (fun x y => x <<< (y.toNat % 64)) s
/-- `SSHR` (R163). -/
def execSshr (d a b : SReg) (s : State) : Host.Outcome State Fault Refusal :=
  scal2 (.sshr d a b) d a b (fun x y => x >>> (y.toNat % 64)) s
/-- `SSRA` (R163). -/
def execSsra (d a b : SReg) (s : State) : Host.Outcome State Fault Refusal :=
  scal2 (.ssra d a b) d a b (fun x y => x.sshiftRight (y.toNat % 64)) s
/-- `SMIN` (R163). -/
def execSmin (d a b : SReg) (s : State) : Host.Outcome State Fault Refusal :=
  scal2 (.smin d a b) d a b (fun x y => if x.slt y then x else y) s
/-- `SMIN.U` (R163). -/
def execSminU (d a b : SReg) (s : State) : Host.Outcome State Fault Refusal :=
  scal2 (.sminU d a b) d a b (fun x y => if x.ult y then x else y) s
/-- `SMAX` (R163). -/
def execSmax (d a b : SReg) (s : State) : Host.Outcome State Fault Refusal :=
  scal2 (.smax d a b) d a b (fun x y => if x.slt y then y else x) s
/-- `SMAX.U` (R163). -/
def execSmaxU (d a b : SReg) (s : State) : Host.Outcome State Fault Refusal :=
  scal2 (.smaxU d a b) d a b (fun x y => if x.ult y then y else x) s
/-- `SMOV` (R163). -/
def execSmov (d b : SReg) (s : State) : Host.Outcome State Fault Refusal :=
  issue (.smov d b) s (fun s => s.setSRetire d (s.sB b))
/-- `SCLZ` (R163). -/
def execSclz (d a : SReg) (s : State) : Host.Outcome State Fault Refusal :=
  issue (.sclz d a) s (fun s => s.setSRetire d (BitVec.ofNat 64 (clzN 64 (s.sreg a.toNat).toNat)))
/-- `SFFS` (R163). -/
def execSffs (d a : SReg) (s : State) : Host.Outcome State Fault Refusal :=
  issue (.sffs d a) s (fun s => s.setSRetire d (BitVec.ofNat 64 (ffsN 64 (s.sreg a.toNat).toNat)))
/-- `SPOPC` (R163). -/
def execSpopc (d a : SReg) (s : State) : Host.Outcome State Fault Refusal :=
  issue (.spopc d a) s (fun s => s.setSRetire d (BitVec.ofNat 64 (popcN 64 (s.sreg a.toNat).toNat)))
/-- `SSEL`: d != 0 selects a, else b (R163). -/
def execSsel (d a b : SReg) (s : State) : Host.Outcome State Fault Refusal :=
  issue (.ssel d a b) s (fun s => s.setSRetire d (if s.sreg d.toNat ≠ 0 then s.sreg a.toNat else s.sB b))

/-- The relations of `SCMP` by minor - 0x20 (R163). -/
def scmpRel (r : Nat) (a b : DWord) : Bool :=
  match r with
  | 0 => a == b
  | 1 => a != b
  | 2 => a.slt b
  | 3 => a.sle b
  | 4 => b.slt a
  | 5 => b.sle a
  | 6 => a.ult b
  | 7 => a.ule b
  | 8 => b.ult a
  | _ => b.ule a

/-- `SCMP` (R163). -/
def execScmp (d a b : SReg) (r : BitVec 4) (s : State) : Host.Outcome State Fault Refusal :=
  issue (.scmp d a b r) s (fun s => s.setSRetire d (bit64 (scmpRel r.toNat (s.sreg a.toNat) (s.sB b))))

/-- A scalar immediate form: b is the sign-extended immediate or the LIMM word (R165). -/
def scalI (i : Instr) (d a : SReg) (m : BitVec 13) (f : DWord → DWord → DWord) (s : State) :
    Host.Outcome State Fault Refusal :=
  issue i s (fun s => s.setSRetire d (f (s.sreg a.toNat) (s.imm13 m)))

/-- `SADD` with an immediate (R165). -/
def execSaddImm (d a : SReg) (i : BitVec 13) (s : State) : Host.Outcome State Fault Refusal :=
  scalI (.saddImm d a i) d a i (fun x y => x + y) s
/-- `SAND` with an immediate (R165). -/
def execSandImm (d a : SReg) (i : BitVec 13) (s : State) : Host.Outcome State Fault Refusal :=
  scalI (.sandImm d a i) d a i (fun x y => x &&& y) s
/-- `SOR` with an immediate (R165). -/
def execSorImm (d a : SReg) (i : BitVec 13) (s : State) : Host.Outcome State Fault Refusal :=
  scalI (.sorImm d a i) d a i (fun x y => x ||| y) s
/-- `SXOR` with an immediate (R165). -/
def execSxorImm (d a : SReg) (i : BitVec 13) (s : State) : Host.Outcome State Fault Refusal :=
  scalI (.sxorImm d a i) d a i (fun x y => x ^^^ y) s
/-- `SSHL` by an immediate (R165). -/
def execSshlImm (d a n : SReg) (s : State) : Host.Outcome State Fault Refusal :=
  issue (.sshlImm d a n) s (fun s => s.setSRetire d (s.sreg a.toNat <<< n.toNat))
/-- `SSHR` by an immediate (R165). -/
def execSshrImm (d a n : SReg) (s : State) : Host.Outcome State Fault Refusal :=
  issue (.sshrImm d a n) s (fun s => s.setSRetire d (s.sreg a.toNat >>> n.toNat))
/-- `SSRA` by an immediate (R165). -/
def execSsraImm (d a n : SReg) (s : State) : Host.Outcome State Fault Refusal :=
  issue (.ssraImm d a n) s (fun s => s.setSRetire d ((s.sreg a.toNat).sshiftRight n.toNat))
/-- `SLI` (R165). -/
def execSli (d : SReg) (i : BitVec 13) (s : State) : Host.Outcome State Fault Refusal :=
  issue (.sli d i) s (fun s => s.setSRetire d (s.imm13 i))
/-- `SLI.HI`: the LIMM word becomes bits 63:32 (R165). -/
def execSliHi (d : SReg) (s : State) : Host.Outcome State Fault Refusal :=
  issue (.sliHi d) s (fun s =>
    s.setSRetire d (BitVec.ofNat 64 ((s.me.hLimm.getD 0).toNat * 2 ^ 32 + (s.sreg d.toNat).toNat % 2 ^ 32)))
/-- `SMADD` (R165). -/
def execSmadd (d a b c : SReg) (s : State) : Host.Outcome State Fault Refusal :=
  issue (.smadd d a b c) s (fun s => s.setSRetire d (s.sreg a.toNat * s.sreg b.toNat + s.sreg c.toNat))
/-- `SBFX`: the field of `l + 1` bits at `p`, sign-extended where `x` is 1 (R165). -/
def execSbfx (d a p l : SReg) (x : BitVec 1) (s : State) : Host.Outcome State Fault Refusal :=
  issue (.sbfx d a p l x) s (fun s =>
    let n := l.toNat + 1
    let v := fld (s.sreg a.toNat) p.toNat n
    s.setSRetire d (if x = 1 then BitVec.ofInt 64 (sgnOf n v) else BitVec.ofNat 64 v))
/-- `SBFI`: inserts the low `l + 1` bits of a at `p` (R165). -/
def execSbfi (d a p l : SReg) (s : State) : Host.Outcome State Fault Refusal :=
  issue (.sbfi d a p l) s (fun s =>
    let n := l.toNat + 1
    let m := BitVec.ofNat 64 ((2 ^ n - 1) * 2 ^ p.toNat)
    s.setSRetire d ((s.sreg d.toNat &&& ~~~m) ||| ((s.sreg a.toNat <<< p.toNat) &&& m)))

end Sys2Proof.Machine
end

