-- ==== Sys2Proof/Machine/Control.lean ====
section
/-!
DEFINITION. The fibre sequencer: branches, divergence and rejoin, fibres made and ended, barriers, completion flags, traps,
system registers, code invalidation, predicates (R139-R174).
-/
namespace Sys2Proof.Machine

-- Branches and calls (R157) -------------------------------------------------------------------------------------------

/-- Takes a branch: a target that is not 4-aligned faults at the branch, another is checked when it is loaded (R40).
(Log 26 DEDUCED.) -/
def State.branchTo (s : State) (t : DWord) : State :=
  if t.toNat % 4 ≠ 0 then s.takeAt 0x03 t.toNat t 0 none else s.leave t s.me.viaHere

/-- A word offset, from the field or the LIMM word, in bytes. -/
def State.offset (s : State) (o : BitVec 16) : DWord :=
  (match s.me.hLimm with | some w => sext32 w | none => o.signExtend 64) * 4

/-- Takes a branch, or continues at the next header. -/
def State.branchIf (s : State) (c : Bool) (t : DWord) : State := if c then s.branchTo t else s.leave s.nextHeader none

/-- `BRA` (R157). -/
def execBra (o : BitVec 16) (s : State) : Host.Outcome State Fault Refusal :=
  issue (.bra o) s (fun s => s.branchTo (s.me.wordPc + s.offset o))
/-- `BRA.Z` (R157). -/
def execBraZ (r : SReg) (o : BitVec 16) (s : State) : Host.Outcome State Fault Refusal :=
  issue (.braZ r o) s (fun s => s.branchIf (s.sreg r.toNat == 0) (s.me.wordPc + s.offset o))
/-- `BRA.NZ` (R157). -/
def execBraNz (r : SReg) (o : BitVec 16) (s : State) : Host.Outcome State Fault Refusal :=
  issue (.braNz r o) s (fun s => s.branchIf (s.sreg r.toNat != 0) (s.me.wordPc + s.offset o))
/-- `BRA.LT` (R157). -/
def execBraLt (r : SReg) (o : BitVec 16) (s : State) : Host.Outcome State Fault Refusal :=
  issue (.braLt r o) s (fun s => s.branchIf (s.sreg r.toNat).msb (s.me.wordPc + s.offset o))
/-- `BRA.GE` (R157). -/
def execBraGe (r : SReg) (o : BitVec 16) (s : State) : Host.Outcome State Fault Refusal :=
  issue (.braGe r o) s (fun s => s.branchIf (!(s.sreg r.toNat).msb) (s.me.wordPc + s.offset o))
/-- `BRA.ALL` (R157). -/
def execBraAll (p : PReg) (o : BitVec 16) (s : State) : Host.Outcome State Fault Refusal :=
  issue (.braAll p o) s (fun s => s.branchIf ((s.preg p.toNat &&& s.me.mask) == s.me.mask) (s.me.wordPc + s.offset o))
/-- `BRA.ANY` (R157). -/
def execBraAny (p : PReg) (o : BitVec 16) (s : State) : Host.Outcome State Fault Refusal :=
  issue (.braAny p o) s (fun s => s.branchIf ((s.preg p.toNat &&& s.me.mask) != 0) (s.me.wordPc + s.offset o))
/-- `CALL` (R157). A target that turns out to be no header faults here with the link register as it was (R47).
(Log 26 DEDUCED.) -/
def execCall (l : SReg) (o : BitVec 16) (s : State) : Host.Outcome State Fault Refusal :=
  issue (.call l o) s (fun s =>
    let a := s.me.wordPc
    let t := a + s.offset o
    if t.toNat % 4 ≠ 0 then s.branchTo t
    else
      let via := s.me.viaHere.map (fun v => { v with link := some (l.toNat, s.sreg l.toNat) })
      (s.setS l.toNat (a + 4)).leave t via)
/-- `BRX` (R157). -/
def execBrx (t : SReg) (o : BitVec 16) (s : State) : Host.Outcome State Fault Refusal :=
  issue (.brx t o) s (fun s => s.branchTo (s.sreg t.toNat + s.offset o))
/-- `RET` (R157). -/
def execRet (r : SReg) (s : State) : Host.Outcome State Fault Refusal :=
  issue (.ret r) s (fun s => s.branchTo (s.sreg r.toNat))

-- New fibres ----------------------------------------------------------------------------------------------------------

/-- A fibre that a stepped or stopping fibre makes halts at its first header (R373, R374). -/
def State.stepChild (s : State) (d : Dbg) (r : FRef) (pc : DWord) : State :=
  match d with
  | .stepClause | .stepUnit => s.halt r 0x72 0 pc
  | .stopClause | .stopUnit => s.haltOne r 0x73 0 pc
  | _ => s

/-- Puts a new fibre, ready at header `t`, into record `k` of the running fibre's slot; it takes over the running fibre's program
order up to now (R78, R149). -/
def State.makeFibre (s : State) (k : Nat) (f : Fibre) (t : DWord) (via : Option Via) : State :=
  let r : FRef := { s.actor with idx := k }
  let g : Fibre := { f with
    st := .ready, blk := .header, fid := s.nextId, pc := t, clause := none, inside := false, idx := 0, unit0 := 0,
    hMod := none, hLimm := none, via := via, t := [], wait := false, begun := none, yield := false, bpSeen := [],
    since := s.nextId, came := s.now, doomed := false, fault := none, old := (s.fib r).record, pend := [], ceTag := 0, serves := 0, served := false, mark := 0, dbg := .run }
  (((s.setFib r g).share s.me.fid s.nextId).bump).stepChild f.dbg r t

/-- `FORK` (R149). -/
def execFork (d t w : SReg) (p : PReg) (s : State) : Host.Outcome State Fault Refusal :=
  issue (.fork d t w p) s (fun s =>
    let m := s.preg p.toNat
    let b := (s.sreg w.toNat).toNat
    let a := s.sreg t.toNat
    if m = 0 ∨ s.myWg.regs ≤ b ∨ a.toNat % 4 ≠ 0 then s.take 0x09 0
    else match s.freeRecord s.actor.wg s.actor.slot with
      | none => s.take 0x07 0
      | some k =>
        let f := s.me
        let g : Fibre := { f with
          mask := m, base := BitVec.ofNat 10 b, sticky := 0, fsel := BitVec.ofNat 4 k, fsplit := 0, live := none, ca := none
          s := Tbl.set f.s d.toNat (BitVec.ofNat 64 (2 ^ 63 + s.actor.idx)) }
        ((s.makeFibre k g a none).setS d.toNat (BitVec.ofNat 64 k)).retire)

/-- `BRP` (R155): the lanes that branch become a new fibre, or the whole fibre goes or stays. -/
def execBrp (n : BitVec 1) (p : PReg) (o : BitVec 16) (s : State) : Host.Outcome State Fault Refusal :=
  issue (.brp n p o) s (fun s =>
    let f := s.me
    let q := if n = 0 then s.preg p.toNat else ~~~(s.preg p.toNat)
    let tl := f.mask &&& q
    let t := f.wordPc + s.offset o
    if tl = f.mask then s.branchTo t
    else if tl = 0 then s.leave s.nextHeader none
    else if t.toNat % 4 ≠ 0 then s.takeAt 0x03 t.toNat t 0 none
    else match s.freeRecord s.actor.wg s.actor.slot with
      | none => s.take 0x07 0
      | some k =>
        let s1 := s.makeFibre k { f with mask := tl, fsel := BitVec.ofNat 4 k } t f.viaHere
        (s1.setMe { s1.me with mask := f.mask &&& ~~~tl }).leave s.nextHeader none)

-- Gangs that break (R274) --------------------------------------------------------------------------------------------

/-- A gang register of a workgroup (R271). -/
def State.gang (s : State) (wg g : Nat) : Gang := Tbl.get (s.wg wg).gangs g Gang.idle

/-- Replaces a gang register. -/
def State.setGang (s : State) (wg g : Nat) (x : Gang) : State :=
  let w := s.wg wg
  s.setWg wg { w with gangs := Tbl.set w.gangs g x }

/-- A gang whose operation completed is idle: its sets, signatures and post are cleared, the bindings kept (R273). -/
def Gang.done (x : Gang) (cause : BitVec 8) (step : BitVec 16) : Gang :=
  { x with st := .idle, e := 0, signers := [], post := none, opId := none, cause := cause, step := step }

/-- The member bit of a fibre (R271). -/
def memberBit (r : FRef) : Nat := 8 * r.slot + r.idx

/-- Writes a register for a matrix operation: another operation that is signed or issued remembers it (R91). -/
def State.setVBy (s : State) (id wg k n : Nat) (m : DWord) (v : VVal) : State := (s.noteBut id wg k n m).setVRaw wg k n v

/-- Was lane `l` of physical register `n` of a signer's slot written since its signature (R91, R273)? (Log 56 DEDUCED.) -/
def Op.wrote (o : Op) (g : Signer) (n l : Nat) : Bool :=
  o.notes.any (fun e => e.1 == regKey g.who.slot n && e.2.1.getLsbD l && decide (g.since ≤ e.2.2))

/-- Accumulators that any agent wrote since their signature end as free values, tagged F32 (R91). (Log 16 DESIGN CHOICE.) -/
def State.freeAcc (s : State) (o : Op) (ss : List Signer) (acc m : Nat) : State :=
  ss.foldl (fun (t : State) g =>
    (List.range m).foldl (fun (u : State) i =>
      let n := g.base.toNat + acc + i
      let m := maskOf ((lanesOf g.mask).filter (o.wrote g n))
      if m ≠ 0 then
        u.setVBy o.id g.who.wg g.who.slot n m ((u.vreg g.who.wg g.who.slot n).write (u.wg g.who.wg).warp m 3 (fun l =>
          (Config.freeWord (s.freeCtr * 2 ^ 64 + regKey g.who.slot n * 64 + l)).setWidth 32))
      else u) t) { s with freeCtr := s.freeCtr + 1 }

/-- Leaves as free values the accumulators of a gang's operation that other agents wrote (R91). -/
def State.loosen (s : State) (o : Op) : State :=
  match o.kind with
  | .gang _ p ss => s.freeAcc o ss p.acc p.m
  | _ => s

/-- A fibre became absent: every gang that expects it and lacks its signature breaks (R274). -/
def State.memberGone (s : State) (r : FRef) : State :=
  if 8 ≤ r.idx then s
  else (List.range 8).foldl (fun (t : State) g =>
    let x := t.gang r.wg g
    if x.st = .gathering ∧ x.e.getLsbD (memberBit r) ∧ ¬ x.signers.any (fun m => m.bit == memberBit r) then
      let t1 := t.setGang r.wg g (x.done 0x33 x.step)
      match x.opId.bind (fun n => t1.op n) with
      | some o => x.signers.foldl (fun (u : State) m => u.freezeDue m.who)
          ((t1.loosen o).complete { o with fault := some { faultAt 0 0x33 6 0 0 none with async := true } })
      | none => t1
    else t) s

-- Rejoin (R156) -------------------------------------------------------------------------------------------------------

/-- A rejoin register of a slot. -/
def State.rejoin (s : State) (wg k j : Nat) : Rejoin := Tbl.get (s.slot wg k).j j Rejoin.idle

/-- Replaces a rejoin register. -/
def State.setRejoin (s : State) (wg k j : Nat) (x : Rejoin) : State :=
  let t := s.slot wg k
  s.setSlot wg k { t with j := Tbl.set t.j j x }

/-- `JSET` (R156). -/
def execJset (j : BitVec 4) (s : State) : Host.Outcome State Fault Refusal :=
  issue (.jset j) s (fun s =>
    let a := s.actor
    let x := s.rejoin a.wg a.slot j.toNat
    if x.arrived ≠ 0 ∨ x.waiter.isSome then s.take 0x08 j.toNat
    else (s.setRejoin a.wg a.slot j.toNat { Rejoin.idle with expected := s.me.mask, base := s.me.base }).retire)

/-- May the running fibre hand its lanes to a rejoin register (R156)? -/
def State.mayArrive (s : State) (x : Rejoin) : Bool :=
  s.me.base == x.base && (s.me.mask &&& ~~~(x.expected &&& ~~~x.arrived)) == 0

/-- The register with the running fibre's lanes and flags. -/
def State.arrived (s : State) (x : Rejoin) : Rejoin :=
  { x with arrived := x.arrived ||| s.me.mask, sticky := x.sticky ||| s.me.sticky }

/-- Tells the debugger that a fibre ended during a step (R373). (Log 32 DEDUCED.) -/
def State.stepEnded (s : State) (r : FRef) : State :=
  match (s.fib r).dbg with
  | .stepClause | .stepUnit => s.send (.note 0x85 [BitVec.ofNat 64 r.wg, BitVec.ofNat 64 r.slot, BitVec.ofNat 64 r.idx])
  | _ => s

/-- May a waiter continue: every expected lane has arrived, it blocks at the `WAITJ` and is not halted (R156, R370)? -/
def State.mayRejoin (s : State) (wg k j : Nat) : Bool :=
  let x := s.rejoin wg k j
  match x.waiter with
  | some i =>
    let f := s.fib { wg := wg, slot := k, idx := i }
    x.arrived == x.expected && f.blk == .waitj j && f.dbg != .halted
  | none => false

/-- Continues a waiter whose register has every expected lane: it takes the lanes, flags and program order of those that
joined, and stands at its next header (R68, R78, R156). (Log 147 DEDUCED.) -/
def State.rejoinNow (s : State) (wg k j : Nat) : State :=
  let x := s.rejoin wg k j
  match x.waiter with
  | some i =>
    let r : FRef := { wg := wg, slot := k, idx := i }
    let f := s.fib r
    let s1 := x.joined.foldl (fun (t : State) d => (t.share d f.fid).adopt d r f.fid) s
    let s2 := s1.setRejoin wg k j { x with arrived := 0, waiter := none, sticky := 0, joined := [], ot := 0, wlog := [], fences := [] }
    ((s2.setFib r { f with
      blk := .header, mask := x.expected, sticky := f.sticky ||| x.sticky, ot := Nat.max f.ot x.ot, wlog := f.wlog ++ x.wlog,
      fences := f.fences ++ x.fences, since := s.nextId, came := s.now }).bump).reach r
  | none => s

-- Barriers (R98-R100, R158, R159) --------------------------------------------------------------------------------------

/-- The parties of a barrier: live fibres of records 0-7 of its extent (R158). -/
def State.parties (s : State) (k : BarKind) (id : Nat) : List FRef :=
  let wgs := match k with
    | .workgroup => [id]
    | .cluster => (s.cluster id).wgs
    | .grid => (s.grid id).clusters.flatMap (fun c => (s.cluster c).wgs)
  (s.live (wgs.flatMap (fun w => s.wgRefs w))).filter (fun r => decide (r.idx < 8))

/-- Has a party arrived, its earlier accesses performed at the barrier's scope (R98, R99)? -/
def State.hasArrived (s : State) (k : BarKind) (id : Nat) (r : FRef) : Bool :=
  let f := s.fib r
  match k with
  | .workgroup => f.blk == .barWg (s.wg id).phase && s.earlierDone r f.mark 0xFF .workgroup true
  | .grid => f.blk == .barGrid (s.grid id).phase && s.earlierDone r f.mark 0xFF .system true
  | .cluster => (match f.ca with
      | some (p, m) => p == (s.cluster id).phase && s.earlierDone r m 0xFF .cluster true
      | none => false)

/-- Lets a blocked fibre go on at its next header. -/
def State.releaseFibre (s : State) (r : FRef) : State :=
  ((s.setFib r { s.fib r with blk := .header, since := s.nextId, came := s.now }).bump).reach r

/-- Is a fibre frozen by a fault, or halted (R139, R370)? -/
def State.stands (s : State) (r : FRef) : Bool := (s.fib r).st == .frozen || (s.fib r).dbg == .halted

/-- Releases a barrier (R98-R100, R159) if every party has arrived and none is frozen or halted (R158, R370): the phase advances and the parties go on. The grid barrier also
removes the L2's copies of peer memory of the grid's context, and the rack sectors of its context that hold no lease (R304). -/
def State.releaseBarrier (s : State) (k : BarKind) (id : Nat) : State :=
  let ps := s.parties k id
  let whole := match k with
    | .grid => (s.grid id).clusters.all (fun c => (s.cluster c).place != .pending)
    | _ => true
  if ps.isEmpty || !whole || ps.any (fun r => s.isSaved r.wg || s.stands r) || !ps.all (s.hasArrived k id) then s
  else match k with
    | .workgroup =>
      let w := s.wg id
      (ps.foldl (fun (t : State) r => t.releaseFibre r) (s.setWg id { w with phase := w.phase + 1 }))
    | .grid =>
      let g := s.grid id
      let s1 := ps.foldl (fun (t : State) r => t.releaseFibre r) (s.setGrid id { g with phase := g.phase + 1 })
      let asid := (s.ctx g.ctx).asid
      { s1 with
        peerL2 := s1.peerL2.filter (fun x => x.ctx ≠ g.ctx)
        cus := s1.cus.map (fun e => (e.1, { e.2 with rack := e.2.rack.filter (fun x => !(x.asid == asid && x.expiry.isNone)) })) }
    | .cluster =>
      let c := s.cluster id
      (ps.foldl (fun (t : State) r =>
        let f := t.fib r
        if f.blk = .barCw then (t.setFib r { f with ca := none }).releaseFibre r else t)
        (s.setCluster id { c with phase := c.phase + 1 }))

/-- BARRIER_RELEASE (R98-R100, R159): a barrier at which every party has arrived proceeds. -/
def execBarrierRelease (k : BarKind) (id : Nat) (s : State) : Host.Outcome State Fault Refusal := .next (s.releaseBarrier k id)

-- Records that become absent (R150) ------------------------------------------------------------------------------------

/-- Ends a workgroup: its banks and slots are free, its gangs, counters and receive regions go, and its unfired sends are
discarded (R150, R356). With its last workgroup the cluster has ended. -/
def State.endWg (s : State) (n : Nat) : State :=
  let w := s.wg n
  let s0 := (s.leaveBanks n).setWg n { w with live := false, banks := [], gangs := [], counters := [] }
  let c := s0.cluster w.cluster
  let s1 := if c.wgs.all (fun g => !(s0.wg g).live) then s0.setCluster w.cluster { c with place := .ended } else s0
  { s1 with
    ops := s1.ops.filter (fun o => !(o.who.wg == n && (match o.kind with | .tsend .. | .cntwait .. => true | .gang .. => o.st == .issued | _ => false)))
    fe := { s1.fe with
      regions := s1.fe.regions.filter (fun g => g.wg ≠ n)
      queues := s1.fe.queues.map (fun e => if e.2.wg = n then (e.1, { e.2 with cnt := none }) else e) } }

/-- When the last record of a slot is absent the slot is free; the workgroup ends when all its slots are free, except that
those of a pipeline grid end together (R122, R150). -/
def State.slotEnd (s : State) (wg k : Nat) : State :=
  if (s.live (slotRefs wg k)).isEmpty then
    let t := s.slot wg k
    let s1 := s.setSlot wg k { t with cbuf := [], hq := [], items := 0, runs := none, freed := true }
    if (s1.launchOf wg).pipe then
      -- claimed items that are left are retired with the slot's last fibre (R121)
      let c := (s.wg wg).cluster
      let x := s1.cluster c
      (match t.runs with
       | some st =>
         let q := Tbl.get x.stages st (StageQ.empty x.c)
         s1.setCluster c { x with stages := Tbl.set x.stages st { q with claimed := q.claimed - (lanesOf t.items).length } }
       | none => s1)
    else if (s1.live (s1.wgRefs wg)).isEmpty then s1.endWg wg
    else s1
  else s

/-- Continues at once every waiter of a slot whose rejoin register has every expected lane (R150, R156). -/
def State.rejoins (s : State) (wg k : Nat) : State :=
  ((s.slot wg k).j.map (·.1)).foldl (fun (t : State) j => if t.mayRejoin wg k j then t.rejoinNow wg k j else t) s

/-- The observed time of a fibre that ends stays with its grid (R95, R113). -/
def State.leaves (s : State) (r : FRef) : State :=
  let g := (s.wg r.wg).grid
  if Tbl.has s.grids g then s.setGrid g { s.grid g with seen := Nat.max (s.grid g).seen (s.fib r).ot } else s

/-- A fibre that a handler serves has left its freeze: it is the handler's no longer (R170). -/
def State.leftFreeze (s : State) (r : FRef) : State :=
  let r8 : FRef := { r with idx := 8 }
  let h := s.fib r8
  if r.idx ≠ 8 ∧ h.st ≠ .absent ∧ h.serves = r.idx ∧ ¬ h.served then s.setFib r8 { h with served := true } else s

/-- A fibre's record becomes absent; its fault record stays (R169). Gangs that expect the fibre break (R274), a handler that leaves
the fibre it served frozen is reported (R170, R171), rejoins and barriers that this completes proceed at once, and a slot without
fibres is free (R150). -/
def State.recordGone (s : State) (r : FRef) : State :=
  let f := s.fib r
  let w := s.wg r.wg
  let s1 := (((((s.leaves r).stepEnded r).dropDead r).leftFreeze r).setFib r f.gone).memberGone r
  let served : FRef := { r with idx := f.serves }
  let s2 := if r.idx = 8 ∧ ¬ f.served ∧ (s1.fib served).st = .frozen then
      (match (s1.fib served).fault with | some fr => s1.notifyFault served fr | none => s1)
    else s1
  ((((s2.rejoins r.wg r.slot).releaseBarrier .workgroup r.wg).releaseBarrier .cluster w.cluster).releaseBarrier .grid
    w.grid).slotEnd r.wg r.slot

/-- `JOIN`: the fibre's record becomes absent without a wait for its flags; faults it has not taken go to the runtime (R156,
R169). (Log 181 DEDUCED.) -/
def execJoin (j : BitVec 4) (s : State) : Host.Outcome State Fault Refusal :=
  issue (.join j) s (fun s =>
    let a := s.actor
    let f := s.me
    let x := s.rejoin a.wg a.slot j.toNat
    if !s.mayArrive x then s.take 0x08 j.toNat
    else
      let y := s.arrived x
      let s1 := s.setRejoin a.wg a.slot j.toNat { y with
        joined := y.joined ++ [f.fid], ot := Nat.max y.ot f.ot, wlog := y.wlog ++ f.wlog, fences := y.fences ++ f.fence.toList ++ f.fences }
      let s2 := (f.pend.foldl (fun (t : State) e => t.notifyFault a e.rec') s1).countUnit
      s2.recordGone a)

/-- Blocks the running fibre at a barrier, `FSYNC` or `WAITJ`; it will continue at its next header, which it has not reached yet. One
that an `EXIT` has ended ends here (R151). (Log 25 DEDUCED.) -/
def State.blockAt (s : State) (b : Blk) : State :=
  let s1 := ((s.setMe { s.me with mark := s.nextId, wait := false }).countUnit).toHeader s.actor s.nextHeader none
  if s1.me.doomed then s1 else s1.setMe { s1.me with blk := b }

/-- `WAITJ` (R156): with every expected lane arrived the fibre continues at once. (Log 25 DEDUCED.) -/
def execWaitj (j : BitVec 4) (s : State) : Host.Outcome State Fault Refusal :=
  issue (.waitj j) s (fun s =>
    let a := s.actor
    let x := s.rejoin a.wg a.slot j.toNat
    if !s.mayArrive x || x.waiter.isSome then s.take 0x08 j.toNat
    else
      let y : Rejoin := { s.arrived x with waiter := some a.idx }
      let s1 := (s.setRejoin a.wg a.slot j.toNat y).blockAt (.waitj j.toNat)
      if y.arrived = y.expected ∧ ¬(s1.fib a).doomed then s1.rejoinNow a.wg a.slot j.toNat else s1)

/-- REJOIN_RELEASE (R156). (Log 5 DESIGN CHOICE.) -/
def execRejoinRelease (wg slot : Nat) (j : BitVec 4) (s : State) : Host.Outcome State Fault Refusal :=
  if s.isSaved wg then .next s
  else
    .next (if s.mayRejoin wg slot j.toNat then s.rejoinNow wg slot j.toNat else s)

-- Ending (R150, R151) -------------------------------------------------------------------------------------------------

/-- `FEND`: the fibre blocks until its flags are zero; a pending asynchronous fault freezes it here (R150, R169).
(Log 23 DEDUCED, 25 DEDUCED.) -/
def execFend (s : State) : Host.Outcome State Fault Refusal :=
  issue .fend s (fun s =>
    if s.me.pend.isEmpty then (((s.dropDead s.actor).setMe { s.me with st := .blocked, blk := .ending, wait := false }).countUnit).cancelMons s.actor
    else s.freezeAsync s.actor s.me.unitPc)

/-- Takes a fibre out of the order in which frozen fibres wait for a handler, and from the handler that serves it. -/
def State.unqueue (s : State) (r : FRef) : State :=
  let t := s.slot r.wg r.slot
  (s.setSlot r.wg r.slot { t with hq := t.hq.filter (· ≠ r.idx) }).leftFreeze r

/-- Ends a fibre from outside: one that is ready inside its clause at its next clause boundary, another where it stands, and its
flags are waited for. Its untaken faults, and those that complete meanwhile, go to the runtime and freeze nothing, whether an
`EXIT` of another fibre or a `FRESUME.END` ends it (R151, R172). (Log 152 DESIGN CHOICE.) -/
def State.doom (s : State) (r : FRef) : State :=
  let f := s.fib r
  let s1 := (f.pend.foldl (fun (u : State) e => u.notifyFault r e.rec') s).unqueue r
  if f.st = .ready ∧ f.inside ∧ f.dbg ≠ .halted then s1.setFib r { f with doomed := true, pend := [] }
  else (s1.setFib r { f with st := .blocked, blk := .ending, doomed := true, pend := [], wait := false, dbg := .run }).cancelMons r

/-- `EXIT`: every fibre of the slot ends; the issuing fibre freezes at it when it has a fault pending (R151, R169).
(Log 23 DEDUCED, 25 DEDUCED.) -/
def execExit (s : State) : Host.Outcome State Fault Refusal :=
  issue .exit s (fun s =>
    if s.me.pend.isEmpty then
      let others := (s.live (slotRefs s.actor.wg s.actor.slot)).filter (· ≠ s.actor)
      let s1 := others.foldl (fun (t : State) r => t.doom r) s
      (((s1.dropDead s.actor).setMe { s1.me with st := .blocked, blk := .ending, wait := false }).countUnit).cancelMons s.actor
    else s.freezeAsync s.actor s.me.unitPc)

/-- FIBRE_END_COMPLETE (R150): an ending fibre whose flags are zero leaves its rejoin registers and barriers, and its record
becomes absent. A handler that leaves the fibre it served frozen is reported (R171). (Log 32 DEDUCED.) -/
def execFibreEndComplete (r : FRef) (s : State) : Host.Outcome State Fault Refusal :=
  if s.isSaved r.wg then .next s
  else
    let f := s.fib r
    if f.st = .blocked ∧ f.blk = .ending ∧ (f.doomed ∨ f.pend = []) ∧ f.dbg ≠ .halted ∧ s.flagsZero r then
      let t := s.slot r.wg r.slot
      let j := t.j.map (fun e => (e.1, { e.2 with
        expected := e.2.expected &&& ~~~(f.mask &&& e.2.expected &&& ~~~e.2.arrived)
        waiter := if e.2.waiter = some r.idx then none else e.2.waiter }))
      .next ((s.setSlot r.wg r.slot { t with j := j }).recordGone r)
    else if f.st = .blocked ∧ f.blk = .ending ∧ f.doomed ∧ f.dbg ≠ .halted then .next (s.cancelMons r)
    else .next s

/-- `FYIELD` (R152). -/
def execFyield (s : State) : Host.Outcome State Fault Refusal :=
  issue .fyield s (fun s => (s.setMe { s.me with yield := true }).leave s.nextHeader none)

/-- `NOP` (R152). -/
def execNop (s : State) : Host.Outcome State Fault Refusal := issue .nop s (fun s => s.retire)

-- Fibre state (R153, R160, R172) --------------------------------------------------------------------------------------

/-- PC of a fibre as `FSTAT` shows it. -/
def State.statPc (s : State) (r : FRef) : DWord :=
  let f := s.fib r
  if f.st = .frozen ∨ f.dbg = .halted then (match f.fault with | some x => x.pc | none => f.pc)
  else f.unitPc

/-- State code of a fibre as `FSTAT` shows it: frozen, blocked, current, ready (R153). -/
def State.statCode (s : State) (r : FRef) : Nat :=
  let f := s.fib r
  if f.st = .absent then 0
  else if f.st = .frozen ∨ f.dbg = .halted then 3
  else if r = s.actor then 4
  else if f.st = .blocked ∨ f.wait then 2
  else if (s.slot r.wg r.slot).cur = r.idx then 4
  else 1

/-- The record that `FSTAT` names, none for an absent one. -/
def State.statRef (s : State) (k : SReg) : Option FRef :=
  let n := (s.sreg k.toNat).toNat
  let r : FRef := { s.actor with idx := n }
  if 8 < n ∨ (s.fib r).st = .absent then none else some r

/-- `FSTAT.MASK` (R153). -/
def execFstatMask (d k : SReg) (s : State) : Host.Outcome State Fault Refusal :=
  issue (.fstatMask d k) s (fun s => s.setSRetire d (match s.statRef k with | some r => (s.fib r).mask | none => 0))

/-- `FSTAT.PC` (R153). -/
def execFstatPc (d k : SReg) (s : State) : Host.Outcome State Fault Refusal :=
  issue (.fstatPc d k) s (fun s => s.setSRetire d (match s.statRef k with | some r => s.statPc r | none => 0))

/-- `FSTAT.INFO` (R153). -/
def execFstatInfo (d k : SReg) (s : State) : Host.Outcome State Fault Refusal :=
  issue (.fstatInfo d k) s (fun s => s.setSRetire d (match s.statRef k with
    | some r =>
      let f := s.fib r
      BitVec.ofNat 64 (s.statCode r + f.base.toNat * 2 ^ 16 +
        (match f.fault with | some x => x.cause.toNat | none => 0) * 2 ^ 32)
    | none => 0))

/-- `FSYNC` and `FSYNC.M` at issue (R160). (Log 25 DEDUCED, 31 DEDUCED.) -/
def State.fsync (s : State) (a : SReg) (merge : Bool) : State :=
  let w := s.sreg a.toNat
  let set : BitVec 8 := w.setWidth 8
  if ¬ (s.actor.idx < 8 ∧ set.getLsbD s.actor.idx) ∨ w.toNat ≥ 256 then s.take 0x09 0
  else if (List.range 8).any (fun k => set.getLsbD k && (match (s.fib { s.actor with idx := k }).blk with
      | .fsync q _ _ => q != set | _ => false)) then s.take 0x06 3
  else
    let word := s.me.wordPc
    s.blockAt (.fsync set merge word)

/-- `FSYNC` (R160). -/
def execFsync (a : SReg) (s : State) : Host.Outcome State Fault Refusal := issue (.fsync a) s (fun s => s.fsync a false)
/-- `FSYNC.M` (R160). -/
def execFsyncM (a : SReg) (s : State) : Host.Outcome State Fault Refusal := issue (.fsyncM a) s (fun s => s.fsync a true)

/-- Groups of R160's merge: each fibre joins the first group at its word with its base whose lanes are disjoint from its. -/
def State.syncGroups (s : State) (ms : List (FRef × DWord)) : List (List FRef × DWord × BitVec 10 × DWord) :=
  ms.foldl (fun gs e =>
    let f := s.fib e.1
    match gs.findIdx? (fun g => g.2.1 == e.2 && g.2.2.1 == f.base && (g.2.2.2 &&& f.mask) == 0) with
    | some i => gs.modify i (fun g => (g.1 ++ [e.1], g.2.1, g.2.2.1, g.2.2.2 ||| f.mask))
    | none => gs ++ [([e.1], e.2, f.base, f.mask)]) []

/-- Merges a group into its lowest index (R68, R78, R160). (Log 147 DEDUCED, 181 DEDUCED.) -/
def State.mergeGroup (s : State) (g : List FRef) : State :=
  match g with
  | [] => s
  | r :: t =>
    t.foldl (fun (u : State) q =>
      let f := u.fib r
      let h := u.fib q
      let u1 := h.pend.foldl (fun (x : State) e => x.notifyFault q e.rec') ((u.share h.fid f.fid).adopt h.fid r f.fid)
      ((u1.setFib r { f with
        mask := f.mask ||| h.mask, sticky := f.sticky ||| h.sticky, ot := Nat.max f.ot h.ot, wlog := f.wlog ++ h.wlog
        fences := f.fences ++ h.fence.toList ++ h.fences }).setFib
        q h.gone).memberGone q) s

/-- FSYNC_RELEASE (R160): every fibre of the set that is not absent waits at `FSYNC` with it, and their accesses are performed
at slot scope. -/
def execFsyncRelease (wg slot : Nat) (set : BitVec 8) (s : State) : Host.Outcome State Fault Refusal :=
  if s.isSaved wg then .next s
  else
    let rs := ((slotRefs wg slot).take 8).filter (fun r => set.getLsbD r.idx && (s.fib r).st != .absent)
    if !rs.isEmpty && rs.all (fun r => (match (s.fib r).blk with | .fsync q _ _ => q == set | _ => false) && !s.stands r &&
        s.earlierDone r (s.fib r).mark 0xFF .slot false) then
      let ms := rs.filterMap (fun r => match (s.fib r).blk with | .fsync _ true w => some (r, w) | _ => none)
      let groups := s.syncGroups ms
      let s1 := rs.foldl (fun (t : State) r => (t.setFib r { t.fib r with blk := .header, since := t.nextId, came := t.now }).bump) s
      let s2 := groups.foldl (fun (t : State) g => t.mergeGroup g.1) s1
      .next ((s2.live rs).foldl (fun (t : State) r => t.reach r) s2)
    else .next s

/-- A fibre that stands at a header whose clause is still to be loaded is ready there (R149, R172). -/
def State.readyHere (s : State) (r : FRef) : State :=
  let f := s.fib r
  if f.st = .blocked ∧ f.blk = .header then s.setFib r { f with st := .ready } else s

/-- Is the fibre frozen at a fence that is still in progress, because a peer died: it is to execute that fence again (R105)? It goes on
where it stands, and the fence waits for the rest. -/
def Fibre.atFence (f : Fibre) : Bool :=
  match f.fence, f.fault with
  | some fe, some x => x.cause == 0x50 && x.pc == fe.pc
  | _, _ => false

/-- Makes a frozen fibre ready at FAULTPC: mid-clause with its temporaries, its clause fetched again if it was discarded; else at
a header, the one it stands at or, for a fault past its clause, the word named (R37, R146, R172).
(Log 24 DEDUCED, 181 DEDUCED.) -/
def State.resumeAt (s : State) (r : FRef) : State :=
  let f := s.fib r
  let s1 := s.unqueue r
  let pc := match f.fault with | some x => x.pc | none => f.pc
  if f.inside then s1.setFib r { f with st := .ready, blk := if f.clause.isSome then .none else .header }
  else if pc = f.pc ∨ f.atFence then
    (s1.setFib r { f with st := .ready, blk := .header, clause := none, via := none, since := s.nextId, came := s.now }).bump
  else (s1.arrive r pc none).readyHere r

/-- Makes a frozen fibre ready at another header, its temporaries discarded (R172). -/
def State.resumePc (s : State) (r : FRef) (pc : DWord) : State := ((s.unqueue r).arrive r pc none).readyHere r

/-- The frozen fibre that `FRESUME` names: not a halted one (R172, R370). -/
def State.frozenRef (s : State) (k : SReg) : Option FRef :=
  let n := (s.sreg k.toNat).toNat
  let r : FRef := { s.actor with idx := n }
  if 8 < n ∨ (s.fib r).st ≠ .frozen then none else some r

/-- The three forms of `FRESUME`: the fibre's earlier accesses are performed at slot scope first (R172).
(Log 23 DEDUCED, 24 DEDUCED, 171 DESIGN CHOICE.) -/
def State.fresume (s : State) (k : SReg) (ok : Bool) (f : State → FRef → State) : State :=
  match s.frozenRef k with
  | none => s.take 0x09 (s.sreg k.toNat).toNat
  | some r =>
    if !ok then s.take 0x09 (s.sreg k.toNat).toNat
    else if !s.earlierDone s.actor s.nextId 0xFF .slot false then s.waitHere
    else (f s r).retire

/-- `FRESUME` (R172). (Log 24 DEDUCED.) -/
def execFresume (k : SReg) (s : State) : Host.Outcome State Fault Refusal :=
  issue (.fresume k) s (fun s => s.fresume k true State.resumeAt)
/-- `FRESUME.PC` (R172). -/
def execFresumePc (k p : SReg) (s : State) : Host.Outcome State Fault Refusal :=
  issue (.fresumePc k p) s (fun s =>
    s.fresume k ((s.sreg p.toNat).toNat % 4 == 0) (fun t r => t.resumePc r (s.sreg p.toNat)))
/-- `FRESUME.END` (R172). (Log 152 DESIGN CHOICE.) -/
def execFresumeEnd (k : SReg) (s : State) : Host.Outcome State Fault Refusal :=
  issue (.fresumeEnd k) s (fun s => s.fresume k true State.doom)

/-- The context runtime resumes or ends a frozen fibre (R30, R171); a resumption that finds the fibre frozen no longer is ignored
(R172). -/
def State.runtimeResume (s : State) (r : FRef) (h : Resume) : State :=
  if (s.fib r).st ≠ .frozen then s
  else match h with
    | .again => s.resumeAt r
    | .goTo pc => if pc.toNat % 4 = 0 then s.resumePc r pc else s
    | .fin => s.doom r

-- Barriers (R158, R159) -----------------------------------------------------------------------------------------------

/-- `BAR.WG` (R159). -/
def execBarWg (s : State) : Host.Outcome State Fault Refusal :=
  issue .barWg s (fun s => if s.actor.idx = 8 then s.take 0x06 0 else s.blockAt (.barWg s.myWg.phase))

/-- `BAR.GRID` (R159). -/
def execBarGrid (s : State) : Host.Outcome State Fault Refusal :=
  issue .barGrid s (fun s =>
    if s.actor.idx = 8 ∨ ¬ (s.launchOf s.actor.wg).gridbar then s.take 0x06 0
    else s.blockAt (.barGrid (s.grid s.myWg.grid).phase))

/-- `BAR.CA`: registers the arrival and goes on (R159). -/
def execBarCa (s : State) : Host.Outcome State Fault Refusal :=
  issue .barCa s (fun s =>
    if s.actor.idx = 8 ∨ s.me.ca.isSome then s.take 0x06 1
    else (s.setMe { s.me with ca := some ((s.cluster s.myWg.cluster).phase, s.nextId) }).retire)

/-- `BAR.CW` (R159). -/
def execBarCw (s : State) : Host.Outcome State Fault Refusal :=
  issue .barCw s (fun s =>
    match s.me.ca with
    | none => s.take 0x06 2
    | some (p, _) =>
      if s.actor.idx = 8 then s.take 0x06 2
      else if p < (s.cluster s.myWg.cluster).phase then (s.setMe { s.me with ca := none }).leave s.nextHeader none
      else s.blockAt .barCw)

-- Completion flags (R162) ---------------------------------------------------------------------------------------------

/-- `WAITF` (R162): waits in place; a pending asynchronous fault on one of the flags freezes the fibre here (R169). -/
def execWaitf (m : BitVec 12) (s : State) : Host.Outcome State Fault Refusal :=
  issue (.waitf m) s (fun s =>
    if s.me.pendOn m then s.freezeAsync s.actor s.me.unitPc
    else if s.flagsClear s.actor m then s.retire
    else s.waitHere)

/-- `SETF`: one token per flag (R162). -/
def execSetf (m : BitVec 12) (s : State) : Host.Outcome State Fault Refusal :=
  issue (.setf m) s (fun s =>
    let fl := (List.range 12).filter (fun n => m.getLsbD n)
    if fl.any (fun n => decide (63 ≤ s.flagval s.actor.wg s.actor.slot n s.me.mask)) then s.waitHere
    else (fl.foldl (fun (t : State) n => t.addOp { t.newOp .token (some n) t.me.mask 0 .slot with st := .running }) s).retire)

/-- The oldest token on a flag whose lanes meet the fibre's. -/
def State.oldestToken (s : State) (n : Nat) : Option Nat :=
  (s.ops.find? (fun o => o.kind == .token && o.counts.any (fun c =>
    c.wg == s.actor.wg && c.slot == s.actor.slot && c.flag == some n && (c.lanes &&& s.me.mask) != 0))).map (·.id)

/-- `CLRF`: completes the oldest token per flag, as a release at slot scope (R162). (Log 170 DESIGN CHOICE.) -/
def execClrf (m : BitVec 12) (s : State) : Host.Outcome State Fault Refusal :=
  issue (.clrf m) s (fun s =>
    if !s.earlierDone s.actor s.nextId 0xFF .slot false then s.waitHere
    else
      ((List.range 12).foldl (fun (t : State) n =>
        if m.getLsbD n then
          (match t.oldestToken n with
           | some id => { t with ops := t.ops.filter (fun o => o.id ≠ id) }
           | none => t)
        else t) s).retire)

-- Traps (R173) --------------------------------------------------------------------------------------------------------

/-- Faults after an instruction: the unit has retired and FAULTPC is the next word (R173). -/
def State.faultAfter (s : State) (cause : BitVec 8) (detail : Nat) : State :=
  let pc := s.me.wordPc + 4
  s.retire.freeze s.actor (faultAt pc cause detail 0 0 none)

/-- `TRAP` (R173). -/
def execTrap (c : BitVec 16) (s : State) : Host.Outcome State Fault Refusal :=
  issue (.trap c) s (fun s => s.faultAfter 0x0A c.toNat)

/-- `BRK`: a halt when debugging is enabled for the context, else a fault (R173, R372). (Log 184 DESIGN CHOICE.) -/
def execBrk (c : BitVec 16) (s : State) : Host.Outcome State Fault Refusal :=
  issue (.brk c) s (fun s =>
    if s.myCtx.dbgctl.getLsbD 0 then
      let pc := s.me.wordPc + 4
      ((s.setMe { s.me with dbg := .run }).retire).halt s.actor 0x71 (0x10000 + c.toNat) pc
    else s.faultAfter 0x0B c.toNat)

-- System registers (R167, R168) ---------------------------------------------------------------------------------------

/-- `IDENT` (R17). -/
def State.ident (s : State) : DWord :=
  let w := s.myWg
  let t := s.mySlot
  let h := s.actor.idx == 8
  let x := w.cu % 16
  let y := w.cu / 16
  BitVec.ofNat 64 ((if h then s.me.serves % 8 + 8 else s.actor.idx) + t.number * 2 ^ 4 + s.actor.slot * 2 ^ 9 + w.inst * 2 ^ 12 +
    w.rank * 2 ^ 14 + x * 2 ^ 18 + y * 2 ^ 22 + (x / 8 + 2 * (y / 6)) * 2 ^ 26 +
    (match w.warp with | 16 => 0 | 32 => 1 | _ => 2) * 2 ^ 28 + w.num * 2 ^ 32)

/-- A field of the fault record that `FSEL` selects, of the record's last fault, be its fibre gone or not; 0 above 8 or for a record
that never faulted (R167, R169). -/
def State.faultReg (s : State) (f : FaultRec → DWord) : DWord :=
  if 8 < s.me.fsel.toNat then 0
  else match (s.fib { s.actor with idx := s.me.fsel.toNat }).record with
    | some r => f r
    | none => 0

/-- CLKSTAT (R391). -/
def Ctl.clkstat (c : Ctl) : DWord :=
  BitVec.ofNat 64 (c.aclk % 4096 + (if c.capped then 2 ^ 12 else 0) + (if c.thermal then 2 ^ 13 else 0) +
    (if c.droop then 2 ^ 14 else 0) + (if c.short then 2 ^ 15 else 0) + c.capw % 65536 * 2 ^ 16)

/-- Needs the register privilege for a read, or a write (R168, R216, R371, R376, R379)? A write of `PTROOT`, which is read-only, is
ignored in any mode (R216). -/
def sysPriv (n : Nat) (write : Bool) : Bool :=
  (!write && n == 0x201) || (write && (n == 0xA00 || (decide (0xA04 ≤ n) && decide (n ≤ 0xA0B)) || (decide (0xA10 ≤ n) && decide (n ≤ 0xA1F)) ||
    n == 0xA21 || n == 0xA22))

/-- The value of a system register (R167). -/
def State.sysRead (s : State) (n : Nat) : DWord :=
  let c := s.myCtx
  match n with
  | 0x0000 => s.ident
  | 0x0001 => s.me.sticky.setWidth 64
  | 0x0002 => s.me.mask
  | 0x0003 => s.me.base.setWidth 64
  | 0x0004 => s.me.fsel.setWidth 64
  | 0x0005 => BitVec.ofNat 64 (s.lease s.myWg.cu)
  | 0x0010 => s.faultReg (·.pc)
  | 0x0011 => s.faultReg FaultRec.info
  | 0x0012 => s.faultReg (·.addr)
  | 0x0013 => s.faultReg (·.lanes)
  | 0x0014 => s.faultReg (·.ipc)
  | 0x0015 => s.faultReg (·.cpos)
  | 0x0016 => s.faultReg (·.spos)
  | 0x0200 => c.asid.setWidth 64
  | 0x0201 => BitVec.ofNat 64 c.root
  | 0x0800 => s.fe.devid.setWidth 64
  | 0x0801 => s.me.fsplit
  | 0x0802 => s.fe.fertimer
  | 0x0803 => s.fe.replays
  | 0x0804 => s.fe.spur
  | 0x0805 => s.fe.disc
  | 0x0A00 => c.dbgctl.setWidth 64
  | 0x0A21 => c.trbase
  | 0x0A22 => c.trctl
  | 0x0B00 => s.ctl.clkstat
  | _ =>
    if 0xA04 ≤ n ∧ n ≤ 0xA07 then Tbl.get c.bpa (n - 0xA04) 0
    else if 0xA08 ≤ n ∧ n ≤ 0xA0B then Tbl.get c.bpl (n - 0xA08) 0
    else if 0xA10 ≤ n ∧ n ≤ 0xA1F then (Tbl.get (s.cu s.myWg.cu).ev (n - 0xA10) EvCnt.zero).owner
    else 0

/-- Writes EVOWN of a counter: a change of owner disables it (R376). -/
def State.setOwner (s : State) (cu n : Nat) (v : DWord) : State :=
  let u := s.cu cu
  let e := Tbl.get u.ev n EvCnt.zero
  let o := v &&& 0x1FFF
  s.setCu cu { u with ev := Tbl.set u.ev n { e with owner := o, en := if o = e.owner then e.en else false } }

/-- Writes a register of a context that the observation engine holds: DBGCTL, a breakpoint, TRBASE or TRCTL (R371, R379). The control
node writes them, and so does a privileged `SYSW`. -/
def State.debugWrite (s : State) (id : BitVec 12) (n : Nat) (v : DWord) : State :=
  let c := s.ctx id
  match n with
  | 0x0A00 => s.setCtx id { c with dbgctl := v.setWidth 3 }
  | 0x0A21 => s.setCtx id { c with trbase := v }
  | 0x0A22 => s.setCtx id { c with trctl := v &&& 0x3F }
  | _ =>
    if 0xA04 ≤ n ∧ n ≤ 0xA07 then s.setCtx id { c with bpa := Tbl.set c.bpa (n - 0xA04) (v &&& ~~~2) }
    else if 0xA08 ≤ n ∧ n ≤ 0xA0B then s.setCtx id { c with bpl := Tbl.set c.bpl (n - 0xA08) v }
    else s

/-- Writes the writable fields of a system register; a write to an RO register is ignored (R6, R168). (Log 57 DESIGN CHOICE.) -/
def State.sysWrite (s : State) (n : Nat) (v : DWord) : State :=
  match n with
  | 0x0001 => s.setMe { s.me with sticky := v.setWidth 9 }
  | 0x0004 => s.setMe { s.me with fsel := v.setWidth 4 }
  | 0x0801 => s.setMe { s.me with fsplit := v &&& 0xFFFF007F }
  | _ =>
    if (0xA00 ≤ n ∧ n ≤ 0xA0B) ∨ n = 0xA21 ∨ n = 0xA22 then s.debugWrite s.myWg.ctx n v
    else if 0xA10 ≤ n ∧ n ≤ 0xA1F then s.setOwner s.myWg.cu (n - 0xA10) v
    else s

/-- `SYSR` (R168). -/
def execSysr (d : SReg) (r : BitVec 16) (s : State) : Host.Outcome State Fault Refusal :=
  issue (.sysr d r) s (fun s =>
    if sysPriv r.toNat false && !s.myCtx.priv then s.take 0x04 0 else s.setSRetire d (s.sysRead r.toNat))

/-- `SYSW` (R168). -/
def execSysw (d : SReg) (r : BitVec 16) (s : State) : Host.Outcome State Fault Refusal :=
  issue (.sysw d r) s (fun s =>
    if sysPriv r.toNat true && !s.myCtx.priv then s.take 0x04 0 else (s.sysWrite r.toNat (s.sreg d.toNat)).retire)

-- Code invalidation (R146-R148) ---------------------------------------------------------------------------------------

/-- Is the fibre issuing from a clause: current, inside it, neither frozen nor halted? -/
def State.issuingFrom (s : State) (r : FRef) : Bool :=
  let f := s.fib r
  f.st == .ready && f.inside && f.dbg != .halted && (s.slot r.wg r.slot).cur == r.idx

/-- Does a clause overlap a range of bytes? -/
def Clause.overlaps (c : Clause) (lo hi : Nat) : Bool :=
  decide (c.addr.toNat < hi) && decide (lo < c.addr.toNat + 4 * (c.lead + c.words.length))

/-- Is a buffer entry the one from which the slot's current fibre issues the clause: the one marked invalid, if a newer copy of the
same words stands beside it? -/
def Slot.holds (t : Slot) (c : Clause) (e : CEntry) : Bool :=
  e.clause == c && e.dead == t.cbuf.any (fun x => x.dead && x.clause == c)

/-- Does a fibre of the slot issue from the entry? -/
def State.entryBusy (s : State) (wg k : Nat) (e : CEntry) : Bool :=
  (slotRefs wg k).any (fun r => s.issuingFrom r && (match (s.fib r).clause with | some c => (s.slot wg k).holds c e | none => false))

/-- Discards the entries of a slot that `p` names: at once, or at the clause boundary for the one issued from. A fibre that
stands at a header, or is stopped mid-clause, with a clause that `p` names will fetch it again (R146). (Log 27 DEDUCED.) -/
def State.dropEntries (s : State) (wg k : Nat) (p : CEntry → Bool) : State :=
  let t := s.slot wg k
  let asid := (s.ctx (s.wg wg).ctx).asid
  let s1 := s.setSlot wg k { t with cbuf := (t.cbuf.filter (fun e => !p e || s.entryBusy wg k e)).map (fun e =>
    if p e then { e with dead := true } else e) }
  (s.live (slotRefs wg k)).foldl (fun (u : State) r =>
    let f := u.fib r
    match f.clause with
    | some c => if s.issuingFrom r || !p { asid := asid, clause := c, used := 0, dead := false } then u else u.setFib r f.refetch
    | none => u) s1

/-- Slots in use: workgroup and WGSLOT. -/
def State.allSlots (s : State) : List (Nat × Nat) :=
  (s.wgs.filter (fun e => e.2.live)).flatMap (fun e => (List.range e.2.nslots).map (fun k => (e.1, k)))

/-- Entries of the context over a range. -/
def State.codeHit (s : State) (a n : DWord) (e : CEntry) : Bool :=
  e.asid == s.myCtx.asid && (decide (2 ^ 32 ≤ n.toNat) || e.clause.overlaps a.toNat (a.toNat + n.toNat))

/-- Discards the device's entries over a range (R147). -/
def State.icinv (s : State) (a n : DWord) : State :=
  if n = 0 then s else s.allSlots.foldl (fun (t : State) w => t.dropEntries w.1 w.2 (s.codeHit a n)) s

/-- `ICINV`: the discards are made at once (R147). -/
def execIcinv (a b : SReg) (s : State) : Host.Outcome State Fault Refusal :=
  issue (.icinv a b) s (fun s => (s.icinv (s.sreg a.toNat) (s.sreg b.toNat)).retire)

/-- `ICINV.D`: makes its discards once, and waits until every entry it affected but the one it issues from is discarded (R147). -/
def execIcinvD (a b : SReg) (s : State) : Host.Outcome State Fault Refusal :=
  issue (.icinvD a b) s (fun s =>
    let lo := s.sreg a.toNat
    let n := s.sreg b.toNat
    let s1 := if s.me.begun.isSome then s else s.icinv lo n
    let own := fun (w : Nat × Nat) => w.1 == s.actor.wg && w.2 == s.actor.slot
    if n ≠ 0 ∧ s1.allSlots.any (fun w => (s1.slot w.1 w.2).cbuf.any (fun e => e.dead && s.codeHit lo n e && !own w)) then
      s1.setMe { s1.me with wait := true, begun := some [] }
    else s1.retire)

/-- `ISYNC` (R148). -/
def execIsync (s : State) : Host.Outcome State Fault Refusal :=
  issue .isync s (fun s =>
    if !s.storesHome s.actor s.nextId clsWrites then s.waitHere
    else
      let own := fun (e : CEntry) => match s.me.clause with | some c => s.mySlot.holds c e | none => false
      (s.dropEntries s.actor.wg s.actor.slot (fun e => !own e)).retire)

-- Predicates (R166) ---------------------------------------------------------------------------------------------------

/-- `PAND` (R166). -/
def execPand (d a b : PReg) (s : State) : Host.Outcome State Fault Refusal :=
  issue (.pand d a b) s (fun s => (s.setP d.toNat (s.preg a.toNat &&& s.preg b.toNat)).retire)
/-- `POR` (R166). -/
def execPor (d a b : PReg) (s : State) : Host.Outcome State Fault Refusal :=
  issue (.por d a b) s (fun s => (s.setP d.toNat (s.preg a.toNat ||| s.preg b.toNat)).retire)
/-- `PXOR` (R166). -/
def execPxor (d a b : PReg) (s : State) : Host.Outcome State Fault Refusal :=
  issue (.pxor d a b) s (fun s => (s.setP d.toNat (s.preg a.toNat ^^^ s.preg b.toNat)).retire)
/-- `PNOT` (R166). -/
def execPnot (d a : PReg) (s : State) : Host.Outcome State Fault Refusal :=
  issue (.pnot d a) s (fun s => (s.setP d.toNat (~~~(s.preg a.toNat))).retire)
/-- `PMOV` (R166). -/
def execPmov (d a : PReg) (s : State) : Host.Outcome State Fault Refusal :=
  issue (.pmov d a) s (fun s => (s.setP d.toNat (s.preg a.toNat)).retire)
/-- `PMOV.FS` (R166). -/
def execPmovFs (d : PReg) (r : SReg) (s : State) : Host.Outcome State Fault Refusal :=
  issue (.pmovFs d r) s (fun s => (s.setP d.toNat (s.sreg r.toNat)).retire)
/-- `PMOV.TS` (R166). -/
def execPmovTs (a : PReg) (r : SReg) (s : State) : Host.Outcome State Fault Refusal :=
  issue (.pmovTs a r) s (fun s => s.setSRetire r (s.preg a.toNat))

-- Hint words (R43-R45) ------------------------------------------------------------------------------------------------

/-- `MOD`: held for the next word; a second one, or one after `LIMM`, is illegal (R44). (Log 4 DESIGN CHOICE.) -/
def execMod (m : BitVec 3) (st : BitVec 2) (c o l t : BitVec 3) (s : State) : Host.Outcome State Fault Refusal :=
  let i := Instr.mod m st c o l t
  if !s.issuing then .next s
  else if s.me.hMod.isSome || s.me.hLimm.isSome || !wellFormed i then .next (s.take 1 0)
  else .next (s.setMe { s.me with hMod := some ((encode i).headD 0), idx := s.me.idx + 1, wait := false })

/-- `LIMM`: its data word is held for the next instruction; a second one is illegal (R43, R44). (Log 4 DESIGN CHOICE.) -/
def execLimm (imm : Word) (s : State) : Host.Outcome State Fault Refusal :=
  if !s.issuing then .next s
  else if s.me.hLimm.isSome then .next (s.take 1 0)
  else .next (s.setMe { s.me with hLimm := some imm, idx := s.me.idx + 2, wait := false })

end Sys2Proof.Machine
end

