-- ==== Sys2Proof/Machine/We.lean ====
section
/-!
DEFINITION. The instructions of the work engine and the hardware steps of their operations: items into stage queues, items
retired, blocks into launch queues, the pre-emption poll (R120, R133-R138).
-/
namespace Sys2Proof.Machine

-- Stage queues (R119, R120) ---------------------------------------------------------------------------------------------

/-- A stage queue of a cluster. -/
def Cluster.stageQ (c : Cluster) (st : Nat) : StageQ := Tbl.get c.stages st (StageQ.empty c.c)

/-- Replaces a stage queue of a cluster. -/
def State.setStageQ (s : State) (cl st : Nat) (q : StageQ) : State :=
  let c := s.cluster cl
  s.setCluster cl { c with stages := Tbl.set c.stages st q }

/-- Occupancy: waiting items and claimed items not yet retired (R120). -/
def StageQ.occ (q : StageQ) : Nat := q.items.length + q.claimed

/-- The declaration of a stage of a cluster's grid. -/
def State.stageOf (s : State) (cl st : Nat) : Stage :=
  ((s.grid (s.cluster cl).grid).stages[st]?).getD { entry := 0, qbase := 0, depth := 0, stealable := false }

/-- The place of item `n` of a stage's ring (R120): none where the queue area no longer translates to local memory. -/
def State.ringLoc (s : State) (cl st n : Nat) (need : Need) : Option Loc :=
  let c := s.cluster cl
  let g := s.grid c.grid
  let d := s.stageOf cl st
  let va := d.qbase + BitVec.ofNat 64 (c.c * d.depth * 16 + (n % d.depth) * 16)
  match s.resolve 0 (s.ctx g.ctx) g.ctx va need (some (s.walk (s.ctx g.ctx) va)) with
  | .at (.mem pa) _ => if inHbm pa then some (.mem pa) else none
  | _ => none

/-- Writes item `n` of a stage's ring (R120). (Log 116 DEDUCED.) -/
def State.ringWrite (s : State) (cl st n : Nat) (x : BitVec 128) : State :=
  let c := s.cluster cl
  match s.ringLoc cl st n .write with
  | some l => (s.engineWrite (c.y * 16 + c.x) (s.grid c.grid).ctx l (leBytes x.toNat 16) .clear).1
  | none => s

/-- The waiting items of a stage's queue from the `i`-th on, `n` of them, as their ring holds them (R120, R121, R124).
(Log 116 DEDUCED.) -/
def State.ringItems (s : State) (cl st i n : Nat) : List (BitVec 128) :=
  let q := (s.cluster cl).stageQ st
  ((q.items.drop i).take n).zipIdx.map (fun e =>
    match s.ringLoc cl st (q.tail - q.items.length + i + e.2) .read with
    | some l => BitVec.ofNat 128 (leNat (s.readLoc l 16).2.1)
    | none => e.1)

/-- Appends items at the tail of a stage queue, in order (R134). (Log 116 DEDUCED.) -/
def State.appendItems (s : State) (cl st : Nat) (xs : List (BitVec 128)) : State :=
  let q := (s.cluster cl).stageQ st
  let s1 := xs.zipIdx.foldl (fun (t : State) e => t.ringWrite cl st (q.tail + e.2) e.1) s
  s1.setStageQ cl st { q with items := q.items ++ xs, tail := q.tail + xs.length }

-- SPAWN and SPAWNV (R133, R134) -------------------------------------------------------------------------------------------

/-- Places items in a stage queue of the running fibre's cluster: the operation is a release at its scope (R134). -/
def State.spawn (s : State) (stage : Nat) (items : List (BitVec 128)) (f : BitVec 1) : State :=
  let g := s.grid s.myWg.grid
  match g.launch.pipe, g.stages[stage]? with
  | true, some d =>
    if items.isEmpty then s.retire
    else s.emit { s.newOp (.spawn stage items) (s.flagSel f) s.me.mask 0 (s.scopeOr (if d.stealable then .device else .cluster)) with
      gate := some s.gateHere }
  | _, _ => s.take 0x60 stage

/-- `SPAWN` (R134). -/
def execSpawn (t : BitVec 3) (a b : SReg) (f : BitVec 1) (s : State) : Host.Outcome State Fault Refusal :=
  issue (.spawn t a b f) s (fun s => s.spawn t.toNat [s.sreg b.toNat ++ s.sreg a.toNat] f)

/-- The first INVALID register of `k` from `r`. -/
def State.invalidIn (s : State) (r k : Nat) : Option Nat := (List.range k).find? (fun i => s.vtagOf (r + i) == 0)

/-- `SPAWNV`: word `k` of lane `l`'s item is lane `l` of the register `k` after the first (R133, R134). -/
def execSpawnv (d : VReg) (t : BitVec 3) (f : BitVec 1) (s : State) : Host.Outcome State Fault Refusal :=
  issue (.spawnv d t f) s (fun s =>
    let g := s.grid s.myWg.grid
    if ¬ g.launch.pipe ∨ g.stages.length ≤ t.toNat then s.take 0x60 t.toNat
    else match s.invalidIn d.toNat 4 with
      | some _ => s.take 0x10 (tagDetail 0 false 0)
      | none =>
        s.spawn t.toNat (s.active.map (fun l => BitVec.ofNat 128 (((List.range 4).map (fun k =>
          ((s.vwin (d.toNat + k)).lane l).toNat * 2 ^ (32 * k))).sum)) ) f)

/-- SPAWN_APPEND (R134): a spawn whose release is due, whose fibre's earlier spawns into the queue are appended and for whose
items the queue has room, appends them. -/
def execSpawnAppend (op : Nat) (s : State) : Host.Outcome State Fault Refusal :=
  match s.op op with
  | none => .next s
  | some o =>
    match o.kind with
    | .spawn st items =>
      let cl := (s.wg o.who.wg).cluster
      let q := (s.cluster cl).stageQ st
      let earlier := s.ops.any (fun x => decide (x.id < o.id) && x.fid == o.fid &&
        (match x.kind with | .spawn st' _ => st' == st | _ => false))
      if s.isSaved o.who.wg || earlier || !s.gateOpen o || decide ((s.stageOf cl st).depth < q.occ + items.length) then .next s
      else .next ((s.appendItems cl st items).settle o)
    | _ => .next s

-- ITEMDONE (R135) ---------------------------------------------------------------------------------------------------------

/-- `ITEMDONE` (R135). -/
def execItemdone (s : State) : Host.Outcome State Fault Refusal :=
  issue .itemdone s (fun s =>
    let t := s.mySlot
    let hit := t.items &&& s.me.mask
    let s1 := s.setMySlot { t with items := t.items &&& ~~~hit }
    let s2 := match t.runs with
      | some st =>
        let cl := s.myWg.cluster
        let q := (s1.cluster cl).stageQ st
        s1.setStageQ cl st { q with claimed := q.claimed - (lanesOf hit).length }
      | none => s1
    s2.retire)

-- LAUNCH (R136) -------------------------------------------------------------------------------------------------------------

/-- `LAUNCH` (R136): DETAIL of a misaligned block is its address. (Log 110 DEDUCED.) -/
def execLaunch (a b : SReg) (f : BitVec 1) (s : State) : Host.Outcome State Fault Refusal :=
  issue (.launch a b f) s (fun s =>
    let blk := s.sreg a.toNat
    let qn := (s.sreg b.toNat).toNat
    let q := s.queue qn
    if blk.toNat % 256 ≠ 0 then s.takeAt 0x22 blk.toNat blk 0 none
    else if 63 < qn ∨ ¬ q.deviceFed ∨ q.ctx ≠ some s.myWg.ctx then s.take 0x61 qn
    else s.emit { s.newOp (.launch blk qn (s.launchOf s.actor.wg).prio) (s.flagSel f) s.me.mask 0 .device with gate := some s.gateHere })

/-- LAUNCH_APPEND (R136): a launch whose release is due and whose queue has room appends its address. -/
def execLaunchAppend (op : Nat) (s : State) : Host.Outcome State Fault Refusal :=
  match s.op op with
  | none => .next s
  | some o =>
    match o.kind with
    | .launch blk qn prio =>
      let q := s.queue qn
      if s.isSaved o.who.wg || !s.gateOpen o || decide (256 ≤ q.fifo.length) then .next s
      else
        .next ((s.setQueue qn { q with fifo := q.fifo ++ [(blk, prio)], st := if q.st = .parked then .run else q.st }).settle o)
    | _ => .next s

-- PREEMPT.PT (R137) -----------------------------------------------------------------------------------------------------------

/-- `PREEMPT.PT`: the declaration holds N, for the window registers `v0` to `vN` (R137). -/
def execPreemptPt (n : VReg) (a : SReg) (s : State) : Host.Outcome State Fault Refusal :=
  issue (.preemptPt n a) s (fun s =>
    let v : DWord := match s.myWg.preempt with
      | some l => BitVec.ofNat 64 (1 + 2 * l)
      | none => 0
    ((s.setMe { s.me with live := some n }).setS a.toNat v).retire)

end Sys2Proof.Machine
end

