-- ==== Sys2Proof/Machine/Front.lean ====
section
/-!
DEFINITION. The launch front end: launch blocks and their tests, the launch record and its validation, grids made, grids
complete (R103, R108-R115, R119, R120).
-/
namespace Sys2Proof.Machine

-- Blocks and records (R109, R114) ---------------------------------------------------------------------------------------

/-- Bits `lo` to `lo + n - 1` of the little-endian word that begins at a byte of a block. -/
def blkBits (b : List Byte) (off lo n : Nat) : Nat := bitsN (leNat ((b.drop off).take 8)) lo n

/-- A 64-bit field of a block. -/
def blkWord (b : List Byte) (off : Nat) : DWord := BitVec.ofNat 64 (blkBits b off 0 64)

/-- Is a reserved bit or value set in the header (R109)? -/
def headerBad (b : List Byte) : Bool :=
  blkBits b 0x10 9 23 != 0 || blkBits b 0x14 0 32 != 0 || blkBits b 0x3C 0 32 != 0 || decide (5 < blkBits b 0x10 1 3)

/-- Size of the test word. -/
def testSize (b : List Byte) : Nat := if blkBits b 0x10 7 1 = 1 then 8 else 4

/-- Is an address that the header uses misaligned (R109)? -/
def headerMisaligned (b : List Byte) : Bool :=
  (blkBits b 0x10 1 3 != 0 && blkBits b 0x18 0 64 % testSize b != 0) ||
  (blkBits b 0x10 8 1 == 1 && blkBits b 0x28 0 64 % 8 != 0)

/-- Width and height of a cluster shape code (R114). -/
def shapeOf : Nat → Nat × Nat
  | 0 => (1, 1) | 1 => (1, 2) | 2 => (2, 1) | 3 => (2, 2) | 4 => (2, 4) | 5 => (4, 2) | _ => (4, 4)

/-- The launch record of a block (R114). -/
def recordOf (b : List Byte) : Launch :=
  { entry := blkWord b 0x40, args := blkWord b 0x48, x0 := blkBits b 0x50 0 4, y0 := blkBits b 0x50 4 4,
    w := blkBits b 0x50 8 4 + 1, h := blkBits b 0x50 12 4 + 1, k := blkBits b 0x50 16 2 + 1,
    widthCode := blkBits b 0x50 18 2, cshape := blkBits b 0x50 20 3, prio := blkBits b 0x50 23 3,
    fibres := blkBits b 0x50 26 3 + 1, slots := blkBits b 0x50 29 3 + 1, regs := blkBits b 0x54 0 11,
    ctxid := BitVec.ofNat 12 (blkBits b 0x54 16 12), scratch := blkBits b 0x58 0 32,
    gridbar := blkBits b 0x5C 0 1 == 1, inherit := blkBits b 0x5C 1 1 == 1, pipe := blkBits b 0x5C 2 1 == 1,
    handler := blkBits b 0x5C 3 1 == 1, save := blkWord b 0x60, hpc := blkWord b 0x68,
    inhlo := blkBits b 0x70 0 10, inhhi := blkBits b 0x70 16 10, pipedecl := blkWord b 0x78,
    wbase := (List.range 8).map (fun i => blkBits b (0x80 + 2 * i) 0 16),
    bad := blkBits b 0x50 18 2 == 3 || blkBits b 0x50 20 3 == 7 || blkBits b 0x54 11 5 != 0 || blkBits b 0x54 28 4 != 0 ||
      blkBits b 0x5C 4 28 != 0 || blkBits b 0x70 10 6 != 0 || blkBits b 0x70 26 38 != 0 || ((b.drop 0x90).take 0x70).any (· != 0) }

/-- Warp width of a record. -/
def Launch.warp (l : Launch) : Nat := 16 * 2 ^ l.widthCode

/-- Scratchpad size: SCRATCH rounded up to a multiple of 128 (R20). -/
def Launch.ssize (l : Launch) : Nat := (l.scratch + 127) / 128 * 128

/-- Banks of a workgroup (R18). -/
def Launch.banks (l : Launch) : Nat := (l.slots * l.warp * l.regs * 4 + 32767) / 32768 + (l.ssize + 32767) / 32768

/-- Bytes of a workgroup's save image (R128). -/
def Launch.img (l : Launch) : Nat :=
  let regs := (0x34000 + l.slots * l.warp * l.regs * 4 + 4095) / 4096 * 4096
  (regs + l.ssize + 65535) / 65536 * 65536

/-- Cluster origins of a record's rectangle in the order of R120. -/
def Launch.rects (l : Launch) : List (Nat × Nat) :=
  let (cw, ch) := shapeOf l.cshape
  (List.range (l.h / ch)).flatMap (fun j => (List.range (l.w / cw)).map (fun i => (l.x0 + i * cw, l.y0 + j * ch)))

/-- The smallest bank count of a CU in the rectangle (R115). -/
def Launch.cap (l : Launch) : Nat :=
  if (List.range l.w).any (fun i => (List.range l.h).any (fun j => bankCap (l.x0 + i) (l.y0 + j) == 94)) then 94 else 96

-- The front end's accesses (R108, R113) ---------------------------------------------------------------------------------

/-- The base die's copy of lease time. -/
def State.frontTime (s : State) : Nat := s.lease 2048

/-- The place of a front-end access in a queue's context. Windows belong to workgroups; memory of a peer is refused as a
monitor's would be. (Log 111 DESIGN CHOICE, 139 DEDUCED.) -/
def State.frontPlace (s : State) (cid : BitVec 12) (va : DWord) (n : Need) : Except (BitVec 8 × Nat) Loc :=
  let c := s.ctx cid
  if canonical va && inWindow va then .error (0x20, xDetail 1 0)
  else match s.resolve 0 c cid va n (some (s.walk c va)) with
    | .at (.peer ..) _ => .error (0x27, 1)
    | .at l _ => .ok l
    | .fail k d => .error (k, d)
    | .miss => .error (0x20, 0)

/-- Stops a queue at its current block and reports it (R113). (Log 33 DESIGN CHOICE, 111 DESIGN CHOICE.) -/
def State.stopQueue (s : State) (qn : Nat) (cause : BitVec 8) (detail : Nat) (addr : DWord) : State :=
  let q := s.queue qn
  (s.setQueue qn { q with st := .stopped, held := [], watch := none }).send
    (.note 0x82 [BitVec.ofNat 64 qn, q.block, cause.setWidth 64, BitVec.ofNat 64 detail, addr])

/-- Writes STATUS of a block (R111, R112); a write that fails stops the queue. (Log 112 DEDUCED.) -/
def State.putStatus (s : State) (qn : Nat) (cid : BitVec 12) (b : DWord) (code : Nat) : State :=
  match s.frontPlace cid (b + 0x38) .write with
  | .error (k, d) => s.stopQueue qn k d (b + 0x38)
  | .ok l =>
    let (s1, g) := s.writeLoc cid l (leBytes code 4) .clear
    s1.setQueue qn { s1.queue qn with gwct := Nat.max (s1.queue qn).gwct g }

/-- Is every write the front end made for a queue at its GWCT, and every value it read at its WVT: the waits of a release at device
scope (R88, R95)? -/
def State.queueSettled (s : State) (qn : Nat) : Bool :=
  decide ((s.queue qn).gwct ≤ s.frontTime) && decide ((s.queue qn).ot ≤ s.frontTime)

/-- Ends a block: its STATUS is to be written with release, and the link at offset 0 (NEXT) or 8 (ALT) to be followed (R111). -/
def State.nextBlock (s : State) (qn : Nat) (code : Nat) (link : Nat) : State :=
  s.setQueue qn { s.queue qn with st := .status, code := code, link := link, watch := none }

/-- The STATUS of the block in hand once the waits of its release are over; then the link names the next block (R111). -/
def State.endBlock (s : State) (qn : Nat) : State :=
  let q := s.queue qn
  let s1 := s.putStatus qn (q.ctx.getD 0) q.block q.code
  let q1 := s1.queue qn
  if !s.queueSettled qn then s else if q1.st = .stopped then s1
  else
    let b := blkWord q.held q.link
    s1.setQueue qn { q1 with block := b, via := some (q.block + BitVec.ofNat 64 q.link), held := [], st := .run }

-- Validation (R115) ---------------------------------------------------------------------------------------------------------

/-- Is every page of a range mapped to local memory and PINNED? -/
def State.pinned (s : State) (c : Ctx) (va : DWord) (n : Nat) : Bool :=
  let lo := va.toNat / 4096
  let hi := (va.toNat + n + 4095) / 4096
  (List.range (hi - lo)).all (fun i =>
    let a := BitVec.ofNat 64 ((lo + i) * 4096)
    !(canonical a && inWindow a) && canonical a &&
    (match s.walk c a with | .leaf l => l.pte.getLsbD 7 && !l.pte.getLsbD 11 | .fail _ => false))

/-- May the record's workgroups be saved: SAVE aligned, every image in the registered area and PINNED (R128, 0x0109)?
(Log 114 DEDUCED.) -/
def State.saveOk (s : State) (c : Ctx) (l : Launch) : Bool :=
  let need := l.w * l.h * l.k * l.img
  l.save.toNat % 65536 == 0 && decide (c.save.toNat ≤ l.save.toNat) &&
  decide (l.save.toNat + need ≤ c.save.toNat + c.size) && s.pinned c l.save need

/-- The stages of a pipeline declaration, if it is valid (R119). (Log 115 DEDUCED.) -/
def State.pipeDecl (s : State) (cid : BitVec 12) (l : Launch) : Option (List Stage) :=
  if l.pipedecl.toNat % 256 ≠ 0 then none
  else match s.frontPlace cid l.pipedecl .read with
    | .error _ => none
    | .ok p =>
      let b := (s.readLoc p 256).2.1
      let entry := fun (i : Nat) => (b.drop (32 * i)).take 32
      let valid := fun (i : Nat) => blkBits (entry i) 0x14 0 1 == 1
      let n := ((List.range 8).filter valid).length
      let bad := (List.range 8).any (fun i => blkBits (entry i) 0x14 2 30 != 0 || blkBits (entry i) 0x18 0 64 != 0)
      let st := (List.range n).map (fun i =>
        ({ entry := blkWord (entry i) 0, qbase := blkWord (entry i) 8, depth := blkBits (entry i) 0x10 0 32,
           stealable := blkBits (entry i) 0x14 1 1 == 1 } : Stage))
      let clusters := l.k * l.rects.length
      let depthOk := fun (d : Nat) => (List.range 9).any (fun e => d == 256 * 2 ^ e)
      if bad || n == 0 || !(List.range n).all valid || decide (2 < (st.filter (·.stealable)).length) ||
         !st.all (fun x => depthOk x.depth && s.pinned (s.ctx cid) x.qbase (clusters * x.depth * 16)) then none
      else some st

/-- Must the read of a pipeline declaration wait for the scrubber (R388)? -/
def State.declScrub (s : State) (cid : BitVec 12) (l : Launch) : Bool :=
  l.pipe && (match s.frontPlace cid l.pipedecl .read with | .ok p => s.mustScrub p 256 | .error _ => false)

/-- The read of a pipeline declaration for a queue's context: its lines take their owner, and the queue keeps the time it observes
(R28, R85). -/
def State.ownDecl (s : State) (qn : Nat) (l : Launch) : State :=
  let cid := (s.queue qn).ctx.getD 0
  if !l.pipe || l.pipedecl.toNat % 256 != 0 then s
  else match s.frontPlace cid l.pipedecl .read with
    | .error _ => s
    | .ok p =>
      let (s1, _, w) := s.readAs cid p 256
      s1.setQueue qn { s1.queue qn with ot := Nat.max (s1.queue qn).ot w }

/-- `validate`: the first failing code in order, 0 for none (R112, R115). (Log 113 DEDUCED, 115 DEDUCED.) -/
def State.validate (s : State) (cid : BitVec 12) (limit : Option Nat) (l : Launch) : Nat :=
  let (cw, ch) := shapeOf l.cshape
  if l.bad then 0x0101
  else if 16 < l.x0 + l.w ∨ 12 < l.y0 + l.h then 0x0102
  else if l.x0 % cw ≠ 0 ∨ l.y0 % ch ≠ 0 ∨ l.w % cw ≠ 0 ∨ l.h % ch ≠ 0 then 0x0103
  else if l.regs = 0 ∨ 65536 < l.warp * l.regs * 4 ∨ l.wbase.any (fun b => decide (l.regs ≤ b)) ∨
      (l.inherit ∧ ¬ (l.inhlo ≤ l.inhhi ∧ l.inhhi < l.regs)) then 0x0104
  else if 0x200000 < l.scratch then 0x0105
  else if l.cap < l.banks + 8 then 0x0106
  else if (l.gridbar ∨ l.pipe) ∧ (l.cap < l.k * l.banks + 8 ∨ 32 < l.k * l.slots) then 0x0107
  else if l.ctxid ≠ cid then 0x0108
  else if ¬ s.saveOk (s.ctx cid) l then 0x0109
  else if l.pipe ∧ (s.pipeDecl cid l).isNone then 0x010A
  else if (match limit with | some p => decide (p < l.prio) | none => false) then 0x010B
  else if l.gridbar ∧ l.inherit ∧ 1 < l.k then 0x010C
  else 0

/-- Makes a grid of a valid record: its clusters are pending (R113, R116, R120). -/
def State.makeGrid (s : State) (qn : Nat) (l : Launch) : State :=
  let q := s.queue qn
  let cid := q.ctx.getD 0
  let id := s.nextId
  let (cw, ch) := shapeOf l.cshape
  let places := (List.range l.k).flatMap (fun i => l.rects.map (fun r => (i, r)))
  let s1 : State := places.zipIdx.foldl (fun (t : State) e =>
    let c : Cluster :=
      { grid := id, inst := e.1.1, c := e.2, ox := e.1.2.1, oy := e.1.2.2, x := e.1.2.1, y := e.1.2.2, cw := cw, ch := ch,
        place := .pending, wgs := [], phase := 0, stages := [], since := t.now, promoted := false, placedAt := 0,
        frozen := false, saveT := 0, moveTo := none }
    (t.setCluster (id + 1 + e.2) c)) s
  let g : Grid :=
    { ctx := cid, launch := l, queue := qn, block := q.block,
      signal := if blkBits q.held 0x10 8 1 = 1 then some (blkWord q.held 0x28, blkWord q.held 0x30) else none,
      stages := if l.pipe then (s.pipeDecl cid l).getD [] else [], phase := 0,
      clusters := (List.range places.length).map (id + 1 + ·), gwct := 0, ot := q.ot, seen := 0, done := false }
  { (s1.setGrid id g).setQueue qn { q with last := some id } with nextId := id + 1 + places.length }

/-- After a passed test: the launch, once the previous one has completed under SERIAL (R111). -/
def State.launchBlock (s : State) (qn : Nat) : State :=
  let q := s.queue qn
  let b := q.held
  if blkBits b 0x10 5 1 = 0 then s.nextBlock qn 0x0003 0
  else if blkBits b 0x10 6 1 == 1 && q.last.any (fun g => !(s.grid g).done) then
    s.setQueue qn { q with st := .serial }
  else
    let l := recordOf b
    if s.declScrub (q.ctx.getD 0) l then s.setQueue qn { q with st := .serial } else
    let s := s.ownDecl qn l
    let e := s.validate (q.ctx.getD 0) q.limit l
    if e ≠ 0 then s.nextBlock qn e 0
    else (s.makeGrid qn l).nextBlock qn 0x0010 0

-- Tests (R110) ----------------------------------------------------------------------------------------------------------------

/-- The comparison of a block's test (R110): codes 1 to 4 are EQ, NE, GEU, LTU; SEM passes as GEU does. -/
def testCond (b : List Byte) : MonCond :=
  let k := blkBits b 0x10 1 3
  { op := BitVec.ofNat 4 (if k = 5 then 2 else k - 1), size := testSize b, v := blkWord b 0x20 }

/-- A failed test: it waits armed at its word, or the queue follows ALT (R110, R111). -/
def State.testFailed (s : State) (qn : Nat) (pa : Option Nat) : State :=
  let q := s.queue qn
  match blkBits q.held 0x10 4 1, pa with
  | 1, some a => s.setQueue qn { q with st := .testing, watch := some (a, testCond q.held) }
  | _, _ => s.nextBlock qn 0x0002 8

/-- The place of a test word. SEM needs write permission and atomics. A waiting test is refused what a monitor is: a place that is not in
local memory. (Log 111 DESIGN CHOICE.) -/
def State.testPlace (s : State) (qn : Nat) : Except (BitVec 8 × Nat) Loc :=
  let q := s.queue qn
  let sem := blkBits q.held 0x10 1 3 = 5
  match s.frontPlace (q.ctx.getD 0) (blkWord q.held 0x18) (if sem then .amo else .read) with
  | .ok (.mem pa) => if (sem ∨ blkBits q.held 0x10 4 1 = 1) ∧ !inHbm pa then .error (0x27, 2) else .ok (.mem pa)
  | .ok (.decant c k o) => if blkBits q.held 0x10 4 1 = 1 then .error (0x27, 4) else .ok (.decant c k o)
  | r => r

/-- Must the read of a block's test wait for the scrubber (R388)? A SEM test waits at its service fibre. -/
def State.testScrub (s : State) (qn : Nat) : Bool :=
  match s.testPlace qn with
  | .ok l => blkBits (s.queue qn).held 0x10 1 3 != 5 && s.mustScrub l (testSize (s.queue qn).held)
  | .error _ => false

/-- Makes the test of the block in hand: SEM is a request to the word's service fibre, after the waits of its release, any other
test a read with acquire (R95, R110). -/
def State.makeTest (s : State) (qn : Nat) : State :=
  let q := s.queue qn
  let b := q.held
  match s.testPlace qn with
  | .error (k, d) => s.stopQueue qn k d (blkWord b 0x18)
  | .ok l =>
    if blkBits b 0x10 1 3 = 5 ∧ !s.queueSettled qn then s.setQueue qn { q with st := .hit, watch := none }
    else if blkBits b 0x10 1 3 = 5 then
      { s.setQueue qn { q with st := .testing, watch := none } with ase := s.ase ++ [(ownerOf l.pa, .frontEnd, .test qn)] }
    else
      let (s1, bs, w) := s.readAs (q.ctx.getD 0) l (testSize b)
      let s2 := s1.setQueue qn { q with ot := Nat.max q.ot w }
      if (testCond b).holds (BitVec.ofNat 64 (leNat bs)) then s2.launchBlock qn
      else s2.testFailed qn (match l with | .mem pa => some pa | _ => none)

/-- The atomic action of a SEM test, made by the service fibre of its word: a passing test subtracts TVAL (R110). -/
def State.semServe (s : State) (qn : Nat) : State :=
  let q := s.queue qn
  let b := q.held
  if q.st ≠ .testing then s
  else match s.testPlace qn with
    | .error (k, d) => s.stopQueue qn k d (blkWord b 0x18)
    | .ok l =>
      let n := testSize b
      let (s1, bs, w) := s.readAs (q.ctx.getD 0) l n
      let x := leNat bs
      let v := blkBits b 0x20 0 64 % 2 ^ (8 * n)
      if v ≤ x then
        let (s2, g) := s1.writeLoc (q.ctx.getD 0) l (leBytes (x - v) n) .clear
        (s2.setQueue qn { s2.queue qn with ot := Nat.max q.ot w, gwct := Nat.max (s2.queue qn).gwct g }).launchBlock qn
      else (s1.setQueue qn { s1.queue qn with ot := Nat.max q.ot w }).testFailed qn (some l.pa)

/-- LAUNCH_TEST_RETEST (R110): a write has satisfied the condition of a waiting test. A SEM test is tried again as an atomic;
any other has passed. -/
def execLaunchTestRetest (qn : Nat) (s : State) : Host.Outcome State Fault Refusal :=
  let q := s.queue qn
  if q.st ≠ .hit then .next s
  else if blkBits q.held 0x10 1 3 = 5 then .next (s.makeTest qn)
  else .next (s.launchBlock qn)

-- Processing (R111) -----------------------------------------------------------------------------------------------------------

/-- Reads the block at hand, and makes the checks and the test of R111. -/
def State.readBlock (s : State) (qn : Nat) : State :=
  let q := s.queue qn
  let b := q.block
  if b.toNat % 256 ≠ 0 then s.stopQueue qn 0x22 0 b
  else match s.frontPlace (q.ctx.getD 0) b .read with
    | .error (k, d) => s.stopQueue qn k d b
    | .ok l =>
      if s.mustScrub l 256 then s
      else
        let (s1, bs, w) := s.readAs (q.ctx.getD 0) l 256
        let s2 := s1.setQueue qn { s1.queue qn with held := bs, ot := Nat.max q.ot w }
        if headerBad bs then s2.nextBlock qn 0x0101 0
        else if headerMisaligned bs then s2.nextBlock qn 0x0110 0
        else if blkBits bs 0x10 0 1 = 1 then s2.nextBlock qn 0x0001 0
        else if blkBits bs 0x10 1 3 ≠ 0 then (if s2.testScrub qn then s else s2.makeTest qn)
        else s2.launchBlock qn

/-- A queue with no block: a device-fed one takes the next address of its FIFO, a host-fed one whose doorbell was written
reads its last link again (R111, R387). -/
def State.nextChain (s : State) (qn : Nat) : State :=
  let q := s.queue qn
  if q.deviceFed then
    match q.fifo with
    | (b, p) :: rest => s.setQueue qn { q with block := b, limit := some p, fifo := rest, st := .run }
    | [] => s.setQueue qn { q with st := .parked }
  else match q.bell, q.via with
    | true, some a =>
      (match s.frontPlace (q.ctx.getD 0) a .read with
       | .error (k, d) => s.stopQueue qn k d a
       | .ok l =>
         if s.mustScrub l 8 then s else
         let (s1, bs, w) := s.readAs (q.ctx.getD 0) l 8
         s1.setQueue qn { s1.queue qn with bell := false, block := BitVec.ofNat 64 (leNat bs), ot := Nat.max q.ot w, st := .run })
    | _, _ => s.setQueue qn { q with st := .parked, bell := false }

/-- LAUNCH_BLOCK_PROCESS (R111): one step of a queue, after the write times of what the front end wrote for it before (R108). -/
def execLaunchBlockProcess (qn : Nat) (s : State) : Host.Outcome State Fault Refusal :=
  let q := s.queue qn
  if q.ctx.isNone ∨ s.frontTime < q.gwct then .next s
  else match q.st with
    | .run => .next (if q.block = 0 then s.nextChain qn else s.readBlock qn)
    | .parked => if q.deviceFed && !q.fifo.isEmpty then .next (s.nextChain qn) else .next s
    | .serial => .next (s.launchBlock qn)
    | .status => .next (s.endBlock qn)
    | _ => .next s

-- Completion (R113) -----------------------------------------------------------------------------------------------------------

/-- Has every workgroup of a grid ended? -/
def State.gridEnded (s : State) (g : Nat) : Bool := (s.grid g).clusters.all (fun c => (s.cluster c).place == .ended)

/-- Is every access of a grid performed at system scope, with the times its fibres observed passed, as the release of SVAL asks
(R88, R95, R103, R113)? -/
def State.gridPerformed (s : State) (g : Nat) : Bool :=
  s.ops.all (fun o => (s.wg o.who.wg).grid != g || o.cls == 0 ||
    (s.opPerformed o .system && decide (o.gwct ≤ s.frontTime) && decide (o.ot ≤ s.frontTime))) &&
  decide ((s.grid g).gwct ≤ s.frontTime) && decide ((s.grid g).seen ≤ s.frontTime)

/-- Is the STATUS 0x0010 of a grid's launch still to be written (R111, R112)? -/
def State.launching (s : State) (g : Nat) : Bool :=
  s.queues.any (fun e => e.2.last == some g && e.2.st == .status && e.2.code == 0x0010)

/-- GRID_COMPLETE (R113): with every workgroup ended and every access performed, SVAL is written, and after that write's time
the STATUS 0x0011, which follows the block's 0x0010 (R112). (Log 112 DEDUCED.) -/
def execGridComplete (g : Nat) (s : State) : Host.Outcome State Fault Refusal :=
  let x := s.grid g
  if x.done || s.launching g || !s.gridEnded g || !s.gridPerformed g then .next s
  else match x.signal with
    | some (a, v) =>
      (match s.frontPlace x.ctx a .write with
       | .error (k, d) =>
         .next ((s.setGrid g { x with signal := none }).send
           (.note 0x82 [BitVec.ofNat 64 x.queue, x.block, k.setWidth 64, BitVec.ofNat 64 d, a]))
       | .ok l =>
         let (s1, gw) := s.writeLoc x.ctx l (leBytes v.toNat 8) .clear
         .next (s1.setGrid g { x with signal := none, gwct := Nat.max x.gwct gw }))
    | none =>
      match s.frontPlace x.ctx (x.block + 0x38) .write with
      | .error (k, d) =>
        .next ((s.setGrid g { x with done := true }).send
          (.note 0x82 [BitVec.ofNat 64 x.queue, x.block, k.setWidth 64, BitVec.ofNat 64 d, x.block + 0x38]))
      | .ok l => .next ((s.writeLoc x.ctx l (leBytes 0x0011 4) .clear).1.setGrid g { x with done := true })

end Sys2Proof.Machine
end

