-- ==== Sys2Proof/Machine/Fetch.lean ====
section
/-!
DEFINITION. The fibre sequencer between clauses: fetching and checking a clause, header waits, the choice of the next fibre,
freezing on asynchronous faults, handler fibres, split loads (R38-R42, R139-R146, R169-R171, R353).
-/
namespace Sys2Proof.Machine

-- Clauses (R38-R41) ---------------------------------------------------------------------------------------------------

/-- Major of a word. -/
def majorW (w : Word) : Nat := bitsN w.toNat 25 7


/-- The Y bit of a header (R38). -/
def Clause.yBit (c : Clause) : Bool := c.header.getLsbD 0

/-- The clause-ending instructions of R41. -/
def endsClause : Instr → Bool
  | .bra .. | .braZ .. | .braNz .. | .braLt .. | .braGe .. | .braAll .. | .braAny .. | .brp .. | .call .. | .brx .. | .ret ..
  | .join .. | .waitj .. | .fend | .fyield | .fsync .. | .fsyncM .. | .barWg | .barCw | .barGrid | .exit => true
  | _ => false

/-- The instruction at word `k` of a clause, with the data word of a `LIMM`; none where no row of the table matches. -/
def Clause.instrAt (c : Clause) (k : Nat) : Option Instr :=
  match decode (c.words.drop k) with
  | .ok (i, _) => some i
  | .error _ => none

/-- Is a word a clause-ending instruction? One whose reserved bits are not zero is no instruction of the table, so that it ends no
clause and faults when it issues. (Log 21 DEDUCED, 150 DESIGN CHOICE.) -/
def wordEnds (w : Word) : Bool := match decodeWord w.toNat with | .ok i => endsClause i | .error _ => false

/-- The first offending instruction word of a clause (R40), by its place: `data` says that the word is the data word of a
`LIMM`, which no check examines. (Log 20 DEDUCED, 21 DEDUCED, 150 DESIGN CHOICE.) -/
def badWord (data : Bool) (i : Nat) : List Word → Option Nat
  | [] => none
  | w :: t =>
    if data then badWord false (i + 1) t
    else
      let limm := majorW w == 0x7C && bitsN w.toNat 23 2 == 0
      let ends := fun (u : List Word) => match u with | [] => true | h :: _ => majorW h == 0x7F
      if majorW w == 0x7F || (majorW w == 0x7C && bitsN w.toNat 23 2 == 1) || (majorW w == 0x7D && ends t) ||
         (limm && ends (t.drop 1)) || (!t.isEmpty && wordEnds w) then some i
      else badWord limm (i + 1) t

/-- What a load of a clause finds. -/
inductive Load where
  | ok (c : Clause)
  | notHeader
  | bad (pcOff detail : Nat)
  | fault (cause : BitVec 8) (detail : Nat) (va : DWord)
  /-- A word lies in peer memory or in the window region (R145). -/
  | far (detail : Nat) (addr : DWord)
  | wait
deriving DecidableEq, Repr

/-- The place of one word of the clause whose header is at `h`: its translation is checked (R145). -/
def State.codePa (s : State) (wg : Nat) (h va : DWord) : Except Load Nat :=
  let w := s.wg wg
  if canonical va && inWindow va then .error (.far (xDetail 2 0) h)
  else match s.accessOp wg w.cu w.ctx va .exec with
    | .at (.mem pa) _ => if s.poisoned pa then .error .wait else .ok pa
    | .fail c d =>
      -- a page of peer memory is never executable (R207)
      if c == 0x21 && (match s.walk (s.ctx w.ctx) va with | .leaf l => l.pte.getLsbD 11 | .fail _ => false) then .error (.far d va)
      else .error (.fault c d va)
    | _ => .error (.far (xDetail 2 0) va)

/-- One word of a clause, read at its home without a lease (R145). -/
def State.codeWord (s : State) (wg : Nat) (h va : DWord) : Except Load Word :=
  match s.codePa wg h va with
  | .ok pa => .ok (BitVec.ofNat 32 (leNat ((List.range 4).map (fun i => s.physByte (pa + i)))))
  | .error e => .error e

/-- `n` words of code from an address. -/
def State.codeWords (s : State) (wg : Nat) (h va : DWord) : Nat → Except Load (List Word)
  | 0 => .ok []
  | n + 1 =>
    match s.codeWord wg h va with
    | .error e => .error e
    | .ok w => match s.codeWords wg h (va + 4) n with
      | .error e => .error e
      | .ok ws => .ok (w :: ws)

/-- The words of the clause at an address that a fetch reads, its closing header with them: none after the first that fails, one
where there is no header. -/
def State.codeCount (s : State) (wg : Nat) (a : DWord) : Nat :=
  match s.codeWord wg a a with
  | .error _ => 0
  | .ok h =>
    if majorW h ≠ 0x7F then 1
    else if bitsN h.toNat 1 4 ≠ 15 then bitsN h.toNat 1 4 + 3
    else match s.codeWord wg a (a + 4) with
      | .ok x => if majorW x = 0x7C ∧ bitsN x.toNat 23 2 = 1 then bitsN x.toNat 0 5 + 4 else 18
      | .error _ => 1

/-- A fetch of the clause at an address reads lines for the workgroup's context, and the entries of the walks (R28, R145). -/
def State.ownCode (s : State) (wg : Nat) (a : DWord) : State :=
  let w := s.wg wg
  let as := (List.range (s.codeCount wg a)).map (fun i => a + BitVec.ofNat 64 (4 * i))
  let pas := (as.map (fun x => s.codePa wg a x)).filterMap (fun e => match e with | .ok pa => some pa | .error _ => none)
  let ends := if a.toNat % 4 ≠ 0 then [] else match as.getLast? with | some e => [a, e] | none => [a]
  ends.foldl (fun (t : State) x => t.ownWalk w.cu w.ctx x) (s.ownLines w.ctx pas)

/-- Loads the clause at an address and makes the checks of R40. (Log 20 DEDUCED.) -/
def State.loadClause (s : State) (wg : Nat) (a : DWord) : Load :=
  if a.toNat % 4 ≠ 0 then .notHeader
  else match s.codeWord wg a a with
    | .error e => e
    | .ok h =>
      if majorW h ≠ 0x7F then .notHeader
      else
        let cnt := bitsN h.toNat 1 4
        let fl := fun (n : Nat) => 12 ≤ n && n ≤ 14
        if fl (bitsN h.toNat 9 4) || fl (bitsN h.toNat 5 4) then .bad 0 0
        else
          let ext : Except Load (Option Word) :=
            if cnt = 15 then (match s.codeWord wg a (a + 4) with
              | .error e => .error e
              | .ok x => .ok (if majorW x = 0x7C ∧ bitsN x.toNat 23 2 = 1 then some x else none))
            else .ok none
          match ext with
          | .error e => e
          | .ok x =>
            let len := match x with | some e => bitsN e.toNat 0 5 + 1 | none => cnt + 1
            if (match x with | some e => !(17 ≤ len && len ≤ 24) || bitsN e.toNat 5 18 != 0 | none => false) then .bad 0 1
            else
              let lead := match x with | some _ => 2 | none => 1
              match s.codeWords wg a (a + BitVec.ofNat 64 (4 * lead)) len with
              | .error e => e
              | .ok ws =>
                match badWord false 0 ws with
                | some i => .bad 0 (lead + i)
                | none =>
                  match s.codeWord wg a (a + BitVec.ofNat 64 (4 * (lead + len))) with
                  | .error e => e
                  | .ok n => if majorW n = 0x7F then .ok { addr := a, header := h, ext := x, words := ws }
                      else .bad (4 * (lead + len)) (lead + len)

/-- The clause a fibre keeps when it is frozen inside it: none if the slot's buffer no longer holds it, so that it is fetched again
on resumption (R146). -/
def State.stillBuffered (s : State) (wg k : Nat) (c : Clause) : Option Clause :=
  if (s.slot wg k).cbuf.any (fun e => e.clause == c && !e.dead) then some c else none

/-- Faults a fibre that loads a clause. A branch to a word that is no header faults back at the branch, with the temporaries it had
there and the link register of a `CALL` as it was (R37, R40, R47, R155); a word that cannot be read faults with its own address
(R32), code in peer memory or in the window region with the header's (R145). (Log 22 DEDUCED.) -/
def State.fetchFault (s : State) (r : FRef) (l : Load) : State :=
  let f := s.fib r
  match l with
  | .notHeader =>
    (match f.via with
     | some v =>
       let regs := match v.link with | some (n, x) => Tbl.set f.s n x | none => f.s
       let s1 := s.setFib r { f with
         pc := v.clause.addr, clause := s.stillBuffered r.wg r.slot v.clause, lead := v.clause.lead, inside := true, idx := v.unit0,
         unit0 := v.unit0, via := none, t := v.t, s := regs }
       s1.freeze r (faultAt (v.clause.wordAddr v.unit0) 0x03 f.pc.toNat f.pc 0 none)
     | none => s.freeze r (faultAt f.pc 0x03 f.pc.toNat f.pc 0 none))
  | .bad off d => s.freeze r (faultAt (f.pc + BitVec.ofNat 64 off) 0x02 d 0 0 none)
  | .fault c d va => s.freeze r (faultAt va c d va 0 none)
  | .far d a => s.freeze r (faultAt f.pc 0x21 d a 0 none)
  | _ => s

/-- Puts a clause into a slot's buffer of four entries; the entry least recently issued from gives way, one that was never issued
from first, and no fibre keeps the clause that went (R145). (Log 27 DEDUCED.) -/
def State.bufferClause (s : State) (wg k : Nat) (c : Clause) : State :=
  let t := s.slot wg k
  let asid := (s.ctx (s.wg wg).ctx).asid
  let e : CEntry := { asid := asid, clause := c, used := 0, dead := false }
  let old := t.cbuf.filter (fun x => x.dead || !(x.asid == asid && x.clause.addr == c.addr))
  let m := (old.map (·.used)).foldl Nat.min s.nextId
  match (if old.length < 4 then none else old.findIdx? (fun x => x.used == m)) with
  | none => s.setSlot wg k { t with cbuf := old ++ [e] }
  | some i =>
    let out := old[i]?.map (·.clause)
    (s.live (slotRefs wg k)).foldl (fun (u : State) r =>
      let f := u.fib r
      if f.clause.isSome ∧ f.clause = out then u.setFib r f.refetch else u) (s.setSlot wg k { t with cbuf := old.eraseIdx i ++ [e] })

/-- Is the wait of a clause's header satisfied for a fibre: the flags of its mask are zero, no fence of the fibre is in progress,
and it does not freeze there (R42, R89, R169)? -/
def State.waitMet (s : State) (r : FRef) (c : Clause) : Bool :=
  let f := s.fib r
  f.fence.isNone && f.fences.isEmpty && !f.freezesAt c && s.flagsClear r c.waitMask

/-- The place in a clause of the word at which a fibre resumes: the same offset from the header (R146). Where the clause is now shorter
than that, or the offset is not that of an instruction word, there is no instruction. (Log 169 DESIGN CHOICE.) -/
def Fibre.wordIn (f : Fibre) (c : Clause) (i : Nat) : Nat :=
  if f.lead + i < c.lead then c.words.length else f.lead + i - c.lead

/-- The slot issues from a clause: its buffer entry was used last (R145). -/
def State.useEntry (s : State) (wg k : Nat) (c : Clause) : State :=
  let t := s.slot wg k
  (s.setSlot wg k { t with cbuf := t.cbuf.map (fun e => if e.clause.addr = c.addr then { e with used := s.nextId } else e) }).bump

/-- A clause that a fibre has: at its header it waits there, unless it is ready and the wait is satisfied; mid-clause after a
resumption it goes on at its word (R146, R149). (Log 27 DEDUCED.) -/
def State.takeClause (s : State) (r : FRef) (c : Clause) : State :=
  let f := s.fib r
  if f.inside then
    let s1 := if (s.slot r.wg r.slot).cur = r.idx then s.useEntry r.wg r.slot c else s
    s1.setFib r { f with clause := some c, st := .ready, blk := .none, idx := f.wordIn c f.idx, unit0 := f.wordIn c f.unit0 }
  else if f.st = .ready ∧ s.waitMet r c then s.setFib r { f with clause := some c, blk := .none }
  else s.setFib r { f with clause := some c, st := .blocked, blk := .header }

/-- CLAUSE_FETCH (R40, R145): a fibre at a header without its clause takes it from the slot's buffer, or it is fetched whole
and checked. (Log 22 DEDUCED.) -/
def execClauseFetch (r : FRef) (s : State) : Host.Outcome State Fault Refusal :=
  if s.isSaved r.wg then .next s
  else
    let f := s.fib r
    if (f.st ≠ .blocked ∧ f.st ≠ .ready) ∨ f.blk ≠ .header ∨ f.clause.isSome ∨ f.dbg = .halted then .next s
    else
      let a := f.pc
      let asid := (s.ctx (s.wg r.wg).ctx).asid
      match (s.slot r.wg r.slot).cbuf.find? (fun e => e.asid == asid && e.clause.addr == a && !e.dead) with
      | some e => .next (s.takeClause r e.clause)
      | none =>
        match s.loadClause r.wg a with
        | .ok c => .next (((s.ownCode r.wg a).bufferClause r.wg r.slot c).takeClause r c)
        | .wait => .next s
        | l => .next ((s.ownCode r.wg a).fetchFault r l)

-- Header waits (R42, R169) --------------------------------------------------------------------------------------------

/-- HEADER_WAIT_SATISFIED (R42, R89): the flags of the header's wait are zero and no fence of the fibre is in progress.
(Log 151 DESIGN CHOICE.) -/
def execHeaderWaitSatisfied (r : FRef) (s : State) : Host.Outcome State Fault Refusal :=
  if s.isSaved r.wg then .next s
  else
    let f := s.fib r
    match f.clause with
    | some c =>
      if f.st = .blocked ∧ f.blk = .header ∧ f.dbg ≠ .halted ∧ ¬ f.inside ∧ s.waitMet r c then
        .next (s.setFib r { f with st := .ready, blk := .none })
      else .next s
    | none => .next s

/-- ASYNC_FAULT_FREEZE (R169): a fibre at a header, or ending by its own `FEND` or `EXIT`, freezes with the asynchronous fault
it reaches. (Log 28 DEDUCED.) -/
def execAsyncFaultFreeze (r : FRef) (s : State) : Host.Outcome State Fault Refusal := .next (s.freezeDue r)

-- The choice of a fibre (R142) ----------------------------------------------------------------------------------------

/-- The ready fibres of a slot: those that stand at a header with the wait satisfied, and one that was resumed inside its clause
(R37, R172). A wait that was satisfied stays satisfied: the flags are not tested again. -/
def State.readyAt (s : State) (wg k : Nat) : List FRef :=
  (slotRefs wg k).filter (fun r =>
    let f := s.fib r
    f.st == .ready && f.clause.isSome && f.dbg != .halted)

/-- The fibre that has waited longest since it reached its header; the lowest index on a tie. -/
def State.longest (s : State) : List FRef → Option FRef
  | [] => none
  | r :: t => some (t.foldl (fun b q => if (s.fib q).since < (s.fib b).since then q else b) r)

/-- The fibre a slot goes on with, if it is at a switch point (R142). (Log 151 DESIGN CHOICE.) -/
def State.nextFibre (s : State) (wg k : Nat) : Option FRef :=
  let c : FRef := { wg := wg, slot := k, idx := (s.slot wg k).cur }
  let f := s.fib c
  let rdy := (s.readyAt wg k).filter (· ≠ c)
  let atHeader := (f.st == .ready && !f.inside) || (f.st == .blocked && f.blk == .header && !f.inside)
  if f.st = .ready ∧ f.inside then (if f.dbg = .halted then s.longest rdy else none)
  else if f.dbg = .halted ∨ !atHeader then s.longest rdy
  else match f.clause with
    | none => none
    | some cl =>
      if (cl.yBit || f.yield) && !rdy.isEmpty then s.longest rdy
      else if f.st = .ready then some c
      else none

/-- Does work of the workgroup run: resident, not stopping for a save or move? -/
def State.wgRuns (s : State) (wg : Nat) : Bool :=
  let w := s.wg wg
  w.live && (s.cluster w.cluster).place == .resident && s.ctl.phase == .ready

/-- FIBRE_SWITCH (R142): the slot's next fibre passes its header, as its wait was found satisfied. (Log 151 DESIGN CHOICE.) -/
def execFibreSwitch (wg slot : Nat) (s : State) : Host.Outcome State Fault Refusal :=
  if !s.wgRuns wg then .next s
  else match s.nextFibre wg slot with
    | none => .next s
    | some r =>
      let f := s.fib r
      let t := s.slot wg slot
      let s0 := match f.clause with | some c => s.useEntry wg slot c | none => s.bump
      let s1 := s0.setSlot wg slot { s0.slot wg slot with cur := r.idx }
      let s2 := s1.setFib r { f with inside := true, via := none, yield := false }
      .next (if t.cur = r.idx then s2 else s2.countEv (s.wg wg).cu 4 1 (some (s.wg wg).ctx))

-- Handlers (R170) -----------------------------------------------------------------------------------------------------

/-- HANDLER_FIBRE_START (R170): record 8 is absent; the first fibre in fault order that is still frozen gets its handler. -/
def execHandlerFibreStart (wg slot : Nat) (s : State) : Host.Outcome State Fault Refusal :=
  if s.isSaved wg then .next s
  else
    let r8 : FRef := { wg := wg, slot := slot, idx := 8 }
    let t := s.slot wg slot
    match t.hq with
    | [] => .next s
    | k :: rest =>
      if (s.fib r8).st ≠ .absent then .next s
      else
        let f := s.fib { r8 with idx := k }
        let s1 := s.setSlot wg slot { t with hq := rest }
        if f.st ≠ .frozen then .next s1
        else
          .next ((s1.setFib r8 { Fibre.absent with
            st := .ready, blk := .header, fid := s.nextId, pc := (s.launchOf wg).hpc, mask := f.mask, base := f.base
            s := f.s, p := f.p, q := f.q, fsel := BitVec.ofNat 4 k, serves := k, since := s.nextId
            came := s.now, old := (s.fib r8).record }).bump)

-- Split loads (R353) --------------------------------------------------------------------------------------------------

/-- LOAD_SPLIT (R353, R154): at a header that waits on a flag counting a split load, the lanes that have their data go on and
the others become a new fibre. (Log 10 DESIGN CHOICE, 59 DEDUCED.) -/
def execLoadSplit (r : FRef) (s : State) : Host.Outcome State Fault Refusal :=
  if s.isSaved r.wg then .next s
  else
    let f := s.fib r
    match f.clause with
    | some c =>
      if f.st ≠ .blocked ∨ f.blk ≠ .header ∨ f.inside ∨ f.dbg = .halted then .next s
      else
        let counted := fun (o : Op) (n : Nat) => o.counts.any (fun x =>
          x.wg == r.wg && x.slot == r.slot && x.flag == some n && (x.lanes &&& f.mask) != 0)
        let flags := (List.range 12).filter (fun n => c.waitMask.getLsbD n &&
          s.ops.any (fun o => o.split && counted o n) && s.ops.all (fun o => o.split || !counted o n))
        let late := fun (n : Nat) => (s.ops.filter (fun o => counted o n)).foldl (fun (m : DWord) o =>
            m ||| maskOf ((o.parts.filter (fun p => p.st != .done)).flatMap (fun p => p.lanes.map (·.1)))) 0
        let splits := (flags.map late).filter (fun m => f.mask &&& ~~~m != 0 && f.mask &&& ~~~m != f.mask)
        match splits, s.freeRecord r.wg r.slot with
        | late :: _, some k =>
          let a := f.mask &&& ~~~late
          if (s.now - f.came) * s.ctl.aclk < fld f.fsplit 16 16 * 1000 then .next s
          else
            let q : FRef := { r with idx := k }
            let g : Fibre := { f with
              mask := f.mask &&& late, fid := s.nextId, fsel := BitVec.ofNat 4 k, fault := none, old := (s.fib q).record, pend := [], since := s.nextId, came := s.now
              s := Tbl.set f.s (fld f.fsplit 1 6) 1, dbg := .run, bpSeen := [] }
            let s1 := ((s.setFib q g).share f.fid s.nextId).bump.setFib r { f with mask := a }
            .next (s1.stepChild f.dbg q f.pc)
        | _, _ => .next s
    | none => .next s

end Sys2Proof.Machine
end

