-- ==== Sys2Proof/Machine/Vector.lean ====
section
/-!
DEFINITION. The vector engine: the lane crossbar, source and destination operands with their tags, and the meanings of the
instructions of majors 0x10-0x2C (R175-R204).
-/
namespace Sys2Proof.Machine

-- Operands ------------------------------------------------------------------------------------------------------------

/-- route(c, l): the source lane that delivers to lane `l`, or none (R179). -/
def State.routeSrc (s : State) (rt : Rt) (l : Nat) : Option Nat :=
  let w := s.width
  if rt = 0 then some l
  else
    let r := Tbl.get s.me.q rt.toNat { kind := 0, param := 0 }
    let p := r.param.toNat
    match r.kind.toNat with
    | 0 => some ((l + p) % w)
    | 1 => some (p % w)
    | 2 => some (l ^^^ (p % w))
    | 3 => some ((p + 64 - l) % w)
    | 4 =>
      let e := (s.ptByte s.actor.wg (64 * (p % 16) + l)).toNat
      if e < w then some e else none
    | _ => none

/-- A source operand as read: its tag, for a pair whether it is unsigned, the routed lanes, and whether a lane the crossbar
reads is pending. -/
structure Src where
  tag : Tag
  uns : Bool
  lanes : List Nat
  pend : Bool
deriving DecidableEq, Repr

/-- A fault of an operand check: cause and DETAIL. -/
abbrev OpFault := BitVec 8 × Nat

/-- Is a lane that the crossbar reads from window register `r` through a route pending (R176)? -/
def State.routePend (s : State) (r : Nat) (rt : Rt) : Bool :=
  let m := s.pendingAny s.actor.wg s.actor.slot (s.me.base.toNat + r)
  m != 0 && s.active.any (fun l => match s.routeSrc rt l with | some k => m.getLsbD k | none => false)

/-- The routed lanes of a register. -/
def State.routed (s : State) (v : VVal) (rt : Rt) : List Nat :=
  (List.range s.width).map (fun l => match s.routeSrc rt l with | some k => (v.lane k).toNat | none => 0)

/-- A source read one register at a time, any tag but INVALID (R177, R187, R190). -/
def State.vsingle (s : State) (pos : Nat) (r : VReg) (rt : Rt) (tb : Nat) : Except OpFault Src :=
  let t := s.tagField r tb
  if t = 0 then .error (0x10, tagDetail pos false 0)
  else .ok { tag := t, uns := false, lanes := s.routed (s.vfield r tb) rt, pend := !s.tbit tb && s.routePend r.toNat rt }

/-- A source operand under the pair rules of R177, whose register is even and whose high register lies in the window (R36).
(Log 34 DESIGN CHOICE.) -/
def State.vsrc (s : State) (pos : Nat) (r : VReg) (rt : Rt) (tb : Nat) : Except OpFault Src :=
  let t := s.tagField r tb
  if t = 0xF then .error (0x10, tagDetail pos false 0xF)
  else if t ≠ 0xE then s.vsingle pos r rt tb
  else
    let h := s.vtagOf (r.toNat + 1)
    if h = 0xF ∨ h = 2 then
      .ok { tag := 0xE, uns := h == 2,
            lanes := List.zipWith (fun x y => x + y * 2 ^ 32) (s.routed (s.vwin r.toNat) rt) (s.routed (s.vwin (r.toNat + 1)) rt),
            pend := s.routePend r.toNat rt || s.routePend (r.toNat + 1) rt }
    else .error (0x10, tagDetail pos true h)

/-- The second source: the register, or the LIMM word in every lane with the tag of the first, in a pair operation
sign-extended (R43, R177). (Log 34 DESIGN CHOICE.) -/
def State.vsrc2 (s : State) (a : Src) (r : VReg) (rt : Rt) : Except OpFault Src :=
  match s.me.hLimm with
  | some w =>
    let x := if a.tag = 0xE then (sext32 w).toNat else w.toNat
    .ok { tag := a.tag, uns := a.uns, lanes := List.replicate s.width x, pend := false }
  | none => s.vsrc 2 r rt 0

/-- Writes lanes of one destination register or temporary, with its tag; `raw` keeps bits 31:30 (R62, R175). -/
def State.putIn (s : State) (m : DWord) (d : VReg) (tag : Tag) (vals : List Nat) (raw : Bool) : State :=
  let f := fun l => let x := BitVec.ofNat 32 (vals.getD l 0); if raw then x else cleanLane tag x
  if s.tbit 2 then
    s.setMe { s.me with t := Tbl.set s.me.t (d.toNat % 4) ((Tbl.get s.me.t (d.toNat % 4) VVal.temp).write s.width m tag f) }
  else
    s.setWin d.toNat ((s.vreg s.actor.wg s.actor.slot (s.me.base.toNat + d.toNat)).write s.width m tag f)

/-- Writes the active lanes of one destination register or temporary (R175). -/
def State.putLanes (s : State) (d : VReg) (tag : Tag) (vals : List Nat) (raw : Bool) : State :=
  s.putIn s.me.mask d tag vals raw

/-- The flags of the active lanes (R178). -/
def State.laneFlags (s : State) (outs : List (Nat × Fl)) : Fl :=
  s.active.foldl (fun m l => m ||| (outs.getD l (0, 0)).2) 0

/-- Writes a result, one register or a pair, ORs the flags of the active lanes and ends the unit (R175, R177, R178). -/
def State.vdone (s : State) (d : VReg) (tag : Tag) (uns : Bool) (outs : List (Nat × Fl)) : State :=
  let vals := outs.map (·.1)
  if tag = 0xE then
    (((s.putLanes d 0xE (vals.map (· % 2 ^ 32)) true).putLanes (d + 1) (if uns then 2 else 0xF)
      (vals.map (· / 2 ^ 32)) true).raise (s.laneFlags outs)).retire
  else ((s.putLanes d tag vals false).raise (s.laneFlags outs)).retire

/-- Is the destination register an accumulator of an outstanding matrix operation, whose value is undefined (R91, R203)? -/
def State.accDest (s : State) (d : VReg) : Bool :=
  !s.tbit 2 && s.ops.any (s.accOf s.actor.wg s.actor.slot (s.me.base.toNat + d.toNat))

/-- Runs a body on an operand, or takes the operand's fault. (Log 34 DESIGN CHOICE.) -/
def State.withSrc (s : State) (r : Except OpFault Src) (k : Src → State) : State :=
  match r with
  | .error e => s.take e.1 e.2
  | .ok a => if a.pend then s.waitHere else k a

/-- RM and SAT of the hint. -/
def State.rm (s : State) : Nat := mRM s.hint
/-- SAT of the hint. -/
def State.satHint (s : State) : Nat := mSAT s.hint

/-- Is SAT = 0b10 set on a destination format without a value to overflow into (R65, R178)? -/
def State.satBad (s : State) (t : Tag) : Bool :=
  s.satHint == 2 && (t == 0xB || (match fmtOf t with | some f => f.kind == .finite | none => false))

/-- The tag mismatch of a second operand: for pairs of two kinds the second register is named (R204). (Log 34 DESIGN CHOICE.) -/
def mismatch (pos : Nat) (b : Src) (pair : Bool) : OpFault :=
  if pair ∧ b.tag = 0xE then (0x10, tagDetail pos true (if b.uns then 2 else 0xF)) else (0x10, tagDetail pos false b.tag)

-- Two-source arithmetic (R183-R185) -----------------------------------------------------------------------------------

/-- Operations of majors 0x10-0x18. -/
inductive VArith where
  | add | sub | mul | mulh | fma | fms | madi | min | max
deriving DecidableEq, Repr

/-- Does the operation accept the tag (R183)? -/
def VArith.accepts (op : VArith) (t : Tag) : Bool :=
  match op with
  | .add | .sub | .min | .max => (fmtOf t).isSome || isInt t || t == 0xE
  | .mul => (fmtOf t).isSome || isInt t
  | .mulh | .madi => isInt t
  | .fma | .fms => (fmtOf t).isSome

/-- Does the operation read its destination? -/
def VArith.readsD (op : VArith) : Bool := match op with | .fma | .fms | .madi => true | _ => false

/-- One element (R183-R185). -/
def VArith.elem (op : VArith) (t : Tag) (uns : Bool) (rm sat : Nat) (a b d : Nat) : Nat × Fl :=
  match fmtOf t with
  | some f =>
    let x := FV.ofBits f a
    let y := FV.ofBits f b
    let z := FV.ofBits f d
    let fin := fun (r : FV × Fl) => let e := encFV f rm (satOn f sat) r.1; (e.1, e.2 ||| r.2)
    match op with
    | .add => fin (fvAdd rm x y)
    | .sub => fin (fvAdd rm x y.neg)
    | .mul => fin (fvMul x y)
    | .fma => fin (fvFma rm x y z)
    | .fms => fin (fvFma rm x y z.neg)
    | .min => fvMinMax f false a b
    | .max => fvMinMax f true a b
    | _ => (0, 0)
  | none =>
    let w := widthOf t
    let u := t == 2 || (t == 0xE && uns)
    let x := intOf w u a
    let y := intOf w u b
    match op with
    | .add => encInt w u (sat == 1) (x + y)
    | .sub => encInt w u (sat == 1) (x - y)
    | .mul => encInt w u (sat == 1) (x * y)
    | .mulh => (wrapI w (x * y / 2 ^ w), 0)
    | .madi => encInt w u (sat == 1) (x * y + intOf w u d)
    | .min => (if x < y then a else b, 0)
    | .max => (if x < y then b else a, 0)
    | _ => (0, 0)

/-- A two-source operation on the elements of equal tags. The tags are held against the entry before SAT against the result's
format. (Log 161 DESIGN CHOICE.) -/
def State.vv (s : State) (op : VArith) (d a : VReg) (x : Rt) (b : VReg) (y : Rt) : State :=
  s.withSrc (s.vsrc 1 a x 1) (fun A =>
    if !op.accepts A.tag then s.take 0x10 (tagDetail 1 false A.tag)
    else s.withSrc (s.vsrc2 A b y) (fun B =>
      if B.tag ≠ A.tag ∨ B.uns ≠ A.uns then s.take (mismatch 2 B (A.tag = 0xE)).1 (mismatch 2 B (A.tag = 0xE)).2
      else if op.readsD && s.tagField d 2 != A.tag && !(op != .madi && s.accDest d) then s.take 0x10 (tagDetail 0 false (s.tagField d 2))
      else if !(op == .min || op == .max) && s.satBad A.tag then s.take 1 0
      else
        let D := s.vfield d 2
        s.vdone d A.tag A.uns ((List.range s.width).map (fun l =>
          packElems A.tag (fun i => op.elem A.tag A.uns s.rm s.satHint (elemOf A.tag (A.lanes.getD l 0) i)
            (elemOf A.tag (B.lanes.getD l 0) i) (elemOf A.tag (D.lane l).toNat i))))))

/-- `VADD` (R183). -/
def execVadd (d a : VReg) (x : Rt) (b : VReg) (y : Rt) (s : State) : Host.Outcome State Fault Refusal :=
  issue (.vadd d a x b y) s (fun s => s.vv .add d a x b y)
/-- `VSUB` (R183). -/
def execVsub (d a : VReg) (x : Rt) (b : VReg) (y : Rt) (s : State) : Host.Outcome State Fault Refusal :=
  issue (.vsub d a x b y) s (fun s => s.vv .sub d a x b y)
/-- `VMUL` (R183). -/
def execVmul (d a : VReg) (x : Rt) (b : VReg) (y : Rt) (s : State) : Host.Outcome State Fault Refusal :=
  issue (.vmul d a x b y) s (fun s => s.vv .mul d a x b y)
/-- `VMULH` (R183). -/
def execVmulh (d a : VReg) (x : Rt) (b : VReg) (y : Rt) (s : State) : Host.Outcome State Fault Refusal :=
  issue (.vmulh d a x b y) s (fun s => s.vv .mulh d a x b y)
/-- `VFMA` (R183). -/
def execVfma (d a : VReg) (x : Rt) (b : VReg) (y : Rt) (s : State) : Host.Outcome State Fault Refusal :=
  issue (.vfma d a x b y) s (fun s => s.vv .fma d a x b y)
/-- `VFMS` (R183). -/
def execVfms (d a : VReg) (x : Rt) (b : VReg) (y : Rt) (s : State) : Host.Outcome State Fault Refusal :=
  issue (.vfms d a x b y) s (fun s => s.vv .fms d a x b y)
/-- `VMADI` (R183). -/
def execVmadi (d a : VReg) (x : Rt) (b : VReg) (y : Rt) (s : State) : Host.Outcome State Fault Refusal :=
  issue (.vmadi d a x b y) s (fun s => s.vv .madi d a x b y)
/-- `VMIN` (R183, R184). -/
def execVmin (d a : VReg) (x : Rt) (b : VReg) (y : Rt) (s : State) : Host.Outcome State Fault Refusal :=
  issue (.vmin d a x b y) s (fun s => s.vv .min d a x b y)
/-- `VMAX` (R183, R184). -/
def execVmax (d a : VReg) (x : Rt) (b : VReg) (y : Rt) (s : State) : Host.Outcome State Fault Refusal :=
  issue (.vmax d a x b y) s (fun s => s.vv .max d a x b y)

-- Logic (R185) --------------------------------------------------------------------------------------------------------

/-- Is it a tag of 32 bits, no pair half and not INVALID? -/
def tag32 (t : Tag) : Bool := t != 0 && t != 0xE && t != 0xF

/-- The result tag of a logic operation and the kind of a pair, or none for a mismatch (R185). -/
def logicTag (a b : Src) : Option (Tag × Bool) :=
  if a.tag = b.tag then (if a.uns = b.uns then some (a.tag, a.uns) else none)
  else if a.tag = 0xE then (if b.tag = 1 ∨ b.tag = 2 then some (0xE, a.uns) else none)
  else if b.tag = 0xE then (if a.tag = 1 ∨ a.tag = 2 then some (0xE, b.uns) else none)
  else if (a.tag = 1 ∧ b.tag = 2) ∨ (a.tag = 2 ∧ b.tag = 1) then some (2, false)
  else if a.tag = 1 ∨ a.tag = 2 then some (b.tag, false)
  else if b.tag = 1 ∨ b.tag = 2 then some (a.tag, false)
  else none

/-- A 32-bit source of a pair operation extended, with its sign for I32, with zeros for U32 (R185). -/
def Src.wide (a : Src) (l : Nat) : Nat :=
  let x := a.lanes.getD l 0
  if a.tag = 1 then (sext32 (BitVec.ofNat 32 x)).toNat else x

/-- A logic operation on 32 bits, or 64 for pairs. -/
def State.vlogic (s : State) (f : Nat → Nat → Nat) (d a : VReg) (x : Rt) (b : VReg) (y : Rt) : State :=
  s.withSrc (s.vsrc 1 a x 1) (fun A => s.withSrc (s.vsrc2 A b y) (fun B =>
    match logicTag A B with
    | none => s.take (mismatch 2 B (A.tag = 0xE)).1 (mismatch 2 B (A.tag = 0xE)).2
    | some (t, u) => s.vdone d t u ((List.range s.width).map (fun l =>
        if t = 0xE then (f (A.wide l) (B.wide l), 0) else (f (A.lanes.getD l 0) (B.lanes.getD l 0), 0)))))

/-- `VAND` (R185). -/
def execVand (d a : VReg) (x : Rt) (b : VReg) (y : Rt) (s : State) : Host.Outcome State Fault Refusal :=
  issue (.vand d a x b y) s (fun s => s.vlogic (· &&& ·) d a x b y)
/-- `VOR` (R185). -/
def execVor (d a : VReg) (x : Rt) (b : VReg) (y : Rt) (s : State) : Host.Outcome State Fault Refusal :=
  issue (.vor d a x b y) s (fun s => s.vlogic (· ||| ·) d a x b y)
/-- `VXOR` (R185). -/
def execVxor (d a : VReg) (x : Rt) (b : VReg) (y : Rt) (s : State) : Host.Outcome State Fault Refusal :=
  issue (.vxor d a x b y) s (fun s => s.vlogic (· ^^^ ·) d a x b y)

-- Shifts (R185) -------------------------------------------------------------------------------------------------------

/-- The count of element `i`, or none for a mismatch (R185): each element's own, or the lane's word for every element. -/
def shiftCount (a b : Src) (l i : Nat) : Option Nat :=
  let x := b.lanes.getD l 0
  if a.tag = 0xE then (if b.tag = 0xE ∨ b.tag = 1 ∨ b.tag = 2 then some (x % 2 ^ 32) else none)
  else if b.tag = a.tag then some (elemOf a.tag x i)
  else if b.tag = 1 ∨ b.tag = 2 then some (x % 2 ^ 32)
  else none

/-- A shift: 0 left, 1 right with zeros, 2 right with the sign; a count of the width or more shifts everything out. -/
def shiftElem (k w x n : Nat) : Nat :=
  match k with
  | 0 => if w ≤ n then 0 else x * 2 ^ n % 2 ^ w
  | 1 => if w ≤ n then 0 else x / 2 ^ n
  | _ => wrapI w (sgnOf w x / (2 ^ (Nat.min n w) : Int))

/-- A shift of integer elements or pairs; pairs of two kinds are refused as in every entry (R177, R185). -/
def State.vshift (s : State) (k : Nat) (d a : VReg) (x : Rt) (b : VReg) (y : Rt) : State :=
  s.withSrc (s.vsrc 1 a x 1) (fun A =>
    if !(isInt A.tag || A.tag == 0xE) then s.take 0x10 (tagDetail 1 false A.tag)
    else s.withSrc (s.vsrc2 A b y) (fun B =>
      if (shiftCount A B 0 0).isNone ∨ (A.tag = 0xE ∧ B.tag = 0xE ∧ A.uns ≠ B.uns) then
        s.take (mismatch 2 B (A.tag = 0xE)).1 (mismatch 2 B (A.tag = 0xE)).2
      else s.vdone d A.tag A.uns ((List.range s.width).map (fun l =>
        packElems A.tag (fun i =>
          (shiftElem k (widthOf A.tag) (elemOf A.tag (A.lanes.getD l 0) i) ((shiftCount A B l i).getD 0), 0))))))

/-- `VSHL` (R185). -/
def execVshl (d a : VReg) (x : Rt) (b : VReg) (y : Rt) (s : State) : Host.Outcome State Fault Refusal :=
  issue (.vshl d a x b y) s (fun s => s.vshift 0 d a x b y)
/-- `VSHR` (R185). -/
def execVshr (d a : VReg) (x : Rt) (b : VReg) (y : Rt) (s : State) : Host.Outcome State Fault Refusal :=
  issue (.vshr d a x b y) s (fun s => s.vshift 1 d a x b y)
/-- `VSRA` (R185). -/
def execVsra (d a : VReg) (x : Rt) (b : VReg) (y : Rt) (s : State) : Host.Outcome State Fault Refusal :=
  issue (.vsra d a x b y) s (fun s => s.vshift 2 d a x b y)

-- Scale, dot, pack, permute -------------------------------------------------------------------------------------------

/-- `a × 2^b` (R184). -/
def fvScale (v : FV) (b : Int) : FV := match v with | .fin n m e => .fin n m (e + b) | x => x

/-- `VSCALE`: the scale is an I32 lane, or the LIMM word whatever the tag of a (R184). -/
def execVscale (d a : VReg) (x : Rt) (b : VReg) (y : Rt) (s : State) : Host.Outcome State Fault Refusal :=
  issue (.vscale d a x b y) s (fun s =>
    s.withSrc (s.vsrc 1 a x 1) (fun A =>
      match fmtOf A.tag with
      | none => s.take 0x10 (tagDetail 1 false A.tag)
      | some f => s.withSrc (s.vsrc2 A b y) (fun B =>
        if s.me.hLimm.isNone ∧ B.tag ≠ 1 then s.take (mismatch 2 B false).1 (mismatch 2 B false).2
        else if s.satBad A.tag then s.take 1 0
        else s.vdone d A.tag false ((List.range s.width).map (fun l =>
          packElems A.tag (fun i =>
            let v := FV.ofBits f (elemOf A.tag (A.lanes.getD l 0) i)
            let r := encFV f s.rm (satOn f s.satHint) (fvScale v (sgnOf 32 (B.lanes.getD l 0)))
            (r.1, r.2 ||| v.sigFl)))))))

/-- The dot product of a lane added to d (R186): exact products and sum, one rounding. (Log 172 DESIGN CHOICE.) -/
def dotLane (t : Tag) (rm sat : Nat) (a b d : Nat) : Nat × Fl :=
  match fmtOf t with
  | none =>
    let w := widthOf t
    encInt 32 false (sat == 1) ((List.range (elemsOf t)).foldl (fun (n : Int) i =>
      n + sgnOf w (elemOf t a i) * sgnOf w (elemOf t b i)) (sgnOf 32 d))
  | some f =>
    let z := FV.ofBits fmtF32 d
    let r := (List.range (elemsOf t)).foldl (fun (p : FV × Fl) i =>
      let q := fvMul (FV.ofBits f (elemOf t a i)) (FV.ofBits f (elemOf t b i))
      let u := fvAdd rm p.1 q.1
      (u.1, p.2 ||| q.2 ||| u.2)) (z, z.sigFl)
    let e := encFV fmtF32 rm (satOn fmtF32 sat) r.1
    (e.1, e.2 ||| r.2)

/-- `VDOT4` (R186). -/
def execVdot4 (d a : VReg) (x : Rt) (b : VReg) (y : Rt) (s : State) : Host.Outcome State Fault Refusal :=
  issue (.vdot4 d a x b y) s (fun s =>
    s.withSrc (s.vsrc 1 a x 1) (fun A =>
      let int := A.tag == 0xC || A.tag == 0xD
      if !(int || (decide (4 ≤ A.tag.toNat) && decide (A.tag.toNat ≤ 10))) then s.take 0x10 (tagDetail 1 false A.tag)
      else s.withSrc (s.vsrc2 A b y) (fun B =>
        let td := s.tagField d 2
        if B.tag ≠ A.tag then s.take (mismatch 2 B false).1 (mismatch 2 B false).2
        else if td ≠ (if int then 1 else 3) then s.take 0x10 (tagDetail 0 false td)
        else
          let D := s.vfield d 2
          s.vdone d td false ((List.range s.width).map (fun l =>
            dotLane A.tag s.rm s.satHint (A.lanes.getD l 0) (B.lanes.getD l 0) (D.lane l).toNat)))))

/-- `VPACK`: the value converted into one element of the destination; an element that the tag has not sets NV and leaves the lane
as it is (R188). An accumulator of an outstanding matrix operation as destination keeps its undefined value, without a fault
(R203). (Log 160 DESIGN CHOICE, 161 DESIGN CHOICE, 173 DESIGN CHOICE.) -/
def execVpack (d a : VReg) (x : Rt) (b : VReg) (y : Rt) (s : State) : Host.Outcome State Fault Refusal :=
  issue (.vpack d a x b y) s (fun s =>
    let t := s.tagField d 2
    if !s.accDest d && (decide (t.toNat < 4) || decide (13 < t.toNat)) then s.take 0x10 (tagDetail 0 false t)
    else s.withSrc (s.vsrc 1 a x 1) (fun A =>
      if A.tag ≠ 1 ∧ A.tag ≠ 3 then s.take 0x10 (tagDetail 1 false A.tag)
      else s.withSrc (s.vsrc2 A b y) (fun B =>
        if s.me.hLimm.isNone ∧ B.tag ≠ 1 ∧ B.tag ≠ 2 then s.take (mismatch 2 B false).1 (mismatch 2 B false).2
        else if s.accDest d then (s.putIn 0 d t [] true).retire
        else if s.satBad t ∨ (A.tag = 3 ∧ isInt t ∧ s.satHint ≠ 0) then s.take 1 0
        else
          let D := s.vfield d 2
          let e := fun (l : Nat) => B.lanes.getD l 0 % 16
          let outs := (List.range s.width).map (fun l =>
            if elemsOf t ≤ e l then (0, flNV)
            else
              let r := cvtTo s.rm s.satHint t (elemVal A.tag false (A.lanes.getD l 0))
              ((packElems t (fun i => if i = e l then r else (elemOf t (D.lane l).toNat i, 0))).1, r.2))
          ((s.putIn (maskOf (s.active.filter (fun l => decide (e l < elemsOf t)))) d t (outs.map (·.1)) false).raise
            (s.laneFlags outs)).retire)))

/-- `VPERM`: one register at a time; lane k is read whether or not it is active (R187). -/
def execVperm (d a : VReg) (x : Rt) (b : VReg) (y : Rt) (s : State) : Host.Outcome State Fault Refusal :=
  issue (.vperm d a x b y) s (fun s =>
    let idx : Except OpFault Src := match s.me.hLimm with
      | some w => .ok { tag := 2, uns := false, lanes := List.replicate s.width w.toNat, pend := false }
      | none => s.vsingle 2 b y 0
    s.withSrc idx (fun B =>
      if B.tag ≠ 1 ∧ B.tag ≠ 2 then s.take 0x10 (tagDetail 2 false B.tag)
      else
        let t := s.tagField a 1
        if t = 0 then s.take 0x10 (tagDetail 1 false 0)
        else
          let v := s.vfield a 1
          let src := fun l => let k := B.lanes.getD l 0 % 64; if k < s.width then s.routeSrc x k else none
          let pend := if s.tbit 1 then 0 else s.pendingAny s.actor.wg s.actor.slot (s.me.base.toNat + a.toNat)
          if pend ≠ 0 ∧ s.active.any (fun l => match src l with | some k => pend.getLsbD k | none => false) then s.waitHere
          else
            (s.putLanes d t ((List.range s.width).map (fun l =>
              match src l with | some k => (v.lane k).toNat | none => 0)) false).retire))

-- Compare, select, move -----------------------------------------------------------------------------------------------

/-- A comparison by the codes of R189: 0 EQ, 1 NE, 2 LT, 3 LE, 4 GT, 5 GE, from "less" and "greater". -/
def relOf (c : Nat) (lt gt : Bool) : Bool :=
  match c with
  | 0 => !lt && !gt
  | 1 => lt || gt
  | 2 => lt
  | 3 => !gt
  | 4 => gt
  | _ => !lt

/-- `VCMP` of two lanes (R189). -/
def cmpLane (c : Nat) (t : Tag) (uns : Bool) (a b : Nat) : Bool × Fl :=
  if t = 3 then
    let x := FV.ofBits fmtF32 a
    let y := FV.ofBits fmtF32 b
    let un := match x, y with | .nan _, _ | _, .nan _ => true | _, _ => false
    let fl := x.sigFl ||| y.sigFl
    match c with
    | 6 => (!un, fl)
    | 7 => (un, fl)
    | _ => (if un then c == 1 else relOf c (fvLt x y) (fvLt y x), fl)
  else
    let x := intOf (widthOf t) (t == 2 || uns) a
    let y := intOf (widthOf t) (t == 2 || uns) b
    (relOf c (decide (x < y)) (decide (y < x)), 0)

/-- `VCMP`: predicate bits of inactive lanes are unchanged (R189). -/
def execVcmp (p c : BitVec 3) (a : VReg) (x : Rt) (b : VReg) (y : Rt) (s : State) : Host.Outcome State Fault Refusal :=
  issue (.vcmp p c a x b y) s (fun s =>
    s.withSrc (s.vsrc 1 a x 1) (fun A =>
      if !(A.tag == 1 || A.tag == 2 || A.tag == 3 || A.tag == 0xE) || (decide (6 ≤ c.toNat) && A.tag != 3) then
        s.take 0x10 (tagDetail 1 false A.tag)
      else s.withSrc (s.vsrc2 A b y) (fun B =>
        if B.tag ≠ A.tag ∨ B.uns ≠ A.uns then s.take (mismatch 2 B (A.tag = 0xE)).1 (mismatch 2 B (A.tag = 0xE)).2
        else
          let rs := (List.range s.width).map (fun l => cmpLane c.toNat A.tag A.uns (A.lanes.getD l 0) (B.lanes.getD l 0))
          let bits := maskOf ((List.range s.width).filter (fun l => (rs.getD l (false, 0)).1))
          let m := s.me.mask
          ((s.setP p.toNat ((s.preg p.toNat &&& ~~~m) ||| (bits &&& m))).raise
            (s.active.foldl (fun f l => f ||| (rs.getD l (false, 0)).2) 0)).retire)))

/-- `VSEL`: the selected active lanes are written (R190); no fault comes from an accumulator as destination (R203). -/
def execVsel (d a : VReg) (x : Rt) (p : PReg) (n : BitVec 1) (s : State) : Host.Outcome State Fault Refusal :=
  issue (.vsel d a x p n) s (fun s =>
    s.withSrc (s.vsingle 1 a x 1) (fun A =>
      let td := s.tagField d 2
      if td ≠ A.tag ∧ td ≠ 0 ∧ ¬ s.accDest d then s.take 0x10 (tagDetail 0 false td)
      else
        let m := if n = 1 then ~~~(s.preg p.toNat) else s.preg p.toNat
        (s.putIn (m &&& s.me.mask) d A.tag A.lanes false).retire))

/-- `VMOVI`: raw bits of the sign-extended immediate, or of the LIMM word (R191). -/
def execVmovi (d : VReg) (t : Tag) (i : BitVec 9) (s : State) : Host.Outcome State Fault Refusal :=
  issue (.vmovi d t i) s (fun s =>
    let w : Word := match s.me.hLimm with | some w => w | none => i.signExtend 32
    (s.putLanes d t (List.replicate s.width w.toNat) false).retire)

/-- A unary operation: accepted tags, SAT check, and a function of a lane. (Log 161 DESIGN CHOICE.) -/
def State.unary (s : State) (ok : Tag → Bool) (satchk : Bool) (d a : VReg) (x : Rt)
    (res : Tag → Tag) (f : Src → Nat → Nat × Fl) : State :=
  s.withSrc (s.vsrc 1 a x 1) (fun A =>
    if !ok A.tag then s.take 0x10 (tagDetail 1 false A.tag)
    else if satchk && s.satBad A.tag then s.take 1 0
    else s.vdone d (res A.tag) A.uns ((List.range s.width).map (fun l => f A (A.lanes.getD l 0))))

/-- `VMOV` (R192). -/
def execVmov (d a : VReg) (x : Rt) (s : State) : Host.Outcome State Fault Refusal :=
  issue (.vmov d a x) s (fun s => s.unary (fun _ => true) false d a x id (fun _ v => (v, 0)))

/-- `VNOT` (R192). -/
def execVnot (d a : VReg) (x : Rt) (s : State) : Host.Outcome State Fault Refusal :=
  issue (.vnot d a x) s (fun s =>
    s.unary (fun _ => true) false d a x id (fun A v => ((if A.tag = 0xE then 2 ^ 64 else 2 ^ 32) - 1 - v, 0)))

/-- Tags of FL, IN and P64. -/
def numTag (t : Tag) : Bool := (fmtOf t).isSome || isInt t || t == 0xE

/-- An operation on signs: of a float its sign only, of an integer `g` with wrap or SAT (R193); a U64 pair acts as an I64 pair and
is clamped to its own range (R177). (Log 37 DEDUCED.) -/
def signLane (t : Tag) (uns : Bool) (sat : Nat) (fneg : Bool → Bool) (g : Int → Int) (v : Nat) : Nat × Fl :=
  packElems t (fun i =>
    let e := elemOf t v i
    match fmtOf t with
    | some f =>
      (match FV.ofBits f e with
       | .nan sg => (f.nanCode, if sg then flNV else 0)
       | x => (e % 2 ^ (f.eb + f.mb) + f.signBit (fneg x.sign), 0))
    | none => encInt (widthOf t) (t == 2 || (t == 0xE && uns)) (sat == 1) (g (intOf (widthOf t) (t == 2) e)))

/-- `VABS` (R193). -/
def execVabs (d a : VReg) (x : Rt) (s : State) : Host.Outcome State Fault Refusal :=
  issue (.vabs d a x) s (fun s => s.unary numTag true d a x id (fun A v =>
    signLane A.tag A.uns s.satHint (fun _ => false) (fun n => n.natAbs) v))

/-- `VNEG` (R193). (Log 37 DEDUCED.) -/
def execVneg (d a : VReg) (x : Rt) (s : State) : Host.Outcome State Fault Refusal :=
  issue (.vneg d a x) s (fun s => s.unary numTag true d a x id (fun A v =>
    signLane A.tag A.uns s.satHint (fun n => !n) (fun n => -n) v))

/-- The class code of an element (R194). -/
def classCode (f : Fmt) (x : Nat) : Nat :=
  match FV.ofBits f x with
  | .nan sg => if sg then 8 else 9
  | .inf neg => if neg then 0 else 7
  | .fin neg m _ =>
    if m = 0 then (if neg then 3 else 4)
    else
      let sub := bitsN x f.mb f.eb == 0
      if neg then (if sub then 2 else 1) else (if sub then 5 else 6)

/-- `VCLASS` (R194). -/
def execVclass (d a : VReg) (x : Rt) (s : State) : Host.Outcome State Fault Refusal :=
  issue (.vclass d a x) s (fun s =>
    s.unary (fun t => decide (3 ≤ t.toNat) && decide (t.toNat ≤ 7)) false d a x (fun _ => 1) (fun A v =>
      match fmtOf A.tag with
      | some f => ((List.range (elemsOf A.tag)).foldl (fun n i => n + classCode f (elemOf A.tag v i) * 2 ^ (8 * i)) 0, 0)
      | none => (0, 0)))

/-- A bit count of each element (R195). -/
def State.bitCount (s : State) (f : Nat → Nat → Nat) (d a : VReg) (x : Rt) : State :=
  s.unary (fun t => isInt t || t == 0xE) false d a x id (fun A v =>
    packElems A.tag (fun i => (f (widthOf A.tag) (elemOf A.tag v i), 0)))

/-- `w` bits reversed. -/
def brevN (w x : Nat) : Nat := (List.range w).foldl (fun n i => if x.testBit i then n + 2 ^ (w - 1 - i) else n) 0

/-- `VCLZ` (R195). -/
def execVclz (d a : VReg) (x : Rt) (s : State) : Host.Outcome State Fault Refusal :=
  issue (.vclz d a x) s (fun s => s.bitCount clzN d a x)
/-- `VFFS` (R195). -/
def execVffs (d a : VReg) (x : Rt) (s : State) : Host.Outcome State Fault Refusal :=
  issue (.vffs d a x) s (fun s => s.bitCount ffsN d a x)
/-- `VPOPC` (R195). -/
def execVpopc (d a : VReg) (x : Rt) (s : State) : Host.Outcome State Fault Refusal :=
  issue (.vpopc d a x) s (fun s => s.bitCount popcN d a x)
/-- `VBREV` (R195). -/
def execVbrev (d a : VReg) (x : Rt) (s : State) : Host.Outcome State Fault Refusal :=
  issue (.vbrev d a x) s (fun s => s.bitCount brevN d a x)

/-- `VTAG`: the tag of VS1, INVALID included, as I32 (R192). -/
def execVtag (d a : VReg) (s : State) : Host.Outcome State Fault Refusal :=
  issue (.vtag d a) s (fun s => (s.putLanes d 1 (List.replicate s.width (s.tagField a 1).toNat) false).retire)

/-- `VLANEID` (R192). -/
def execVlaneid (d : VReg) (s : State) : Host.Outcome State Fault Refusal :=
  issue (.vlaneid d) s (fun s => (s.putLanes d 1 (List.range s.width) false).retire)

/-- A special function of F32, BF16x2 or F16x2 elements (R196). -/
def State.special (s : State) (g : SFn) (d a : VReg) (x : Rt) : State :=
  s.unary (fun t => t == 3 || t == 4 || t == 5) false d a x id (fun A v =>
    match fmtOf A.tag with
    | some f => packElems A.tag (fun i => g.eval f (s.satHint == 1) (elemOf A.tag v i))
    | none => (0, 0))

/-- `VEXP2` (R196). -/
def execVexp2 (d a : VReg) (x : Rt) (s : State) : Host.Outcome State Fault Refusal :=
  issue (.vexp2 d a x) s (fun s => s.special .exp2 d a x)
/-- `VLOG2` (R196). -/
def execVlog2 (d a : VReg) (x : Rt) (s : State) : Host.Outcome State Fault Refusal :=
  issue (.vlog2 d a x) s (fun s => s.special .log2 d a x)
/-- `VRCP` (R196). -/
def execVrcp (d a : VReg) (x : Rt) (s : State) : Host.Outcome State Fault Refusal :=
  issue (.vrcp d a x) s (fun s => s.special .rcp d a x)
/-- `VRSQ` (R196). -/
def execVrsq (d a : VReg) (x : Rt) (s : State) : Host.Outcome State Fault Refusal :=
  issue (.vrsq d a x) s (fun s => s.special .rsq d a x)
/-- `VSIN` (R196). -/
def execVsin (d a : VReg) (x : Rt) (s : State) : Host.Outcome State Fault Refusal :=
  issue (.vsin d a x) s (fun s => s.special .sin d a x)
/-- `VCOS` (R196). -/
def execVcos (d a : VReg) (x : Rt) (s : State) : Host.Outcome State Fault Refusal :=
  issue (.vcos d a x) s (fun s => s.special .cos d a x)

-- Conversions (R197-R199) ---------------------------------------------------------------------------------------------

/-- One element widened exactly to 32 bits; no flag is set (R197). -/
def unpkElem (t : Tag) (x : Nat) : Nat :=
  match elemVal t false x with
  | .f v => (encFV fmtF32 0 false v).1
  | .i n => wrapI 32 n

/-- `VUNPK` (R197). -/
def execVunpk (d a : VReg) (x : Rt) (e : BitVec 4) (s : State) : Host.Outcome State Fault Refusal :=
  issue (.vunpk d a x e) s (fun s =>
    s.unary (fun t => decide (4 ≤ t.toNat) && decide (t.toNat ≤ 13) && decide (e.toNat < elemsOf t)) false d a x
      (fun t => if t.toNat ≤ 10 then 3 else 1) (fun A v => (unpkElem A.tag (elemOf A.tag v e.toNat), 0)))

/-- `VCVT`: T = 0xE gives an I64 pair, T = 0xF a U64 pair; a float-to-integer conversion accepts SAT only at its default
(R65, R198). (Log 161 DESIGN CHOICE.) -/
def execVcvt (d a : VReg) (x : Rt) (t : Tag) (s : State) : Host.Outcome State Fault Refusal :=
  issue (.vcvt d a x t) s (fun s =>
    s.withSrc (s.vsrc 1 a x 1) (fun A =>
      let intT := isInt t || t == 0xE || t == 0xF
      if s.satBad t ∨ ((fmtOf A.tag).isSome ∧ intT ∧ s.satHint ≠ 0) then s.take 1 0
      else s.vdone d (if t = 0xF then 0xE else t) (t == 0xF)
        ((List.range s.width).map (fun l => cvtLane s.rm s.satHint A.tag A.uns t (A.lanes.getD l 0)))))

/-- `VRETAG`: the lane's bits unchanged under a new tag; an INVALID source is accepted (R199). -/
def execVretag (d a : VReg) (x : Rt) (t : Tag) (s : State) : Host.Outcome State Fault Refusal :=
  issue (.vretag d a x t) s (fun s =>
    if !s.tbit 1 && s.routePend a.toNat x then s.waitHere
    else (s.putLanes d t (s.routed (s.vfield a 1) x) true).retire)

-- Reductions and scans (R200, R201) -----------------------------------------------------------------------------------

/-- A partial result: an exact integer, or an F32 code, with its flags. -/
structure Red where
  i : Int
  x : Nat
  fl : Fl
deriving DecidableEq, Repr

/-- A lane as a partial result. -/
def Red.ofLane (t : Tag) (v : Nat) : Red :=
  match t == 3, FV.ofBits fmtF32 v with
  | true, .nan sig => { i := 0, x := fmtF32.nanCode, fl := (FV.nan sig).sigFl }
  | _, _ => { i := intOf 32 (t == 2) v, x := v, fl := 0 }

/-- comb of R200: 0 ADD, 1 MIN, 2 MAX, 3 AND, 4 OR, 5 XOR. -/
def Red.comb (o : Nat) (t : Tag) (rm sat : Nat) (a b : Red) : Red :=
  let fl := a.fl ||| b.fl
  if t = 3 then
    match o with
    | 0 =>
      let r := fvAdd rm (FV.ofBits fmtF32 a.x) (FV.ofBits fmtF32 b.x)
      let e := encFV fmtF32 rm (satOn fmtF32 sat) r.1
      { i := 0, x := e.1, fl := fl ||| r.2 ||| e.2 }
    | _ => let r := fvMinMax fmtF32 (o == 2) a.x b.x; { i := 0, x := r.1, fl := fl ||| r.2 }
  else
    let z : Int := match o with
      | 0 => a.i + b.i
      | 1 => if a.i < b.i then a.i else b.i
      | 2 => if a.i < b.i then b.i else a.i
      | 3 => intOf 32 (t == 2) (wrapI 32 a.i &&& wrapI 32 b.i)
      | 4 => intOf 32 (t == 2) (wrapI 32 a.i ||| wrapI 32 b.i)
      | _ => intOf 32 (t == 2) (wrapI 32 a.i ^^^ wrapI 32 b.i)
    { i := z, x := wrapI 32 z, fl := fl }

/-- The identities of R200. -/
def Red.ident (o : Nat) (t : Tag) : Red :=
  if t = 3 then { i := 0, x := match o with | 1 => fmtF32.infCode false | 2 => fmtF32.infCode true | _ => 0, fl := 0 }
  else
    let z : Int := match o with
      | 1 => intMax 32 (t == 2)
      | 2 => intMin 32 (t == 2)
      | 3 => intOf 32 (t == 2) (2 ^ 32 - 1)
      | _ => 0
    { i := z, x := wrapI 32 z, fl := 0 }

/-- s[SS] of a reduction or scan (R200). -/
def Red.scalar (t : Tag) (r : Red) : DWord := if t = 3 then BitVec.ofNat 64 r.x else BitVec.ofNat 64 (wrapI 64 r.i)

/-- One level of the tree. -/
def pairUp (f : Red → Red → Red) : List (Option Red) → List (Option Red)
  | a :: b :: t =>
    (match a, b with
     | some x, some y => some (f x y)
     | some x, none => some x
     | none, y => y) :: pairUp f t
  | l => l

/-- The fixed tree of R200: six levels reach a single value for at most 64 lanes. -/
def treeRed (f : Red → Red → Red) (l : List (Option Red)) : Nat → List (Option Red)
  | 0 => l
  | n + 1 => treeRed f (pairUp f l) n

/-- `VREDUCE` (R200). -/
def execVreduce (a : VReg) (x : Rt) (sd : SReg) (o : BitVec 3) (s : State) : Host.Outcome State Fault Refusal :=
  issue (.vreduce a x sd o) s (fun s =>
    s.withSrc (s.vsrc 1 a x 1) (fun A =>
      if !(A.tag == 1 || A.tag == 2 || (A.tag == 3 && decide (o.toNat < 3))) then s.take 0x10 (tagDetail 1 false A.tag)
      else
        let ls := (List.range s.width).map (fun l =>
          if s.me.mask.getLsbD l then some (Red.ofLane A.tag (A.lanes.getD l 0)) else none)
        let r := match treeRed (Red.comb o.toNat A.tag s.rm s.satHint) ls 6 with
          | some r :: _ => r
          | _ => Red.ident o.toNat A.tag
        ((s.setS sd.toNat (r.scalar A.tag)).raise r.fl).retire))

/-- What a lane of `VSCAN` receives: F32 bits, or the low 32 bits of the exact value, clamped under SAT (R201). -/
def scanOut (o : Nat) (t : Tag) (sat : Nat) (r : Red) : Nat × Fl :=
  if t = 3 ∨ 1 < o then (r.x, 0) else encInt 32 (t == 2) (sat == 1) r.i

/-- `VSCAN`: 0 ADD, 1 ADD exclusive, 2 MIN, 3 MAX, 4 OR (R201). -/
def execVscan (d a : VReg) (x : Rt) (sd : SReg) (o : BitVec 3) (s : State) : Host.Outcome State Fault Refusal :=
  issue (.vscan d a x sd o) s (fun s =>
    s.withSrc (s.vsrc 1 a x 1) (fun A =>
      if !(A.tag == 1 || A.tag == 2 || (A.tag == 3 && decide (o.toNat < 4))) then s.take 0x10 (tagDetail 1 false A.tag)
      else
        let op := match o.toNat with | 0 | 1 => 0 | 2 => 1 | 3 => 2 | _ => 4
        let r := s.active.foldl (fun (p : Red × List (Nat × Nat × Fl)) l =>
          let nx := Red.comb op A.tag s.rm s.satHint p.1 (Red.ofLane A.tag (A.lanes.getD l 0))
          (nx, p.2 ++ [(l, scanOut o.toNat A.tag s.satHint (if o = 1 then p.1 else nx))])) (Red.ident op A.tag, [])
        let outs := (List.range s.width).map (fun l => match r.2.find? (fun e => e.1 == l) with | some e => e.2 | none => (0, 0))
        ((s.setS sd.toNat (r.1.scalar A.tag)).raise r.1.fl).vdone d A.tag false outs))

-- Routes, pattern tables, votes ---------------------------------------------------------------------------------------

/-- `ROUTE` (R181). -/
def execRoute (q : Rt) (k : BitVec 3) (p : BitVec 6) (s : State) : Host.Outcome State Fault Refusal :=
  issue (.route q k p) s (fun s =>
    (s.setMe { s.me with q := Tbl.set s.me.q q.toNat { kind := k, param := p } }).retire)

/-- `ROUTE.S`: bits 5:0 of s[SS], for kind 4 bits 3:0 (R181). -/
def execRouteS (q : Rt) (k : BitVec 3) (sd : SReg) (s : State) : Host.Outcome State Fault Refusal :=
  issue (.routeS q k sd) s (fun s =>
    let p := (s.sreg sd.toNat).setWidth 6 &&& (if k = 4 then 0x0F else 0x3F)
    (s.setMe { s.me with q := Tbl.set s.me.q q.toNat { kind := k, param := p } }).retire)

/-- `PTLD`: entry l of the table takes bits 5:0 of lane l, active lanes (R182). -/
def execPtld (t : BitVec 4) (a : VReg) (x : Rt) (s : State) : Host.Outcome State Fault Refusal :=
  issue (.ptld t a x) s (fun s =>
    s.withSrc (s.vsrc 1 a x 1) (fun A =>
      if A.tag ≠ 1 ∧ A.tag ≠ 2 then s.take 0x10 (tagDetail 1 false A.tag)
      else (s.active.foldl (fun (u : State) l =>
        u.setPtByte u.actor.wg (64 * t.toNat + l) (BitVec.ofNat 8 (A.lanes.getD l 0 % 64))) s).retire))

/-- `VBALLOT` (R202). -/
def execVballot (sd : SReg) (p : PReg) (s : State) : Host.Outcome State Fault Refusal :=
  issue (.vballot sd p) s (fun s => s.setSRetire sd (s.preg p.toNat &&& s.me.mask))

/-- A vote: r into s[SD] and into bit l of p[PD] for every active lane (R202). -/
def State.vote (s : State) (sd : SReg) (d p : PReg) (f : DWord → DWord → Bool) : State :=
  let m := s.me.mask
  let r := f (s.preg p.toNat &&& m) m
  ((s.setS sd.toNat (bit64 r)).setP d.toNat ((s.preg d.toNat &&& ~~~m) ||| (if r then m else 0))).retire

/-- `VVOTE.ANY` (R202). -/
def execVvoteAny (sd : SReg) (d p : PReg) (s : State) : Host.Outcome State Fault Refusal :=
  issue (.vvoteAny sd d p) s (fun s => s.vote sd d p (fun a _ => a != 0))
/-- `VVOTE.ALL` (R202). -/
def execVvoteAll (sd : SReg) (d p : PReg) (s : State) : Host.Outcome State Fault Refusal :=
  issue (.vvoteAll sd d p) s (fun s => s.vote sd d p (fun a m => a == m))
/-- `VVOTE.EQ` (R202). -/
def execVvoteEq (sd : SReg) (d p : PReg) (s : State) : Host.Outcome State Fault Refusal :=
  issue (.vvoteEq sd d p) s (fun s => s.vote sd d p (fun a m => a == 0 || a == m))

end Sys2Proof.Machine
end

