-- ==== Sys2Proof/Machine/Handler.lean ====
section
/-!
DEFINITION. Custom atomic handlers: which code the service fibre accepts, and how it runs a handler on a sector (R258, R260,
R262). The service fibre runs the shared meanings of the permitted instructions on a state of its own.
-/
namespace Sys2Proof.Machine

/-- Is an instruction permitted in a handler (R260)? -/
def handlerMay : Instr → Bool
  | .route _ k _ | .routeS _ k _ => k != 4
  | .bra .. | .braZ .. | .braNz .. | .braLt .. | .braGe .. | .braAll .. | .braAny .. | .fend | .pand .. | .por .. | .pxor .. | .pnot .. => true
  | .pmov .. | .pmovFs .. | .pmovTs .. | .nop | .vadd .. | .vsub .. | .vmul .. | .vmulh .. | .vfma .. | .vfms .. | .vmadi .. | .vmin .. => true
  | .vmax .. | .vand .. | .vor .. | .vxor .. | .vshl .. | .vshr .. | .vsra .. | .vscale .. | .vdot4 .. | .vpack .. | .vperm .. | .vcmp .. => true
  | .vsel .. | .vmovi .. | .vmov .. | .vabs .. | .vneg .. | .vnot .. | .vclass .. | .vclz .. | .vffs .. | .vpopc .. | .vbrev .. | .vtag .. => true
  | .vlaneid .. | .vexp2 .. | .vlog2 .. | .vrcp .. | .vrsq .. | .vsin .. | .vcos .. | .vunpk .. | .vcvt .. | .vretag .. | .vreduce .. | .vscan .. => true
  | .vballot .. | .vvoteAny .. | .vvoteAll .. | .vvoteEq .. | .sadd .. | .ssub .. | .smul .. | .smulh .. | .smulhU .. | .sdiv .. => true
  | .sdivU .. | .srem .. | .sremU .. | .sand .. | .sor .. | .sxor .. | .sshl .. | .sshr .. | .ssra .. | .smin .. | .sminU .. | .smax .. => true
  | .smaxU .. | .smov .. | .sclz .. | .sffs .. | .spopc .. | .ssel .. | .scmp .. | .saddImm .. | .sandImm .. | .sorImm .. | .sxorImm .. | .sshlImm .. => true
  | .sshrImm .. | .ssraImm .. | .sli .. | .sliHi .. | .smadd .. | .sbfx .. | .sbfi .. | .mod .. => true
  | .limm _ => true
  | _ => false

/-- Runs one permitted instruction of a handler; another is illegal. -/
def handlerExec (i : Instr) (st : State) : Host.Outcome State Fault Refusal :=
  match i with
  | .bra o => execBra o st
  | .braZ s o => execBraZ s o st
  | .braNz s o => execBraNz s o st
  | .braLt s o => execBraLt s o st
  | .braGe s o => execBraGe s o st
  | .braAll p o => execBraAll p o st
  | .braAny p o => execBraAny p o st
  | .fend => execFend st
  | .pand d a b => execPand d a b st
  | .por d a b => execPor d a b st
  | .pxor d a b => execPxor d a b st
  | .pnot d a => execPnot d a st
  | .pmov d a => execPmov d a st
  | .pmovFs d s => execPmovFs d s st
  | .pmovTs a s => execPmovTs a s st
  | .nop => execNop st
  | .vadd d a x b y => execVadd d a x b y st
  | .vsub d a x b y => execVsub d a x b y st
  | .vmul d a x b y => execVmul d a x b y st
  | .vmulh d a x b y => execVmulh d a x b y st
  | .vfma d a x b y => execVfma d a x b y st
  | .vfms d a x b y => execVfms d a x b y st
  | .vmadi d a x b y => execVmadi d a x b y st
  | .vmin d a x b y => execVmin d a x b y st
  | .vmax d a x b y => execVmax d a x b y st
  | .vand d a x b y => execVand d a x b y st
  | .vor d a x b y => execVor d a x b y st
  | .vxor d a x b y => execVxor d a x b y st
  | .vshl d a x b y => execVshl d a x b y st
  | .vshr d a x b y => execVshr d a x b y st
  | .vsra d a x b y => execVsra d a x b y st
  | .vscale d a x b y => execVscale d a x b y st
  | .vdot4 d a x b y => execVdot4 d a x b y st
  | .vpack d a x b y => execVpack d a x b y st
  | .vperm d a x b y => execVperm d a x b y st
  | .vcmp p c a x b y => execVcmp p c a x b y st
  | .vsel d a x p n => execVsel d a x p n st
  | .vmovi d t i => execVmovi d t i st
  | .vmov d a x => execVmov d a x st
  | .vabs d a x => execVabs d a x st
  | .vneg d a x => execVneg d a x st
  | .vnot d a x => execVnot d a x st
  | .vclass d a x => execVclass d a x st
  | .vclz d a x => execVclz d a x st
  | .vffs d a x => execVffs d a x st
  | .vpopc d a x => execVpopc d a x st
  | .vbrev d a x => execVbrev d a x st
  | .vtag d a => execVtag d a st
  | .vlaneid d => execVlaneid d st
  | .vexp2 d a x => execVexp2 d a x st
  | .vlog2 d a x => execVlog2 d a x st
  | .vrcp d a x => execVrcp d a x st
  | .vrsq d a x => execVrsq d a x st
  | .vsin d a x => execVsin d a x st
  | .vcos d a x => execVcos d a x st
  | .vunpk d a x e => execVunpk d a x e st
  | .vcvt d a x t => execVcvt d a x t st
  | .vretag d a x t => execVretag d a x t st
  | .vreduce a x s o => execVreduce a x s o st
  | .vscan d a x s o => execVscan d a x s o st
  | .route q k p => execRoute q k p st
  | .routeS q k s => execRouteS q k s st
  | .vballot s p => execVballot s p st
  | .vvoteAny s d p => execVvoteAny s d p st
  | .vvoteAll s d p => execVvoteAll s d p st
  | .vvoteEq s d p => execVvoteEq s d p st
  | .sadd d a b => execSadd d a b st
  | .ssub d a b => execSsub d a b st
  | .smul d a b => execSmul d a b st
  | .smulh d a b => execSmulh d a b st
  | .smulhU d a b => execSmulhU d a b st
  | .sdiv d a b => execSdiv d a b st
  | .sdivU d a b => execSdivU d a b st
  | .srem d a b => execSrem d a b st
  | .sremU d a b => execSremU d a b st
  | .sand d a b => execSand d a b st
  | .sor d a b => execSor d a b st
  | .sxor d a b => execSxor d a b st
  | .sshl d a b => execSshl d a b st
  | .sshr d a b => execSshr d a b st
  | .ssra d a b => execSsra d a b st
  | .smin d a b => execSmin d a b st
  | .sminU d a b => execSminU d a b st
  | .smax d a b => execSmax d a b st
  | .smaxU d a b => execSmaxU d a b st
  | .smov d b => execSmov d b st
  | .sclz d a => execSclz d a st
  | .sffs d a => execSffs d a st
  | .spopc d a => execSpopc d a st
  | .ssel d a b => execSsel d a b st
  | .scmp d a b r => execScmp d a b r st
  | .saddImm d a i => execSaddImm d a i st
  | .sandImm d a i => execSandImm d a i st
  | .sorImm d a i => execSorImm d a i st
  | .sxorImm d a i => execSxorImm d a i st
  | .sshlImm d a n => execSshlImm d a n st
  | .sshrImm d a n => execSshrImm d a n st
  | .ssraImm d a n => execSsraImm d a n st
  | .sli d i => execSli d i st
  | .sliHi d => execSliHi d st
  | .smadd d a b c => execSmadd d a b c st
  | .sbfx d a p l x => execSbfx d a p l x st
  | .sbfi d a p l => execSbfi d a p l st
  | .mod m s c o l t => execMod m s c o l t st
  | .limm imm => execLimm imm st
  | _ => .next (st.take 1 0)

-- Checking the code (R260) ----------------------------------------------------------------------------------------------

/-- What a word of a handler is. -/
inductive HWord where
  | header | ext | instr (i : Instr) | data | bad
deriving DecidableEq, Repr

/-- What the words of a handler are: `prev` says that the word before was a header whose count asks for an extension word, `imm`
that it was a `LIMM`. -/
def hWords (prev imm : Bool) : List Word → List HWord
  | [] => []
  | w :: t =>
    if imm then .data :: hWords false false t
    else if majorW w = 0x7F then .header :: hWords (bitsN w.toNat 1 4 == 15) false t
    else if prev && majorW w == 0x7C && bitsN w.toNat 23 2 == 1 then .ext :: hWords false false t
    else if isLimmWord w && bitsN w.toNat 0 25 == 0 then
      .instr (.limm (t.headD 0)) :: hWords false true t
    else match decodeWord w.toNat with
      | .ok i => (if handlerMay i then .instr i else .bad) :: hWords false false t
      | .error _ => .bad :: hWords false false t

/-- Is the word at `i` an extension word that its header asks for but that breaks R39? -/
def hBadExt (ws : List Word) (i : Nat) : Bool :=
  match ws[i]?, ws[i + 1]? with
  | some h, some e =>
    majorW h == 0x7F && bitsN h.toNat 1 4 == 15 && majorW e == 0x7C && bitsN e.toNat 23 2 == 1 &&
      (bitsN e.toNat 5 18 != 0 || !(decide (17 ≤ bitsN e.toNat 0 5 + 1) && decide (bitsN e.toNat 0 5 + 1 ≤ 24)))
  | _, _ => false

/-- The clause that begins at word `i` of the code, if it has a header, a length R38 allows and words enough (R38, R39). -/
def hClause (ws : List Word) (i : Nat) : Option Clause :=
  match ws[i]? with
  | none => none
  | some h =>
    if majorW h ≠ 0x7F then none
    else
      let cnt := bitsN h.toNat 1 4
      let x := if cnt = 15 then (ws[i + 1]?).filter (fun e => majorW e == 0x7C && bitsN e.toNat 23 2 == 1) else none
      let len := match x with | some e => bitsN e.toNat 0 5 + 1 | none => cnt + 1
      let lead := match x with | some _ => 2 | none => 1
      let body := (ws.drop (i + lead)).take len
      if (match x with | some e => !(decide (17 ≤ len) && decide (len ≤ 24)) || bitsN e.toNat 5 18 != 0 | none => false) then none
      else if body.length < len then none
      else some { addr := BitVec.ofNat 64 (4 * i), header := h, ext := x, words := body }

/-- The header fields that a handler may use: no wait, no flags, no switch point (R260). -/
def hHeaderOk (h : Word) : Bool :=
  bitsN h.toNat 13 12 == 0 && bitsN h.toNat 9 4 == 15 && bitsN h.toNat 5 4 == 15 && !h.getLsbD 0

/-- Walks the clauses of the code from a word: the first that breaks R40 or the rules of a handler's header, by the offset of
its offending word, and the headers passed. -/
def hClauses (ws : List Word) : Nat → Nat → List Nat → Except Nat (List Nat)
  | 0, _, hs => .ok hs
  | fuel + 1, i, hs =>
    if ws.length ≤ i then .ok hs
    else match hClause ws i with
      | none => .error (if hBadExt ws i then i + 1 else i)
      | some c =>
        if !hHeaderOk c.header then .error i
        else match badWord false 0 c.words with
          | some k => .error (i + c.lead + k)
          | none => hClauses ws fuel (i + c.lead + c.words.length) (hs ++ [i])

/-- The word offset of a branch of a handler, none for another instruction. -/
def braOffset : Instr → Option (BitVec 16)
  | .bra o | .braZ _ o | .braNz _ o | .braLt _ o | .braGe _ o | .braAll _ o | .braAny _ o => some o
  | _ => none

/-- The first branch whose target is no later header; `imm` is the immediate of a `LIMM` before it (R43, R260). -/
def hBadBranch (hs : List Nat) : Nat → Option Word → List HWord → Option Nat
  | _, _, [] => none
  | i, imm, .instr (.limm w) :: t => hBadBranch hs (i + 1) (some w) t
  | i, imm, .data :: t => hBadBranch hs (i + 1) imm t
  | i, imm, .instr x :: t =>
    match braOffset x with
    | some o =>
      let target := (i : Int) + (match imm with | some w => w.toInt | none => o.toInt)
      if hs.any (fun h => decide ((h : Int) = target) && decide (i < h)) then hBadBranch hs (i + 1) none t else some i
    | none => hBadBranch hs (i + 1) none t
  | i, _, _ :: t => hBadBranch hs (i + 1) none t

/-- The reason and word offset for which the code of a handler is refused, before the store's own (R260). (Log 50 DEDUCED.) -/
def handlerBad (ws : List Word) : Option (Nat × Nat) :=
  let ks := hWords false false ws
  match ks.findIdx? (· == .bad) with
  | some i => some (2, i)
  | none =>
    match hClauses ws 64 0 [] with
    | .error i => some (3, i)
    | .ok hs =>
      match hBadBranch hs 0 none ks with
      | some i => some (4, i)
      | none => if ks.getLast? = some (.instr .fend) then none else some (5, ws.length - 1)

-- Running (R258, R262) --------------------------------------------------------------------------------------------------

/-- The service fibre's record in the state a handler runs on. -/
def hFib : FRef := { wg := 0, slot := 0, idx := 0 }

/-- The state a handler starts on: 16 lanes, 32 registers per lane, the sector in `v0`, argument, address and device (R258). -/
def hState (freeCtr : Nat) (sector : List Byte) (arg addr dev : DWord) : State :=
  let f : Fibre := { Fibre.absent with
    st := .blocked, blk := .header, fid := 1, mask := fullMask 16, s := [(0, arg), (1, addr &&& 31), (2, dev)] }
  let v0 : VVal := { tag := 2, lanes := (List.range 8).map (fun i => BitVec.ofNat 32 (leNat ((sector.drop (4 * i)).take 4))) }
  let s0 : State := { State.reset with
    freeCtr := freeCtr, ctl := { Ctl.reset with phase := .ready }, actor := hFib,
    wgs := [(0, { Wg.unplaced with live := true, nslots := 1, warp := 16, regs := 32 })],
    slots := [((0, 0), { Slot.empty with v := [(0, v0)] })] }
  s0.setFib hFib f

/-- Runs a handler: loads the clause it stands at, or issues its next word, until it ends or faults. -/
def hRun (ws : List Word) : Nat → State → State
  | 0, s => s
  | fuel + 1, s =>
    let f := s.fib hFib
    match f.st with
    | .blocked =>
      if f.blk ≠ .header then s
      else (match hClause ws (f.pc.toNat / 4) with
        | some c => hRun ws fuel (s.setFib hFib { f with clause := some c, st := .ready, blk := .none, inside := true })
        | none => s.freeze hFib (faultAt f.pc 0x02 0 0 0 none))
    | .ready =>
      let i := f.clause.bind (fun c => c.instrAt f.idx)
      (match i with
       | some x => (match handlerExec x s with
         | .next t => hRun ws fuel t
         | _ => s.take 1 0)
       | none => hRun ws fuel (s.take 1 0))
    | _ => s

/-- What a handler leaves: the new sector if it writes one, and the result; or the cause of its fault (R258, R262). INVALID in `v0`
at its end is a tag mismatch. -/
inductive HEnd where
  | done (sector : Option (List Byte)) (result : DWord) (freeCtr : Nat)
  | fault (cause : BitVec 8) (freeCtr : Nat)
deriving DecidableEq, Repr

/-- Runs the code of a handler on a sector (R258). (Log 49 DEDUCED.) -/
def runHandler (freeCtr : Nat) (code : List Word) (sector : List Byte) (arg addr dev : DWord) : HEnd :=
  let t := hRun code 256 (hState freeCtr sector arg addr dev)
  let f := t.fib hFib
  let v0 := t.vreg 0 0 0
  if f.st = .blocked ∧ f.blk = .ending then
    if v0.tag = 0 then .fault 0x10 t.freeCtr
    else
      let bytes := (List.range 8).flatMap (fun l => leBytes (v0.lane l).toNat 4)
      .done (if (Tbl.get f.s 3 0).getLsbD 0 then some bytes else none) (Tbl.get f.s 4 0) t.freeCtr
  else .fault (match f.fault with | some r => r.cause | none => 1) t.freeCtr

end Sys2Proof.Machine
end

