-- ==== Sys2Proof/Machine/SplitForm.lean ====
section
/-!
DEFINITION. Shape records and their checks (R267-R269), split tile segments and their checks (R70-R73), the encoder (R74), the
elements of dense and split operands (R69, R268), and the arithmetic of a matrix step (R75).
-/
namespace Sys2Proof.Machine

-- Shape records (R267, R268) ------------------------------------------------------------------------------------------

/-- A shape record from its 192 bytes (R267). -/
def recOf (addr : DWord) (bs : List Byte) : ShapeRec :=
  let f := fun o n => leNat ((bs.drop o).take n)
  let w := f 0x30 4
  let c := f 0x40 8
  { addr := addr, base := BitVec.ofNat 64 (f 0 8), dim0 := f 8 4, dim1 := f 0xC 4, dim2 := f 0x10 4, dim3 := f 0x14 4,
    stride1 := f 0x18 8, stride2 := f 0x20 8, stride3 := f 0x28 8, fmt := bitsN w 0 4, mode := bitsN w 4 1 = 1,
    guard := bitsN w 5 1 = 1, version := bitsN w 8 12, theta := BitVec.ofNat 32 (f 0x34 4),
    scalebase := BitVec.ofNat 64 (f 0x38 8), cache := bitsN c 0 3, ahead := bitsN c 3 4,
    rsv := bitsN w 6 2 != 0 || bitsN w 20 12 != 0 || c / 128 != 0 || (bs.drop 0x48).any (· != 0) ||
      decide (9 ≤ bitsN w 0 4) || decide (9 ≤ bitsN c 3 4) || decide (5 ≤ bitsN c 0 3) }

/-- A record of zeros. -/
def ShapeRec.zero : ShapeRec := recOf 0 []

/-- K per step of a format (R268); 0 for a format without steps. -/
def kStep (fmt : Nat) : Nat := match fmt with | 1 => 192 | 2 | 3 => 384 | 4 => 1024 | 5 => 768 | 6 | 7 => 512 | _ => 0

/-- Is the format split? -/
def isSplit (fmt : Nat) : Bool := fmt == 4 || fmt == 5

/-- Bytes of a dense element of F32, BF16, FP8 or bytes. -/
def elemBytes (fmt : Nat) : Nat := match fmt with | 0 => 4 | 1 => 2 | _ => 1

/-- Size of a segment (R70). -/
def segSize (fmt : Nat) : Nat := if fmt = 4 then 28800 else 28288

/-- Bytes of a row of `n` elements of an operand. -/
def rowBytes (fmt n : Nat) : Nat := match fmt with | 0 => 4 * n | 1 => 2 * n | 6 | 7 => n / 32 * 24 | _ => n

/-- The roles in which a record is used (R269). -/
inductive Role where
  | operand | epiDense | epiSplit | encSource | segment | decDest
deriving DecidableEq, Repr

/-- May the role use the format? -/
def Role.takes (r : Role) (fmt : Nat) : Bool :=
  match r with
  | .operand => 1 ≤ fmt && fmt ≤ 7
  | .epiDense => decide (fmt ≤ 3)
  | .epiSplit | .segment => isSplit fmt
  | .encSource => fmt == 0
  | .decDest => decide (fmt ≤ 1)

/-- The reason by which a record fails in a role, the lowest that holds; `ks` is the K per step that bounds DIM0 (R269).
(Log 64 DEDUCED.) -/
def checkRole (r : Role) (x : ShapeRec) (ks : Nat) : Option Nat :=
  let sz := elemBytes x.fmt
  let align := match r with
    | .operand => if isSplit x.fmt then 128 else 16
    | .epiDense => 16 | .epiSplit | .segment => 128 | .encSource => 4 | .decDest => sz
  let smult := match r with
    | .operand => if isSplit x.fmt then 128 else 16
    | .epiDense => 16 | .encSource => 4 | .decDest => sz | _ => 1
  let smin := match r with
    | .operand => if isSplit x.fmt then segSize x.fmt else rowBytes x.fmt x.dim0
    | .epiDense | .encSource | .decDest => x.dim0 * sz | _ => 0
  let dims := match r with
    | .operand => x.dim0 % 32 == 0 && decide (32 ≤ x.dim0) && decide (x.dim0 ≤ 65536)
    | .epiDense => decide (1 ≤ x.dim0) && decide (x.dim0 ≤ 64)
    | .segment => true
    | _ => decide (1 ≤ x.dim0) && decide (x.dim0 ≤ ks)
  let mask := (r == .encSource || r == .decDest)
  let scaled := (r == .operand && (x.fmt == 2 || x.fmt == 3 || x.fmt == 6 || x.fmt == 7)) || mask
  if x.rsv then some 1
  else if !r.takes x.fmt then some 2
  else if x.base.toNat % align ≠ 0 ∨ x.stride1 % smult ≠ 0 then some 3
  else if !dims || (r != .segment && !(decide (1 ≤ x.dim1) && decide (x.dim1 ≤ 64))) || decide (1 < x.dim2) ||
      decide (1 < x.dim3) then some 4
  else if !scaled && x.scalebase != 0 then some 9
  else if x.stride1 < smin ∨ (mask && x.scalebase != 0 && decide (x.stride2 < (x.dim0 + 7) / 8)) then some 10
  else none

/-- May THETA be used: +0, positive or +∞ (R74)? -/
def thetaOk (t : Word) : Bool := decide (t.toNat ≤ 0x7F800000)

-- Segments (R70-R73) --------------------------------------------------------------------------------------------------

/-- Little-endian value of `n` bytes of an array. -/
def arrNat (b : Array Byte) (off n : Nat) : Nat := leNat ((List.range n).map (fun i => b.getD (off + i) 0))

/-- Width of a body code: B3 or B4. -/
def codeWidth (fmt : Nat) : Nat := if fmt = 4 then 3 else 4

/-- Body code of element (r, k) (R69, R70). -/
def segCode (b : Array Byte) (fmt r k : Nat) : Nat :=
  let w := codeWidth fmt
  let bit := w * (k % 32)
  bitsN (arrNat b (0x80 + 384 * r + k / 32 * (4 * w) + bit / 8) 2) (bit % 8) w

/-- Scale byte of block `j` of row `r` (R70). -/
def segScale (b : Array Byte) (fmt r j : Nat) : Nat := arrNat b (0x6080 + (if fmt = 4 then 32 else 24) * r + j) 1

/-- Offset of the pool (R70). -/
def poolOff (fmt : Nat) : Nat := if fmt = 4 then 0x6880 else 0x6680

/-- Pool entry `n` (R72). -/
def segPool (b : Array Byte) (fmt n : Nat) : Nat := arrNat b (poolOff fmt + 4 * n) 4

/-- COUNT of a header (R71). -/
def segCount (b : Array Byte) : Nat := bitsN (arrNat b 4 4) 12 10

/-- How a segment fails: a check of R73 by its number, or a guard failure with its reason, block offset and tag. -/
inductive SegBad where
  | form (n : Nat)
  | guard (reason off : Nat) (tag : DWord)
deriving DecidableEq, Repr

/-- The checks of R73 in their order; `tags` is the first guard tag failure where the consumer checks tags. -/
def segCheck (b : Array Byte) (fmt : Nat) (tags : Option SegBad) : Option SegBad :=
  let w := arrNat b 4 4
  let n := segCount b
  let key := fun (i : Nat) => segPool b fmt i % 65536
  let rows := (List.range n).foldl (fun (m : Nat) i => m ||| 2 ^ (key i / 1024)) 0
  let theta := arrNat b 8 4
  if arrNat b 0 4 ≠ 0x3A7E5E61 ∨ bitsN w 22 2 ≠ fmt - 4 ∨ w / 2 ^ 28 ≠ 0 ∨
     (List.range 40).any (fun i => b.getD (0x18 + i) 0 != 0) then some (.form 1)
  else match tags with
    | some e => some e
    | none =>
      if bitsN w 27 1 = 1 ∧ (crc32c ((b.toList.drop 0x80).take (segSize fmt - 0x80))).toNat ≠ arrNat b 12 4 then
        some (.guard 5 0 0)
      else if 512 < n then some (.form 2)
      else if (List.range n).any (fun i => decide (kStep fmt ≤ key i % 1024) || (decide (0 < i) && decide (key i ≤ key (i - 1)))) then
        some (.form 3)
      else if rows ≠ arrNat b 0x10 8 then some (.form 4)
      else if 0x7F800000 < theta then some (.form 5)
      else if (List.range n).any (fun i => segCode b fmt (key i / 1024) (key i % 1024) != 0) then some (.form 6)
      else none

-- Elements of an operand (R69, R75) -------------------------------------------------------------------------------------

/-- An element of an operand row: masked, an outlier's BF16 bits, its unscaled value, its block's scale byte. -/
structure El where
  masked : Bool
  out : Option Nat
  v : FV
  scale : Nat
deriving DecidableEq, Repr

/-- A masked element. -/
def El.none : El := { masked := true, out := .none, v := .fin false 0 0, scale := 0x7F }

/-- The format of an operand's elements, for those with a float format. -/
def operandFmt (fmt : Nat) : Fmt :=
  match fmt with | 0 => fmtF32 | 1 => fmtBF16 | 2 => fmtE4M3 | 3 => fmtE5M2 | 6 => fmtE2M3 | 7 => fmtE3M2 | _ => fmtE2M1

/-- Unit exponent of R69. -/
def unitExp (fmt : Nat) : Int := match fmt with | 5 => -1 | 6 => -3 | 7 => -4 | 2 => -9 | 3 => -16 | _ => 0

/-- Value of a body code of a split format. -/
def codeVal (fmt c : Nat) : FV :=
  if fmt = 4 then .fin (decide (4 ≤ c)) (c % 4) 0 else FV.ofBits fmtE2M1 c

/-- Rows of a split segment as elements; positions from `kEnd` on are masked (R286). -/
def segRows (b : Array Byte) (fmt m kEnd : Nat) : Array (Array El) :=
  let n := segCount b
  let outs : Array (Option Nat) := (List.range n).foldl (fun (a : Array (Option Nat)) i =>
    let e := segPool b fmt i
    a.setIfInBounds (bitsN e 10 6 * 1024 + bitsN e 0 10) (some (e / 65536))) (Array.replicate 65536 .none)
  ((List.range m).map (fun r => ((List.range (kStep fmt)).map (fun k =>
    if kEnd ≤ k then El.none
    else
      let c := segCode b fmt r k
      match outs.getD (r * 1024 + k) .none with
      | some v => { masked := false, out := some v, v := codeVal fmt c, scale := segScale b fmt r (k / 32) }
      | .none => { masked := c == 2 ^ (codeWidth fmt - 1), out := .none, v := codeVal fmt c, scale := segScale b fmt r (k / 32) })).toArray)).toArray

/-- One row of a dense operand's step as elements, from the bytes of its elements and of its scales; `n` elements hold data. -/
def denseRow (fmt n : Nat) (data scales : Array Byte) : Array El :=
  ((List.range (kStep fmt)).map (fun k =>
    if n ≤ k then El.none
    else
      let x := if fmt = 1 then arrNat data (2 * k) 2
        else if fmt = 6 ∨ fmt = 7 then bitsN (arrNat data (k / 32 * 24 + 6 * (k % 32) / 8) 2) (6 * (k % 32) % 8) 6
        else arrNat data k 1
      let sc := if fmt = 1 ∨ scales.isEmpty then 0x7F else (scales.getD (k / 32) 0).toNat
      { masked := false, out := .none, v := FV.ofBits (operandFmt fmt) x, scale := sc })).toArray

-- A matrix step (R75) -------------------------------------------------------------------------------------------------

/-- The flags a matrix step may set. -/
def stepFl (f : Fl) : Fl := f &&& (flNV ||| flOF ||| flUF)

/-- The sum of a block's products: NaN and infinities met, flags, the integer dot. -/
structure Dot where
  nan : Bool
  pinf : Bool
  ninf : Bool
  fl : Fl
  dot : Int
deriving DecidableEq, Repr

/-- Integer value of a finite element in units of `2 ^ u`. -/
def cInt (v : FV) (u : Int) : Int :=
  match v with
  | .fin neg m e => sgnm neg (if u ≤ e then m * 2 ^ (e - u).toNat else m / 2 ^ (u - e).toNat)
  | _ => 0

/-- Adds one product of two body elements, neither masked nor an outlier. (Log 41 DEDUCED.) -/
def Dot.add (d : Dot) (ua ub : Int) (a b : El) : Dot :=
  if a.masked || b.masked || a.out.isSome || b.out.isSome then d
  else
    match fvMul a.v b.v with
    | (.nan _, f) => { d with nan := true, fl := d.fl ||| f }
    | (.inf neg, f) => { d with pinf := d.pinf || !neg, ninf := d.ninf || neg, fl := d.fl ||| f }
    | _ => { d with dot := d.dot + cInt a.v ua * cInt b.v ub }

/-- The exact sum of block products, cut toward zero below `2 ^ (Emax - 60)`, rounded once (R75, step 1). (Log 41 DEDUCED.) -/
def sumBlocks (ps : List (Int × Int)) : Nat × Fl :=
  let qs := ps.filter (fun p => p.1 != 0)
  match qs with
  | [] => (0, 0)
  | q :: t =>
    let hi := t.foldl (fun (e : Int) p => max e p.2) q.2
    let lo := t.foldl (fun (e : Int) p => min e p.2) q.2
    let sum := qs.foldl (fun (x : Int) p => x + p.1 * 2 ^ (p.2 - lo).toNat) 0
    let cut := hi - 60
    let m := sum.natAbs
    let r := if lo < cut then (m / 2 ^ (cut - lo).toNat, cut) else (m, lo)
    encFin fmtF32 0 false (decide (sum < 0)) r.1 r.2

/-- The dense partial D of two rows (R75, step 1). (Log 168 DESIGN CHOICE.) -/
def densePartial (fmtA fmtB ks : Nat) (a b : Array El) : Nat × Fl :=
  let ua := if fmtA = 1 then -133 else unitExp fmtA
  let ub := if fmtB = 1 then -133 else unitExp fmtB
  let get := fun (x : Array El) (k : Nat) => x.getD k El.none
  let blocks := (List.range (ks / 32)).map (fun j =>
    let d := (List.range 32).foldl (fun (d : Dot) i => d.add ua ub (get a (32 * j + i)) (get b (32 * j + i)))
      { nan := false, pinf := false, ninf := false, fl := 0, dot := 0 }
    let nanScale := fun (x : Array El) => (get x (32 * j)).scale == 0xFF &&
      (List.range 32).any (fun i => !(get x (32 * j + i)).masked)
    let sa := (get a (32 * j)).scale
    let sb := (get b (32 * j)).scale
    (d, nanScale a || nanScale b, sa == 0xFF || sb == 0xFF, (sa : Int) - 127 + (sb - 127) + ua + ub))
  let fl := blocks.foldl (fun (f : Fl) x => if x.2.2.1 then f else f ||| x.1.fl) 0
  let live := blocks.filter (fun x => !x.2.2.1)
  if blocks.any (fun x => x.2.1) || live.any (fun x => x.1.nan) then (fmtF32.nanCode, fl)
  else
    let p := live.any (fun x => x.1.pinf)
    let n := live.any (fun x => x.1.ninf)
    if p && n then (fmtF32.nanCode, fl ||| flNV)
    else if p || n then (fmtF32.infCode n, fl)
    else if fmtA = 1 ∨ fmtB = 1 then
      let sum := live.foldl (fun (x : Int) d => x + d.1.dot) 0
      let r := encFin fmtF32 0 false (decide (sum < 0)) sum.natAbs (ua + ub)
      if sum = 0 then (0, fl) else (r.1, fl ||| r.2)
    else
      let r := sumBlocks (live.map (fun x => (x.1.dot, x.2.2.2)))
      (r.1, fl ||| r.2)

/-- The value of a body factor in an outlier product. -/
def El.body (e : El) : FV :=
  if e.scale = 0xFF then .nan false
  else match e.v with
    | .fin neg m x => .fin neg m (x + e.scale - 127)
    | x => x

/-- One addition of the outlier sum: the product and the sum rounded to F32. -/
def outTerm (o : Nat × Fl) (x y : FV) : Nat × Fl :=
  let p := fvMul x y
  let pe := encFV fmtF32 0 false p.1
  let r := fvAdd 0 (FV.ofBits fmtF32 o.1) (FV.ofBits fmtF32 pe.1)
  let re := encFV fmtF32 0 false r.1
  (re.1, o.2 ||| p.2 ||| pe.2 ||| r.2 ||| re.2)

/-- The outlier sum O of two rows, in ascending k (R75, step 2). -/
def outlierSum (ks : Nat) (a b : Array El) : Nat × Fl :=
  (List.range ks).foldl (fun (o : Nat × Fl) k =>
    let x := a.getD k El.none
    let y := b.getD k El.none
    let bf := fun (v : Nat) => FV.ofBits fmtBF16 v
    match x.out, y.out with
    | some u, some v => outTerm o (bf u) (bf v)
    | some u, .none => if y.masked then o else outTerm o (bf u) y.body
    | .none, some v => if x.masked then o else outTerm o x.body (bf v)
    | .none, .none => o) (0, 0)

/-- Sum of two F32 codes by RNE. -/
def addF32 (x y : Nat) : Nat × Fl :=
  let r := fvAdd 0 (FV.ofBits fmtF32 x) (FV.ofBits fmtF32 y)
  let e := encFV fmtF32 0 false r.1
  (e.1, r.2 ||| e.2)

/-- The new accumulator of one output element (R75, step 3). (Log 41 DEDUCED.) -/
def stepElem (fmtA fmtB : Nat) (a b : Array El) (acc : Nat) : Nat × Fl :=
  let ks := kStep fmtA
  let d := densePartial fmtA fmtB ks a b
  let o := if isSplit fmtA then outlierSum ks a b else (0, 0)
  let s1 := addF32 acc d.1
  let s2 := addF32 s1.1 o.1
  (s2.1, stepFl (d.2 ||| o.2 ||| s1.2 ||| s2.2))

-- The encoder (R74) ---------------------------------------------------------------------------------------------------

/-- What the encoder finds: more candidates than the pool holds under TRAP, or the segment's bytes and flags. -/
inductive Enc where
  | trap (n : Nat)
  | ok (bytes : List Byte) (fl : Fl)
deriving DecidableEq, Repr

/-- Magnitude of F32 bits for the ranking: every non-finite element counts as infinite. -/
def magKey (x : Nat) : Nat := Nat.min (x % 2 ^ 31) 0x7F800000

/-- A candidate: tier, magnitude, row, column. -/
structure Cand where
  tier : Nat
  key : Nat
  r : Nat
  k : Nat
deriving DecidableEq, Repr

/-- Priority order: tier, then decreasing magnitude, then row, then column. -/
def Cand.le (a b : Cand) : Bool :=
  if a.tier ≠ b.tier then decide (a.tier < b.tier)
  else if a.key ≠ b.key then decide (b.key < a.key)
  else decide (a.r * 1024 + a.k ≤ b.r * 1024 + b.k)

/-- The candidates of a row with their tiers. -/
def rowCands (theta r : Nat) (row : Array (Option Nat)) : List Cand :=
  let cs := row.toList.zipIdx.filterMap (fun e => match e.1 with
    | some x => if 0x7F800000 ≤ x % 2 ^ 31 ∨ theta < magKey x then some { tier := 3, key := magKey x, r := r, k := e.2 } else .none
    | .none => .none)
  let sorted := cs.mergeSort Cand.le
  sorted.zipIdx.map (fun e => { e.1 with tier := if e.1.key = 0x7F800000 then 1 else if e.2 < 8 then 2 else 3 })

/-- The exponent of a block's scale for a largest magnitude `m × 2 ^ e`, `m` not 0. -/
def scaleExp (fmt m : Nat) (e : Int) : Int :=
  let k : Int := (Nat.log2 m : Int)
  if fmt = 4 then (if 2 * m ≤ 3 * 2 ^ k.toNat then k + e - 1 else k + e) else k + e - 2

/-- The bytes of a list of bits. -/
def bitsToBytes : Nat → List Bool → List Byte
  | 0, _ => []
  | n + 1, bs =>
    BitVec.ofNat 8 ((bs.take 8).foldr (fun b (x : Nat) => 2 * x + (if b then 1 else 0)) 0) :: bitsToBytes n (bs.drop 8)

/-- Codes and scale of one block: `xs` the elements, `keep` those in the pool. Gives the body bytes, the scale byte and
whether the scale was clamped. -/
def encBlock (fmt : Nat) (xs : List (Option Nat × Bool)) : List Byte × Byte × Bool :=
  let w := codeWidth fmt
  let big := xs.foldl (fun (m : Nat) e => match e with | (some x, false) => Nat.max m (x % 2 ^ 31) | _ => m) 0
  let (e, under) : Int × Bool := match FV.ofBits fmtF32 big with
    | .fin _ m x => if m = 0 then (-127, false) else
        let y := scaleExp fmt m x
        if y < -127 then (-127, true) else (y, false)
    | _ => (-127, false)
  let codes := xs.map (fun p => match p with
    | (.none, _) => 2 ^ (w - 1)
    | (some _, true) => 0
    | (some x, false) =>
      (match FV.ofBits fmtF32 x with
       | .fin neg m y =>
         let q := if fmt = 4 then Nat.min 3 (toUlps 0 neg m (y - e) 0).1 else (encFin fmtE2M1 0 true false m (y - e)).1
         if q = 0 then 0 else (if neg then 2 ^ (w - 1) else 0) + q
       | _ => 0))
  (bitsToBytes (4 * w) ((codes.map (fun c => (List.range w).map (fun i => c.testBit i))).flatten),
   BitVec.ofInt 8 (e + 127), under)

/-- Encodes 64 rows of F32 bits, none for a masked element (R74); `theta` is legal. A signalling NaN input sets no flag.
(Log 162 DESIGN CHOICE.) -/
def encodeSeg (fmt : Nat) (rows : List (Array (Option Nat))) (theta : Word) (mode : Bool) (version : Nat) : Enc :=
  let cand := (rows.zipIdx.map (fun e => rowCands theta.toNat e.2 e.1)).flatten
  let n := cand.length
  let inf := (cand.filter (fun c => c.tier == 1)).length
  if 512 < n ∧ (512 < inf ∨ !mode) then .trap n
  else
    let keep := if n ≤ 512 then cand else (cand.mergeSort Cand.le).take 512
    let kept : Array Bool := keep.foldl (fun (a : Array Bool) c => a.setIfInBounds (c.r * 1024 + c.k) true) (Array.replicate 65536 false)
    let clamped := decide (512 < n)
    let ks := kStep fmt
    let blocks := (List.range 64).map (fun r =>
      let row := rows.getD r #[]
      (List.range (ks / 32)).map (fun j => encBlock fmt ((List.range 32).map (fun i =>
        let k := 32 * j + i
        (row.getD k .none, kept.getD (r * 1024 + k) false)))))
    let body := (blocks.map (fun bs => (bs.map (·.1)).flatten)).flatten
    let scales := (blocks.map (fun bs => bs.map (·.2.1))).flatten
    let under := blocks.any (fun bs => bs.any (·.2.2))
    let sorted := keep.mergeSort (fun a b => decide (a.r * 1024 + a.k ≤ b.r * 1024 + b.k))
    let pool := sorted.map (fun c =>
      let x := ((rows.getD c.r #[]).getD c.k .none).getD 0
      let v := encFV fmtBF16 0 false (FV.ofBits fmtF32 x)
      (v.1 * 65536 + c.r * 1024 + c.k, v.2 &&& flOF))
    let poolBytes := (pool.map (fun p => leBytes p.1 4)).flatten ++ List.replicate (2048 - 4 * pool.length) 0
    let rest := body ++ scales ++ poolBytes
    let word := version + pool.length * 2 ^ 12 + (fmt - 4) * 2 ^ 22 + (if mode then 2 ^ 24 else 0) +
      (if clamped then 2 ^ 25 else 0) + (if under then 2 ^ 26 else 0) + 2 ^ 27
    let map := sorted.foldl (fun (m : Nat) c => m ||| 2 ^ c.r) 0
    let head := leBytes 0x3A7E5E61 4 ++ leBytes word 4 ++ leBytes theta.toNat 4 ++ leBytes (crc32c rest).toNat 4 ++
      leBytes map 8 ++ List.replicate 0x68 0
    .ok (head ++ rest) (pool.foldl (fun (f : Fl) p => f ||| p.2) ((if clamped then flBCLAMP else 0) ||| (if under then flBUF else 0)))

-- The decoder (R292) --------------------------------------------------------------------------------------------------

/-- The value that `SPLIT.DEC` writes for an element, as a value, or none for a masked one. -/
def El.decoded (e : El) : Option FV :=
  match e.out with
  | some v => some (FV.ofBits fmtBF16 v)
  | .none => if e.masked then .none else some e.body

end Sys2Proof.Machine
end

