-- ==== Sys2Proof/Machine/Ase.lean ====
section
/-!
DEFINITION. The atomic service engine: built-in atomics, compare and swap, custom handlers, and the hardware steps that serve
and answer their requests (R95-R97, R247-R266).
-/
namespace Sys2Proof.Machine

-- Arithmetic (R252) -------------------------------------------------------------------------------------------------------

/-- Value of a word of `8 w` bits as the type says. -/
def AtomTy.num (t : AtomTy) (x : Nat) : Int :=
  let w := if t.wide then 64 else 32
  if (t.tag = 1 ∨ (t.wide ∧ t.tagHi = 0xF)) ∧ 2 ^ (w - 1) ≤ x then (x : Int) - 2 ^ w else x

/-- A built-in operation on the old value and the operand: the new value and its flags (R252). -/
def AtomTy.apply (t : AtomTy) (old v : Nat) : Nat × Fl :=
  let m := if t.wide then 2 ^ 64 else 2 ^ 32
  match t.op with
  | 0 => if t.tag = 3 ∧ ¬ t.wide then addF32 old v else ((old + v) % m, 0)
  | 1 => (if t.num v < t.num old then v else old, 0)
  | 2 => (if t.num old < t.num v then v else old, 0)
  | 3 => (old &&& v, 0)
  | 4 => (old ||| v, 0)
  | 5 => (old ^^^ v, 0)
  | _ => (v, 0)

/-- An entry of an atomic request: byte offset in the sector, operand or expected value, new value of a `CAS`. -/
structure AEntry where
  off : Nat
  v : Nat
  new : Nat
deriving DecidableEq, Repr

/-- What the lanes of a request leave: the sector, the old values, the flags, whether a lane wrote, the entries that would have
written a page without write permission. -/
structure ADone where
  sector : List Byte
  olds : List Nat
  flags : Fl
  wrote : Bool
  denied : List Nat
deriving DecidableEq, Repr

/-- Replaces `n` bytes at an offset of a sector. -/
def putBytes (sector : List Byte) (off : Nat) (bs : List Byte) : List Byte := sector.take off ++ bs ++ sector.drop (off + bs.length)

/-- Applies the lanes of a request one after the other to a sector (R249): a built-in operation, or without one a compare and
swap, whose lanes write where `writable` lets them (R257). -/
def applyLanes (ty : Option AtomTy) (w : Nat) (writable : Nat → Bool) (sector : List Byte) (es : List AEntry) : ADone :=
  es.foldl (fun d e =>
    let old := leNat ((d.sector.drop e.off).take w)
    let i := d.olds.length
    match ty with
    | some t =>
      let r := t.apply old (e.v % 256 ^ w)
      { d with sector := putBytes d.sector e.off (leBytes r.1 w), olds := d.olds ++ [old], flags := d.flags ||| r.2, wrote := true }
    | none =>
      if old ≠ e.v % 256 ^ w then { d with olds := d.olds ++ [old] }
      else if !writable i then { d with olds := d.olds ++ [old], denied := d.denied ++ [i] }
      else { d with sector := putBytes d.sector e.off (leBytes e.new w), olds := d.olds ++ [old], wrote := true })
    { sector := sector, olds := [], flags := 0, wrote := false, denied := [] }

-- Issue (R249, R251) --------------------------------------------------------------------------------------------------------

/-- An order with an acquire; with a release (R35, R95). -/
def ordAcq (o : Nat) : Bool := o == 1 || o == 3 || o == 4
def ordRel (o : Nat) : Bool := o == 2 || o == 3 || o == 4

/-- One access of an atomic: the checks of R210 and R224, then the windows that have no atomics (R266). -/
def State.atomAccess (s : State) (n : Need) (custom : Bool) (va : DWord) : Access :=
  match s.accessMe va n with
  | .at (.regw _ _ _) _ => .fail 0x28 (if custom then 3 else 1)
  | .at (.pt _ _) _ => .fail 0x28 (if custom then 3 else 2)
  | .at (.scratch g o) t => if custom then .fail 0x28 3 else .at (.scratch g o) t
  | .at (.peer d pa) t => if custom then .fail 0x28 4 else .at (.peer d pa) t
  | a => a

/-- The number of a source in the ring of a service fibre (R250). -/
def ASrc.number : ASrc → Nat
  | .slot cu n => cu * 32 + n
  | .frontEnd => 6144
  | .peer d => 6145 + d.toNat

/-- Requests of an atomic with the level of their page, which a refused `CAS` lane reports (R211). -/
def State.atomParts (s : State) (m : Word) (custom : Bool) (ls : List (Nat × Loc × Option TLeaf)) : List Part :=
  let one := fun (e : Nat × Loc × Option TLeaf) =>
    { mkPart m e.2.1 e.2.2 with lanes := [(e.1, e.2.1.off)] }
  let lvl := fun (p : Part) =>
    { p with lease := none, expiry := match ls.find? (fun e => e.2.1.sector == p.loc) with | some (_, _, some t) => t.level | _ => 0 }
  (if custom then ls.map one else s.sectorParts m ls).map lvl

/-- The requests of a source at a service fibre, in the order in which the source issued them: the first 48 are in the fibre's FIFO,
the others wait at the source (R250). -/
def State.aseOf (s : State) (g : Nat) (x : ASrc) : List AReq := (s.ase.filter (fun e => e.1 == g && e.2.1 == x)).map (·.2.2)

/-- Puts the local requests of an operation into the queues of their service fibres, in their order, and removes the CU's copies
of their sectors (R82, R248, R251, R304). -/
def State.enqueueAtomics (s : State) (o : Op) (number : Nat) : State :=
  o.parts.zipIdx.foldl (fun (t : State) e =>
    match e.1.loc with
    | .mem pa =>
      if inHbm pa then
        let t1 := (t.l1Drop o.cu pa).rackDrop o.cu pa
        { t1 with ase := t1.ase ++ [(ownerOf pa, .slot o.cu number, .op o.id e.2)] }
      else t
    | _ => t) s

/-- The operand words of a lane as operand and new value (R252, R256). -/
def entryOf (wide cas : Bool) (off : Nat) (ws : List Word) : AEntry :=
  let x := fun (i : Nat) => (ws.getD i 0).toNat + (if wide then (ws.getD (i + 1) 0).toNat * 2 ^ 32 else 0)
  { off := off, v := x 0, new := if cas then x (if wide then 2 else 1) else 0 }

/-- The type code of an `ATOMIC` packet (R344). -/
def AtomTy.code (t : AtomTy) : Nat :=
  if t.wide then (if t.tagHi = 0xF then 0 else 1) else if t.tag = 1 then 0 else if t.tag = 3 then 2 else 1

/-- An entry's bytes in an `ATOMIC` packet (R344). -/
def entryBytes (wide cas : Bool) (e : AEntry) : List Byte :=
  leBytes e.off 1 ++
  (if wide then List.replicate 7 0 ++ leBytes e.v 8 ++ (if cas then leBytes e.new 8 else [])
   else List.replicate 3 0 ++ leBytes e.v 4 ++ (if cas then leBytes e.new 4 ++ List.replicate 4 0 else []))

/-- AUX of an `ATOMIC` packet (R344); a `CAS` sends the operation and type as zero. -/
def atomAux (ty : Option AtomTy) (ret wide readOnly : Bool) (lanes : Nat) : Nat :=
  (match ty with | some t => t.op + t.code * 64 | none => 16) + (if ret then 0 else 8) + (if wide then 32 else 0) +
  (lanes - 1) * 256 + (if readOnly then 0x4000 else 0)

/-- The lanes of a request cut where they pass from a page that grants a write to one that does not: each lane is judged by the
page it came through, and a packet carries one judgement (R257, R344). -/
def Part.runs (p : Part) : List (Bool × List (Nat × Nat)) :=
  p.lanes.foldr (fun l (acc : List (Bool × List (Nat × Nat))) =>
    let w := (p.seenBy p.expiry l.1).2.1
    match acc with
    | (x, ls) :: t => if x = w then (x, l :: ls) :: t else (w, [l]) :: acc
    | [] => [(w, [l])]) []

/-- Splits the lanes of a peer request so that a packet's entries take at most 256 bytes. -/
def chunks {α : Type} (n : Nat) : Nat → List α → List (List α)
  | 0, _ => []
  | f + 1, l => if l.isEmpty then [] else l.take n :: chunks n f (l.drop n)

/-- The requests of an operation with those to peers split by packet. -/
def splitPeers (entry : Nat) (ps : List Part) : List Part :=
  ps.flatMap (fun p => match p.loc with
    | .peer .. => p.runs.flatMap (fun e => (chunks (256 / entry) 64 e.2).map (fun l => { p with lanes := l, writable := e.1 }))
    | _ => [p])

/-- Makes the `ATOMIC` packets of an operation (R350). -/
def State.atomicPackets (s : State) (o : Op) (ty : Option AtomTy) (ret wide : Bool) : State :=
  o.parts.zipIdx.foldl (fun (t : State) e =>
    match e.1.loc with
    | .peer d pa =>
      let es := e.1.lanes.map (fun l => entryOf wide ty.isNone l.2 (Tbl.get o.argv l.1 []))
      let bs := es.flatMap (entryBytes wide ty.isNone)
      t.newTx { t.blankPkt d 3 0 o.ctx with
        addr := BitVec.ofNat 40 pa, aux := BitVec.ofNat 32 (atomAux ty ret wide (!e.1.writable) es.length),
        len := BitVec.ofNat 9 bs.length, payload := bs } o.id e.2
    | _ => t) s

/-- Issues an atomic whose lanes are checked (R251, R254): it takes its entries, captures its operands and hands its requests on. -/
def State.issueAtomic (s : State) (kind : OpKind) (ty : Option AtomTy) (ret wide custom : Bool) (f : BitVec 1) (d : Scope)
    (acq rel : Bool) (argv : Tbl Nat (List Word)) (ls : List (Nat × Loc × Option TLeaf)) : State :=
  let entry := (if wide then 16 else 8) + (if ty.isNone then 8 else 0)
  let parts := splitPeers entry (s.atomParts s.hint custom ls)
  let w := s.myWg
  let full := if ret then decide (4096 < s.missUsed w.cu + (parts.filter Part.holdsAtomic).length)
    else decide (1024 < s.writeUsed w.cu + (parts.filter Part.holdsAtomic).length)
  if full then s.waitHere
  else
    let remote := parts.any (fun p => match p.loc with | .peer .. => true | _ => false)
    let o := { s.newOp kind (s.flagSel f) s.me.mask (clsR ||| clsW) (s.scopeOr (if remote then .system else d)) with
      parts := parts, st := .running, argv := argv, acq := acq, gate := if rel then some s.gateHere else none }
    s.emitWith o (fun t => ((t.enqueueAtomics o s.mySlot.number).atomicPackets o ty ret wide).countEv o.cu 0x0F parts.length (some o.ctx))

-- AMO and AMOR (R252-R255) ----------------------------------------------------------------------------------------------------

/-- The type of a built-in operation by the tags of its data register; or the fault (R252). -/
def State.atomType (s : State) (op d : Nat) : Except (BitVec 8 × Nat) AtomTy :=
  let t := s.vtagOf d
  if t = 0xE then
    let h := s.vtagOf (d + 1)
    if h = 0xF ∨ h = 2 then .ok { op := op, wide := true, tag := t, tagHi := h } else .error (0x10, tagDetail 0 true h)
  else if (match op with | 0 => t == 1 || t == 2 || t == 3 | 6 => t != 0 && t != 0xF | _ => t == 1 || t == 2) then
    .ok { op := op, wide := false, tag := t, tagHi := 0 }
  else .error (0x10, tagDetail 0 false t)

/-- The words of registers `d`, `d + 1`, … of each active lane. -/
def State.operandWords (s : State) (d n : Nat) : Tbl Nat (List Word) :=
  s.active.map (fun l => (l, (List.range n).map (fun i => (s.vwin (d + i)).lane l)))

/-- `AMO` and `AMOR` at issue. -/
def State.amo (s : State) (d a b : Nat) (op ord : Nat) (f : BitVec 1) (ret : Bool) : State :=
  match s.atomType op d with
  | .error (c, x) => s.take c x
  | .ok ty =>
    match s.laneOffs a with
    | .error (c, det) => s.take c det
    | .ok off =>
      let n := if ty.wide then 2 else 1
      s.lanesElse (s.checkLanes (4 * n) (s.laneAddrs off b) (s.atomAccess .amo false)) (fun ls =>
        s.issueAtomic (.atomic ty ret (s.me.base.toNat + d)) (some ty) ret ty.wide false f (if ret then .device else .workgroup)
          (ordAcq ord) (ordRel ord) (s.operandWords d n) ls)

/-- `AMO` (R254). -/
def execAmo (d a : VReg) (b : BitVec 4) (o r : BitVec 3) (f : BitVec 1) (s : State) : Host.Outcome State Fault Refusal :=
  issue (.amo d a b o r f) s (fun s => s.amo d.toNat a.toNat b.toNat o.toNat r.toNat f true)

/-- `AMOR` (R255). -/
def execAmor (d a : VReg) (b : BitVec 4) (o r : BitVec 3) (f : BitVec 1) (s : State) : Host.Outcome State Fault Refusal :=
  issue (.amor d a b o r f) s (fun s => s.amo d.toNat a.toNat b.toNat o.toNat r.toNat f false)

-- CAS (R256, R257) --------------------------------------------------------------------------------------------------------------

/-- The checks of a `CAS`'s operand group: whether it is 64 bits wide, or the fault: each pair of a 64-bit one is tagged as R252 has
it (R256). (Log 48 DEDUCED.) -/
def State.casType (s : State) (d : Nat) : Except (BitVec 8 × Nat) Bool :=
  let t := fun (i : Nat) => s.vtagOf (d + i)
  if t 0 = 0xE then
    if ¬ (t 1 = 0xF ∨ t 1 = 2) then .error (0x10, tagDetail 0 true (t 1))
    else if t 2 ≠ 0xE then .error (0x10, tagDetail 0 false (t 2))
    else if ¬ (t 3 = 0xF ∨ t 3 = 2) then .error (0x10, tagDetail 0 true (t 3))
    else .ok true
  else if t 0 = 0 then .error (0x10, tagDetail 0 false 0)
  else if t 1 ≠ t 0 then .error (0x10, tagDetail 0 true (t 1))
  else .ok false

/-- `CAS` (R257): its orders are the union of the two (R97). (Log 48 DEDUCED.) -/
def execCas (d a : VReg) (b : BitVec 4) (r q : BitVec 3) (f : BitVec 1) (s : State) : Host.Outcome State Fault Refusal :=
  issue (.cas d a b r q f) s (fun s =>
    match s.casType d.toNat with
    | .error (c, x) => s.take c x
    | .ok wide =>
      let n := if wide then 4 else 2
      let base := s.me.base.toNat + d.toNat
      match s.laneOffs a.toNat with
        | .error (c, det) => s.take c det
        | .ok off =>
          s.lanesElse (s.checkLanes (2 * n) (s.laneAddrs off b.toNat) (s.atomAccess .cas false)) (fun ls =>
            s.issueAtomic (.cas wide base) none true wide false f .device (ordAcq r.toNat || ordAcq q.toNat)
              (ordRel r.toNat || ordRel q.toNat) (s.operandWords d.toNat n) ls))

-- Custom handlers (R258-R262) -----------------------------------------------------------------------------------------------------

/-- `ACUST` (R261). -/
def execAcust (d a : VReg) (b : BitVec 3) (h : BitVec 4) (r : BitVec 2) (f : BitVec 1) (s : State) :
    Host.Outcome State Fault Refusal :=
  issue (.acust d a b h r f) s (fun s =>
    match s.myCtx.handlers.find? (fun e => e.1 == h.toNat) with
    | none => s.take 0x29 1
    | some (_, code) =>
      if s.vtagOf d.toNat = 0 ∨ s.vtagOf (d.toNat + 1) = 0 then s.take 0x10 0
      else match s.laneOffs a.toNat with
        | .error (c, det) => s.take c det
        | .ok off =>
          s.lanesElse (s.checkLanes 4 (s.laneAddrs off b.toNat) (s.atomAccess .amo true)) (fun ls =>
            s.issueAtomic (.acust h.toNat code (s.me.base.toNat + d.toNat)) none true true true f .device
              (ordAcq r.toNat) (ordRel r.toNat) (s.operandWords d.toNat 2) ls))

/-- Is a request of the running context that names a handler, accepted before identity `mark`, unfinished (R259)? -/
def State.handlerBusy (s : State) (hid mark : Nat) : Bool :=
  s.ops.any (fun o => o.ctx == s.myWg.ctx && decide (o.id < mark) && (match o.kind with | .acust h _ _ => h == hid | _ => false))

/-- Installs a handler, or removes it if there is no code, once the requests that name it have finished; the copy of the code and
the identity of the first try are kept while the unit waits in place (R259). (Log 51 DEDUCED.) -/
def State.install (s : State) (hid : Nat) (code : List Word) : State :=
  let mark := if s.me.begun.isSome then s.me.mark else s.nextId
  if s.handlerBusy hid mark then (s.setMe { s.me with mark := mark, begun := some code }).waitHere
  else
    let c := s.myCtx
    (s.setCtx s.myWg.ctx { c with handlers := if code.isEmpty then Tbl.del c.handlers hid else Tbl.set c.handlers hid code }).retire

/-- Handlers that the device's store holds: those installed, and the copies of the units that wait to install theirs (R259). -/
def State.handlersHeld (s : State) : Nat :=
  (s.ctxs.map (fun e => e.2.handlers.length)).sum +
  (s.fibres.filter (fun e => match e.2.begun with | some (_ :: _) => true | _ => false)).length

/-- `ASINST` (R259, R260): the code is read, validated and copied once, before the wait. (Log 51 DEDUCED.) -/
def execAsinst (h : BitVec 4) (a b : SReg) (s : State) : Host.Outcome State Fault Refusal :=
  issue (.asinst h a b) s (fun s =>
    let va := s.sreg a.toNat
    let n := (s.sreg b.toNat).toNat
    match s.me.begun with
    | some ws => s.install h.toNat ws
    | none =>
      if n = 0 then s.install h.toNat []
      else if n % 4 ≠ 0 ∨ n < 8 ∨ 256 < n ∨ va.toNat % 4 ≠ 0 then s.take 0x2A 1
      else match s.readMe va n with
        | .stop s1 => s1
        | .ok s1 bs _ =>
          let ws := (List.range (n / 4)).map (fun i => BitVec.ofNat 32 (leNat ((bs.drop (4 * i)).take 4)))
          match handlerBad ws with
          | some (r, i) => s1.take 0x2A (r + i * 256)
          | none =>
            if 64 ≤ s1.handlersHeld ∧ ¬ Tbl.has s1.myCtx.handlers h.toNat then s1.take 0x2A 6
            else s1.install h.toNat ws)

-- Performing a request (R249) ---------------------------------------------------------------------------------------------------------

/-- What performing a request leaves in it: the bytes of its reply, flags, times, a fault of its lanes. Copies that the CU took
since the request was issued go (R82, R84, R304). -/
def State.performPart (s : State) (o : Op) (p : Part) (k : Nat) : State :=
  let s := if p.loc.isHbm then (s.l1Drop o.cu p.loc.pa).rackDrop o.cu p.loc.pa else s
  let (s0, sector, wvt) := s.readAs o.ctx p.loc 32
  let put := fun (t : State) (w : Bool) (bs : List Byte) => if w then t.writeLoc o.ctx p.loc bs .clear else (t, 0)
  let isMem := p.loc.isHbm
  match o.kind with
  | .acust _ code _ =>
    let l := p.lanes.headD (0, 0)
    let ws := Tbl.get o.argv l.1 []
    let arg : DWord := ws.getD 1 0 ++ ws.getD 0 0
    (match runHandler s.freeCtr code sector arg (BitVec.ofNat 64 l.2) (s.fe.devid.setWidth 64) with
     | .done sec r fc =>
       let (s1, g) := put { s0 with freeCtr := fc } sec.isSome (sec.getD [])
       s1.setOp (((s1.op o.id).getD o).setPart k { p with
         st := .performed, data := leBytes r.toNat 8, gwct := g, wvt := if isMem then (s1.secMeta p.loc.pa).wvt else wvt })
     | .fault c fc =>
       ({ s0 with freeCtr := fc }).setOp (o.setPart k { p with
         st := .performed, wvt := wvt,
         fault := some (o.faultRec 0x29 (2 + c.toNat * 256) (p.va + BitVec.ofNat 64 l.2) (maskOf [l.1]) (some l.1)) }))
  | .atomic ty _ _ =>
    let d := applyLanes (some ty) (if ty.wide then 8 else 4) (fun _ => true) sector
      (p.lanes.map (fun l => entryOf ty.wide false l.2 (Tbl.get o.argv l.1 [])))
    let (s1, g) := put s0 d.wrote d.sector
    s1.setOp (((s1.op o.id).getD o).setPart k { p with
      st := .performed, data := d.olds.flatMap (fun x => leBytes x (if ty.wide then 8 else 4)), gwct := g,
      wvt := if isMem then (s1.secMeta p.loc.pa).wvt else wvt, flags := d.flags })
  | .cas wide _ =>
    let w := if wide then 8 else 4
    let seen := fun (i : Nat) => p.seenBy p.expiry ((p.lanes[i]?.map (·.1)).getD 0)
    let d := applyLanes none w (fun i => (seen i).2.1) sector (p.lanes.map (fun l => entryOf wide true l.2 (Tbl.get o.argv l.1 [])))
    let (s1, g) := put s0 d.wrote d.sector
    let bad := d.denied.filterMap (fun i => p.lanes[i]?)
    let first := seen (d.denied.headD 0)
    s1.setOp (((s1.op o.id).getD o).setPart k { p with
      st := .performed, data := d.olds.flatMap (fun x => leBytes x w), gwct := g,
      wvt := if isMem then (s1.secMeta p.loc.pa).wvt else wvt,
      fault := match bad with
        | [] => none
        | l :: _ => some (o.faultRec 0x21 (xDetail 1 first.2.2) (first.1 + BitVec.ofNat 64 l.2) (maskOf (bad.map (·.1))) (some l.1)) })
  | _ => s

/-- Writes the old values of a request into the registers of its lanes, their tags unchanged (R251, R254). -/
def State.deliverAtomic (s : State) (o : Op) (p : Part) : State :=
  let go := fun (vd w : Nat) =>
    (List.range (w / 4)).foldl (fun (t : State) i =>
      let v := t.vreg o.who.wg o.who.slot (vd + i)
      let ls := p.lanes.zipIdx.foldl (fun (x : List Word) e =>
        setNth x e.1.1 (cleanLane v.tag (BitVec.ofNat 32 (leNat ((p.data.drop (e.2 * w + 4 * i)).take 4))))) v.lanes
      t.setV o.who.wg o.who.slot (vd + i) (maskOf (p.lanes.map (·.1))) { v with lanes := ls }) s
  if p.data.isEmpty then s
  else match o.kind with
    | .atomic ty true vd => go vd (if ty.wide then 8 else 4)
    | .cas wide vd => go vd (if wide then 8 else 4)
    | .acust _ _ vd => go vd 8
    | _ => s

/-- The fault of an operation after that of one more request: the lanes of equal causes together, else the first. -/
def joinFault (a b : Option FaultRec) : Option FaultRec :=
  match a, b with
  | some x, some y => some (if x.cause = y.cause ∧ x.detail = y.detail then { x with lanes := x.lanes ||| y.lanes } else x)
  | some x, none => some x
  | none, y => y

/-- Ends one request of an atomic: registers, times, flags and fault, and the operation when it was the last (R27, R68, R85).
(Log 47 DEDUCED.) -/
def State.endAtomic (s : State) (o : Op) (k : Nat) (p : Part) : State :=
  let s1 := s.deliverAtomic o p
  let o0 := (s1.op o.id).getD o
  let o1 := { o0 with
    gwct := Nat.max o.gwct p.gwct, ot := Nat.max o.ot p.wvt, sticky := o.sticky ||| p.flags, fault := joinFault o.fault p.fault }.setPart
      k { p with st := .done }
  if o1.parts.all (fun q => q.st == .done) then (s1.setOp o1).settle o1 else s1.setOp o1

/-- ATOMIC_REPLY (R251): the reply of a served request reaches its requester; a request to a cell is performed by the cellar here,
when its release and the fibre's earlier accesses to its bytes allow (R249). (Log 47 DEDUCED.) -/
def execAtomicReply (op part : Nat) (s : State) : Host.Outcome State Fault Refusal :=
  match s.op op with
  | none => .next s
  | some o =>
    match o.kind, o.parts[part]? with
    | .atomic .., some p | .cas .., some p | .acust .., some p =>
      if p.st = .performed then .next (s.endAtomic o part p)
      else if p.st == .todo && !p.loc.isHbm && (match p.loc with | .peer .. => false | _ => true) && s.gateOpen o && !s.mustFollow o p true then
        let s1 := s.performPart o p part
        (match s1.op op with
         | some o1 => (match o1.parts[part]? with | some p1 => .next (s1.endAtomic o1 part p1) | none => .next s1)
         | none => .next s1)
      else .next s
    | _, _ => .next s

-- Requests of peers (R344, R346) --------------------------------------------------------------------------------------------------------

/-- The entries of an `ATOMIC` packet (R344). -/
def packetEntries (p : Packet) : List AEntry :=
  let a := p.aux.toNat
  let wide := a.testBit 5
  let cas := a.testBit 4
  let n := (if wide then 16 else 8) + (if cas then 8 else 0)
  (List.range (bitsN a 8 6 + 1)).map (fun i =>
    let b := (p.payload.drop (i * n)).take n
    let f := fun (o k : Nat) => leNat ((b.drop o).take k)
    { off := f 0 1 % 32, v := if wide then f 8 8 else f 4 4, new := if wide then f 16 8 else f 8 4 })

/-- The type of an `ATOMIC` packet's operation, none for a `CAS`. -/
def packetType (p : Packet) : Option AtomTy :=
  let a := p.aux.toNat
  if a.testBit 4 then none
  else
    let wide := a.testBit 5
    some { op := bitsN a 0 3, wide := wide, tag := if wide then 0xE else match bitsN a 6 2 with | 0 => 1 | 1 => 2 | _ => 3,
           tagHi := if wide then (if bitsN a 6 2 = 0 then 0xF else 2) else 0 }

/-- Serves a peer's request: it is applied, its answer kept in the dedup cache and owed until the GWCT has passed (R344, R346,
R347). -/
def State.servePacket (s : State) (p : Packet) : State :=
  let a := p.aux.toNat
  let w := if a.testBit 5 then 8 else 4
  let pa := sectorOf p.addr.toNat
  let d := applyLanes (packetType p) w (fun _ => !a.testBit 14) (s.hbmBytes pa 32) (packetEntries p)
  let (s1, g) := if d.wrote then s.writeHbm p.sctx pa d.sector .clear else (s.ownRead p.sctx pa, 0)
  let bs := d.olds.flatMap (fun x => leBytes x w)
  let r := if a.testBit 3 then { ackOf p false with addr := d.flags.setWidth 40 &&& 31 }
    else { answerTo p 0x12 with
      aux := s1.remaining (s1.secMeta pa).wvt, addr := d.flags.setWidth 40 &&& 31, len := BitVec.ofNat 9 bs.length, payload := bs }
  let old := Tbl.get s1.fe.dedup p.src []
  let s2 : State := { s1 with fe := { s1.fe with dedup := Tbl.set s1.fe.dedup p.src (((p.seq, r) :: old).take 4096) } }
  s2.answerAfter { Owed.none with reply := some r, gwct := g }

-- The service slot (R250) ---------------------------------------------------------------------------------------------------------------

/-- May the request at the head of a source's queue enter the service fibre: its release is due, its fibre's earlier accesses to its
bytes are performed, its line is not poisoned? -/
def State.mayServe (s : State) (r : AReq) : Bool :=
  match r with
  | .op id k =>
    (match s.op id with
     | some o => (match o.parts[k]? with
       | some p => s.gateOpen o && !s.mustFollow o p true && !s.mustScrub p.loc 32
       | none => true)
     | none => true)
  | .test q => (match s.testPlace q with | .ok l => !s.mustScrub l 8 | .error _ => true)
  | .packet p => !s.poisoned p.addr.toNat

/-- The first request of each source of a service fibre, in the order of their entry. (Log 76 DEDUCED.) -/
def heads (g : Nat) : List ASrc → List (Nat × ASrc × AReq) → List (ASrc × AReq)
  | _, [] => []
  | seen, (n, x, r) :: t =>
    if n = g ∧ ¬ seen.contains x then (x, r) :: heads g (x :: seen) t else heads g seen t

/-- The source that comes next in the ring after number `last`. (Log 76 DEDUCED.) -/
def nextSource (last : Nat) (hs : List (ASrc × AReq)) : Option (ASrc × AReq) :=
  let key := fun (e : ASrc × AReq) => if last < e.1.number then e.1.number else e.1.number + 100000
  match hs with
  | [] => none
  | h :: t => some (t.foldl (fun b e => if key e < key b then e else b) h)

/-- ATOMIC_SERVICE_SLOT (R247, R249, R250): the service fibre of a group takes the next source's first request and performs it as
one action. (Log 76 DEDUCED.) -/
def execAtomicServiceSlot (g : Nat) (s : State) : Host.Outcome State Fault Refusal :=
  if (hostOf g).isNone then .next s
  else match nextSource (Tbl.get s.ring g 0) ((heads g [] s.ase).filter (fun e => s.mayServe e.2)) with
  | none => .next s
  | some (x, r) =>
    let i := (s.ase.findIdx? (fun e => e.1 == g && e.2.1 == x)).getD 0
    let s1 : State := { s with ase := s.ase.eraseIdx i, ring := Tbl.set s.ring g x.number }
    match r with
    | .op id k =>
      (match s1.op id with
       | some o => (match o.parts[k]? with | some p => .next (s1.performPart o p k) | none => .next s1)
       | none => .next s1)
    | .test q => .next (s1.semServe q)
    | .packet p => .next (s1.servePacket p)

end Sys2Proof.Machine
end

