-- ==== Sys2Proof/Machine/Ce.lean ====
section
/-!
DEFINITION. The copy engine: linear, guarded, tensor and multicast copies, its state word, and the hardware steps that give an
operation a channel and move its units (R315-R332).
-/
namespace Sys2Proof.Machine

-- Issue (R324-R328) -----------------------------------------------------------------------------------------------------

/-- Operations queued or running in a CU's copy engine. -/
def Cu.ceCount (u : Cu) : Nat := u.ceq.length + u.chans.length

/-- A copy with nothing committed. -/
def CopyArgs.start (kind : Nat) (d a : DWord) (n : Nat) (g : DWord) (m : Word) : CopyArgs :=
  { kind := kind, dst := d, src := a, len := n, guard := g, hint := m, off := 0, segver := none, first := none, held := none,
    recD := none, recS := none }

/-- Issues a copy: it waits in place while the queue of 64 is full (R315). -/
def State.copyIssue (s : State) (c : CopyArgs) (f : BitVec 1) : State :=
  if 64 ≤ (s.cu s.myWg.cu).ceCount then s.waitHere
  else
    let o := { s.newOp (.copy c) (s.flagSel f) s.me.mask (clsCR ||| clsCW) (s.scopeOr .device) with st := .queued }
    s.emitWith o (fun t =>
      let u := t.cu o.cu
      t.setCu o.cu { u with ceq := u.ceq ++ [o.id] })

/-- Do the ranges of a copy overlap (R326)? -/
def overlaps (a d : DWord) (n : Nat) : Bool := decide (a.toNat < d.toNat + n) && decide (d.toNat < a.toNat + n)

/-- `CP` (R326). -/
def execCp (l a b : SReg) (f : BitVec 1) (s : State) : Host.Outcome State Fault Refusal :=
  issue (.cp l a b f) s (fun s =>
    let d := s.sreg a.toNat
    let x := s.sreg b.toNat
    let n := (s.sreg l.toNat).toNat
    if n = 0 then s.retire
    else if 2 ^ 36 ≤ n then s.take 0x48 2
    else if overlaps x d n then s.take 0x48 4
    else s.copyIssue (.start 0 d x n 0 s.hint) f)

/-- MODE of a guard word: 0 generate, 1 carry, 2 check (R325). -/
def gMode (g : DWord) : Nat := fld g 0 2
/-- SEG of a guard word. -/
def gSeg (g : DWord) : Bool := g.getLsbD 2
/-- VER of a guard word. -/
def gVer (g : DWord) : Nat := fld g 4 12

/-- `CP.G` (R326). -/
def execCpG (l a b : SReg) (f : BitVec 1) (s : State) : Host.Outcome State Fault Refusal :=
  issue (.cpG l a b f) s (fun s =>
    let d := s.sreg a.toNat
    let x := s.sreg b.toNat
    let n := (s.sreg l.toNat).toNat
    let g := s.sreg (l.toNat + 1)
    if n = 0 then s.retire
    else if 2 ^ 36 ≤ n then s.take 0x48 2
    else if g.getLsbD 3 ∨ fld g 16 48 ≠ 0 ∨ gMode g = 3 then s.take 0x48 1
    else if (gMode g = 0 ∧ (gVer g = 0 ∨ gSeg g)) ∨ (gSeg g ∧ gVer g ≠ 0) then s.take 0x48 5
    else if d.toNat % 128 ≠ 0 ∨ x.toNat % 128 ≠ 0 then s.take 0x48 3
    else if n % 128 ≠ 0 then s.take 0x48 2
    else if overlaps x d n then s.take 0x48 4
    else s.copyIssue (.start 1 d x n g s.hint) f)

/-- `CP.T` (R327). -/
def execCpT (a b : SReg) (f : BitVec 1) (s : State) : Host.Outcome State Fault Refusal :=
  issue (.cpT a b f) s (fun s =>
    let d := s.sreg a.toNat
    let x := s.sreg b.toNat
    if d.toNat % 64 ≠ 0 then s.takeAt 0x22 0 d 0 none
    else if x.toNat % 64 ≠ 0 then s.takeAt 0x22 0 x 0 none
    else s.copyIssue (.start 2 d x 0 0 s.hint) f)

/-- Ranks that a cluster target selects (R234). -/
def targetRanks (t : DWord) : List Nat := (List.range 16).filter (fun r => t.getLsbD (32 + r))

/-- `CP.MC` (R328). While its cluster is being stopped it waits to issue (R330). -/
def execCpMc (l a b : SReg) (f : BitVec 1) (s : State) : Host.Outcome State Fault Refusal :=
  issue (.cpMc l a b f) s (fun s =>
    let t := s.sreg a.toNat
    let x := s.sreg b.toNat
    let n := (s.sreg l.toNat).toNat
    let c := s.cluster s.myWg.cluster
    let d := fld t 0 21
    if n = 0 then s.retire
    else if n % 16 ≠ 0 ∨ 2 ^ 36 ≤ n then s.take 0x48 2
    else if d % 16 ≠ 0 ∨ x.toNat % 16 ≠ 0 then s.take 0x48 3
    else if fld t 21 11 ≠ 0 ∨ fld t 48 16 ≠ 0 ∨ (targetRanks t).isEmpty ∨
        (targetRanks t).any (fun r => decide (c.cw * c.ch ≤ r)) ∨ s.myWg.ssize < d + n then s.take 0x48 6
    else if c.place = .stopping then s.waitHere
    else s.copyIssue (.start 3 t x n 0 s.hint) f)

/-- `CP.STAT` (R329). -/
def execCpStat (i : BitVec 2) (d : SReg) (s : State) : Host.Outcome State Fault Refusal :=
  issue (.cpStat i d) s (fun s =>
    let u := s.cu s.myWg.cu
    let v := match i.toNat with
      | 0 => (List.range 4).foldl (fun n c => if Tbl.has u.chans c then n + 2 ^ c else n) 0 + u.ceCount * 16
      | 1 => (s.ops.filter (fun o => o.who == s.actor && o.fid == s.me.fid && (match o.kind with | .copy _ => true | _ => false))).length
      | _ => s.me.ceTag.toNat
    (s.setS d.toNat (BitVec.ofNat 64 v)).retire)

-- Records of a tensor copy (R327) ---------------------------------------------------------------------------------------

/-- What a CE access refuses (R316, R332). (Log 71 DEDUCED.) -/
def refuseCe : Refuse := fun l t => if isPeer l then some (0x4A, 1) else if isMmio l t then some (0x4A, 2) else none

/-- Element size of a format of the copy role. -/
def copySize (fmt : Nat) : Nat := match fmt with | 0 => 4 | 1 => 2 | _ => 1

/-- The four dimensions; a third or fourth of 0 reads as 1. -/
def ShapeRec.dims (r : ShapeRec) : List Nat := [r.dim0, r.dim1, Nat.max r.dim2 1, Nat.max r.dim3 1]

/-- Elements of a record. -/
def ShapeRec.count (r : ShapeRec) : Nat := r.dims.foldl (· * ·) 1

/-- Is a field that the copy role wants zero set: MODE, SCALEBASE, a reserved bit or a reserved CACHE code? AHEAD is ignored. -/
def copyRsv (bs : List Byte) (r : ShapeRec) : Bool :=
  let w := leNat ((bs.drop 0x30).take 4)
  let c := leNat ((bs.drop 0x40).take 8)
  r.mode || r.scalebase != 0 || bitsN w 6 2 != 0 || bitsN w 20 12 != 0 || c / 128 != 0 || (bs.drop 0x48).any (· != 0) ||
  decide (5 ≤ r.cache)

/-- The reason by which a record fails in the copy role, for itself. -/
def copyRole (bs : List Byte) (r : ShapeRec) (dest : Bool) : Option Nat :=
  let sz := copySize r.fmt
  if copyRsv bs r then some 1
  else if !(decide (r.fmt ≤ 3) || r.fmt == 8) then some 2
  else if r.base.toNat % sz ≠ 0 ∨ r.stride1 % sz ≠ 0 ∨ r.stride2 % sz ≠ 0 ∨ r.stride3 % sz ≠ 0 then some 3
  else if r.dim0 = 0 ∨ r.dim1 = 0 ∨ 2 ^ 36 ≤ r.count * sz then some 4
  else if dest ∧ ((1 < r.dim1 ∧ r.stride1 < r.dim0 * sz) ∨ (1 < r.dim2 ∧ r.stride2 < r.dim1 * r.stride1) ∨
      (1 < r.dim3 ∧ r.stride3 < Nat.max r.dim2 1 * r.stride2)) then some 5
  else none

/-- The reason and side by which the two records of a tensor copy fail. -/
def copyPair (bd : List Byte) (d : ShapeRec) (bs : List Byte) (x : ShapeRec) : Option Nat :=
  match copyRole bd d true, copyRole bs x false with
  | some r, _ => some r
  | none, some r => some (r + 16)
  | none, none =>
    if d.dims ≠ x.dims then some 4
    else if (d.fmt = 8) ≠ (x.fmt = 8) then some 6
    else if d.guard ∧ d.version = 0 then some 7
    else none

/-- Address of element `n` in copy order. -/
def ShapeRec.elemAt (r : ShapeRec) (n : Nat) : DWord :=
  let c := Nat.max r.dim2 1
  r.base + BitVec.ofNat 64 ((n / (r.dim0 * r.dim1 * c)) * r.stride3 + (n / (r.dim0 * r.dim1) % c) * r.stride2 +
    (n / r.dim0 % r.dim1) * r.stride1 + (n % r.dim0) * copySize r.fmt)

-- Units (R326) ----------------------------------------------------------------------------------------------------------

/-- Unit `i` of a destination range: offset from its start and length. (Log 74 DESIGN CHOICE.) -/
def unitOf (d n i : Nat) : Nat × Nat :=
  let lo := Nat.max d ((d / 128 + i) * 128)
  let hi := Nat.min (d + n) ((d / 128 + i + 1) * 128)
  (lo - d, hi - lo)

/-- Units of a destination range. -/
def unitCount (d n : Nat) : Nat := if n = 0 then 0 else (d + n - 1) / 128 - d / 128 + 1

/-- Units of a copy. -/
def CopyArgs.units (c : CopyArgs) : Nat :=
  match c.kind with
  | 2 => (c.recD.map ShapeRec.count).getD 0
  | 3 => unitCount (fld c.dst 0 21) c.len
  | _ => unitCount c.dst.toNat c.len

/-- Is the copy a segment copy, whose first unit is written last (R323)? -/
def CopyArgs.seg (c : CopyArgs) : Bool := c.kind == 1 && gSeg c.guard

/-- The committed offset O (R317): a segment copy has committed nothing before its header. (Log 72 DEDUCED.) -/
def CopyArgs.committed (c : CopyArgs) : Nat := if c.seg then 0 else c.off

/-- Releases the channel or the queue entry of an operation. -/
def State.copyFree (s : State) (cu op : Nat) : State :=
  let u := s.cu cu
  s.setCu cu { u with chans := u.chans.filter (fun e => e.2 ≠ op), ceq := u.ceq.filter (· ≠ op) }

/-- Ends a copy with a fault: DETAIL[46:8] is O (R317). -/
def State.copyFail (s : State) (o : Op) (c : CopyArgs) (cause : BitVec 8) (detail : Nat) (addr tag : DWord) : State :=
  (s.copyFree o.cu o.id).failOp
    { o with sticky := if cause = 0x24 then o.sticky ||| flGUARD else o.sticky, tagWord := tag }
    cause (detail % 256 + c.committed % 2 ^ 39 * 256) addr 0 none

/-- COPY_START (R315): the operation at the head of the queue takes a free channel; a tensor copy reads and checks its
records (R327). (Log 74 DESIGN CHOICE.) -/
def execCopyStart (cu chan : Nat) (s : State) : Host.Outcome State Fault Refusal :=
  let u := s.cu cu
  match u.ceq with
  | [] => .next s
  | id :: rest =>
    if 4 ≤ chan ∨ Tbl.has u.chans chan then .next s
    else match s.op id with
      | none => .next (s.setCu cu { u with ceq := rest })
      | some o =>
        match o.kind with
        | .copy c =>
          let go := fun (t : State) (o1 : Op) =>
            let v := t.cu cu
            (t.setOp { o1 with st := .running }).setCu cu { v with ceq := rest, chans := Tbl.set v.chans chan id }
          if c.kind = 2 ∧ c.recD.isNone then
            match s.engRead o.who.wg cu o.ctx c.dst 192 refuseCe with
            | .wait => .next s
            | .fail s1 w k d a => .next (s1.copyFail (o.saw w) c k d a 0)
            | .ok s1 bd w1 =>
              match s1.engRead o.who.wg cu o.ctx c.src 192 refuseCe with
              | .wait => .next s
              | .fail s2 w k d a => .next (s2.copyFail (o.saw (Nat.max w1 w)) c k d a 0)
              | .ok s2 bs w2 =>
                let d := recOf c.dst bd
                let x := recOf c.src bs
                match copyPair bd d bs x with
                | some r => .next (s2.copyFail (o.saw (Nat.max w1 w2)) c 0x49 r 0 0)
                | none => .next (go s2 { (o.saw (Nat.max w1 w2)) with kind := .copy { c with recD := some d, recS := some x } })
          else .next (go s o)
        | _ => .next (s.setCu cu { u with ceq := rest })

/-- Ranges that a copy reads with checks, and ranges that it writes with tags: those must lie where tags are stored. -/
def CopyArgs.tagged (c : CopyArgs) : List (DWord × Nat) :=
  match c.kind with
  | 1 => (if gMode c.guard = 0 then [] else [(c.src, c.len)]) ++ (if gMode c.guard = 2 then [] else [(c.dst, c.len)])
  | 2 =>
    let rows := fun (r : Option ShapeRec) => match r with
      | some x => if x.guard then (List.range (x.count / x.dim0)).map (fun i => (x.elemAt (i * x.dim0), x.dim0 * copySize x.fmt)) else []
      | none => []
    rows c.recS ++ rows c.recD
  | _ => []

/-- The first address of those ranges that lies where no tag is stored (R319). (Log 71 DEDUCED.) -/
def State.copyTagless (s : State) (o : Op) (c : CopyArgs) : Option DWord :=
  c.tagged.findSome? (fun e => (pieces e.1.toNat e.2).findSome? (fun p =>
    let a := e.1 + BitVec.ofNat 64 p.1
    match s.accessOp o.who.wg o.cu o.ctx a .read with
    | .at l t => if hasTags l t then none else some a
    | _ => none))

/-- A unit read from the source, with its largest WVT; under a check, with its block's tag. -/
inductive UnitRead where
  | ok (s : State) (bs : List Byte) (wvt : Nat) (tag : DWord)
  | fail (s : State) (wvt : Nat) (cause : BitVec 8) (detail : Nat) (addr tag : DWord)
  | wait
deriving DecidableEq, Repr

/-- The guard tag of the block at a virtual address, if it lies in HBM. -/
def State.tagAt (s : State) (o : Op) (va : DWord) : DWord :=
  match s.accessOp o.who.wg o.cu o.ctx va .read with
  | .at (.mem pa) _ => s.guardTag pa
  | _ => 0

/-- Reads `n` bytes of the source for a copy, its block checked against version `v` if one is given (R321). -/
def State.copyRead (s : State) (o : Op) (va : DWord) (n : Nat) (v : Option Nat) : UnitRead :=
  match s.engRead o.who.wg o.cu o.ctx va n refuseCe with
  | .wait => .wait
  | .fail s1 w c d a => .fail s1 w c d a 0
  | .ok s1 bs w =>
    match v.bind (fun x => s1.guardSpan o.who.wg o.cu o.ctx va n x) with
    | some (r, a) => .fail s1 w 0x24 r a (s1.tagAt o a)
    | none => .ok s1 bs w (s1.tagAt o va)

/-- Bytes of the source from `va` that a copy holds already. -/
def CopyArgs.heldAt (c : CopyArgs) (va : DWord) : List Byte :=
  match c.held with
  | some (a, bs) => if a.toNat ≤ va.toNat then bs.drop (va.toNat - a.toNat) else []
  | none => []

/-- Reads `n` bytes of the source at `va`: those held from the units before, and the rest up to the end of its last aligned 8-byte
unit, but not beyond `lim`, so that no aligned unit is read in parts (R77). -/
def State.copyFetch (s : State) (o : Op) (c : CopyArgs) (va : DWord) (n lim : Nat) (v : Option Nat) : UnitRead :=
  let had := c.heldAt va
  let stop := Nat.max n (Nat.min lim (n + (8 - (va.toNat + n) % 8) % 8))
  if n ≤ had.length then .ok s had 0 (s.tagAt o va)
  else match s.copyRead o (va + BitVec.ofNat 64 had.length) (stop - had.length) v with
    | .ok s1 bs w tag => .ok s1 (had ++ bs) w tag
    | x => x

/-- Counts bytes written by the copy engine: every 128 of a CU are one event 0x0C (R376). (Log 126 DESIGN CHOICE.) -/
def State.countBytes (s : State) (o : Op) (n : Nat) : State :=
  let u := s.cu o.cu
  (s.setCu o.cu { u with ceFrac := (u.ceFrac + n) % 128 }).countEv o.cu 0x0C ((u.ceFrac + n) / 128) (some o.ctx)

/-- Writes a unit's bytes and advances; on a failure the operation stops with its fault. -/
def State.copyPut (s : State) (o : Op) (c c' : CopyArgs) (va : DWord) (bs : List Byte) (tw : TagW) (fl : Fl) (w : Nat) : State :=
  match s.engWriteVa o.who.wg o.cu o.ctx va bs (fun a => match tw with | .stamp v _ => .stamp v a | x => x) refuseCe with
  | .ok s1 g => (s1.countBytes o bs.length).setOp { (o.saw w) with kind := .copy c', gwct := Nat.max o.gwct g, sticky := o.sticky ||| fl }
  | .fail s1 k d a => s1.copyFail (o.saw w) c k d a 0

/-- The expected version of a guarded copy: under SEG the header's, from byte 4 of the checked first block (R323). -/
def State.copyVersion (s : State) (o : Op) (c : CopyArgs) : Nat :=
  if gSeg c.guard then
    match c.segver with
    | some v => v
    | none => (match s.engRead o.who.wg o.cu o.ctx (c.src + 4) 2 refuseCe with | .ok _ bs _ => leNat bs % 4096 | _ => 0)
  else gVer c.guard

/-- Moves unit `off` of a linear copy (R326), with the source's 8-byte units read at once (R77). (Log 72 DEDUCED.) -/
def State.moveLinear (s : State) (o : Op) (c : CopyArgs) : State :=
  let u := unitOf c.dst.toNat c.len c.off
  let dva := c.dst + BitVec.ofNat 64 u.1
  let sva := c.src + BitVec.ofNat 64 u.1
  let checks := c.kind = 1 ∧ gMode c.guard ≠ 0
  let v := s.copyVersion o c
  match s.copyFetch o c sva u.2 (c.len - u.1) (if checks then some v else none) with
  | .wait => s
  | .fail s1 w k d a t => s1.copyFail (o.saw w) c k d a t
  | .ok s1 all w tag =>
    let bs := all.take u.2
    let carried := mkTag (fld tag 52 12) dva (tag.setWidth 32)
    let c' := { c with off := c.off + 1, held := some (sva + BitVec.ofNat 64 u.2, all.drop u.2) }
    if c.seg ∧ c.off = 0 then
      s1.setOp { o with kind := .copy { c' with segver := some v, first := some (bs, carried) }, ot := Nat.max o.ot w }
    else
      let tw := if c.kind = 0 then TagW.clear else match gMode c.guard with
        | 0 => .stamp (gVer c.guard) dva | 1 => .carry carried | _ => .clear
      s1.copyPut o c c' dva bs tw 0 w

/-- Moves one element of a tensor copy (R327). (Log 73 DESIGN CHOICE.) -/
def State.moveElement (s : State) (o : Op) (c : CopyArgs) (d x : ShapeRec) : State :=
  let sva := x.elemAt c.off
  let n := copySize x.fmt
  let lim := match s.accessOp o.who.wg o.cu o.ctx sva .read with | .at (.decant ..) _ => n | _ => 8
  match s.copyFetch o c sva n lim (if x.guard then some x.version else none) with
  | .wait => s
  | .fail s1 w k e a t => s1.copyFail (o.saw w) c k e a t
  | .ok s1 all w _ =>
    let bs := all.take n
    let tag := fun (f : Nat) => match f with | 0 => (3 : Tag) | 1 => 4 | 2 => 6 | _ => 7
    let r := if d.fmt = x.fmt then (leNat bs, (0 : Fl))
      else cvtTo (mRM c.hint) (mSAT c.hint) (tag d.fmt) (.f (FV.ofBits (operandFmt x.fmt) (leNat bs)))
    let dva := d.elemAt c.off
    s1.copyPut o c { c with off := c.off + 1, held := some (sva, all) } dva (leBytes r.1 (copySize d.fmt))
      (if d.guard then .stamp d.version dva else .clear) r.2 w

/-- Moves the elements of a tensor copy from `off` on whose destination lies in one aligned 8-byte unit, so that the unit is written at
once (R77): none if a line of their source has still to be rewritten. -/
def State.moveElements (s : State) (op : Nat) (d x : ShapeRec) : Nat → Option State
  | 0 => some s
  | k + 1 =>
    match s.op op with
    | none => some s
    | some o =>
      match o.kind with
      | .copy c =>
        let s1 := s.moveElement o c d x
        let unit := fun (i : Nat) => (d.elemAt i).toNat / 8
        (match s1.op op with
         | none => some s1
         | some y =>
           match y.kind, y.st with
           | .copy c1, .running =>
             if c1.off = c.off then none
             else if c1.off < c.units ∧ unit c1.off = unit c.off then s1.moveElements op d x k
             else some s1
           | _, _ => some s1)
      | _ => some s

/-- Moves one unit of a multicast fill into every selected rank (R328). -/
def State.moveMulti (s : State) (o : Op) (c : CopyArgs) : State :=
  let u := unitOf (fld c.dst 0 21) c.len c.off
  match s.copyRead o (c.src + BitVec.ofNat 64 u.1) u.2 none with
  | .wait => s
  | .fail s1 w k d a t => s1.copyFail (o.saw w) c k d a t
  | .ok s1 bs w _ =>
    let cl := (s.wg o.who.wg).cluster
    let s2 := (targetRanks c.dst).foldl (fun (t : State) r => match t.rankWg cl r with
      | some g => (bs.zipIdx).foldl (fun (y : State) e => y.setPad g (fld c.dst 0 21 + u.1 + e.2) e.1) t
      | none => t) s1
    (s2.countBytes o (bs.length * (targetRanks c.dst).length)).setOp
      { o with kind := .copy { c with off := c.off + 1 }, ot := Nat.max o.ot w }

/-- COPY_COMPLETE (R317): a running copy moves its next unit in copy order; after the last it completes, a segment copy once
its header is written, whose release waits for the write times and for the observed time of the rest (R88, R95, R323).
(Log 73 DESIGN CHOICE, 74 DESIGN CHOICE.) -/
def execCopyComplete (op : Nat) (s : State) : Host.Outcome State Fault Refusal :=
  match s.op op with
  | none => .next s
  | some o =>
    match o.kind, o.st with
    | .copy c, .running =>
      if c.off < c.units then
        match (if c.off = 0 then s.copyTagless o c else none) with
        | some a => .next (s.copyFail o c 0x4A 3 a 0)
        | none => .next (match c.kind, c.recD, c.recS with
            | 2, some d, some x => (s.moveElements op d x 8).getD s
            | 3, _, _ => s.moveMulti o c
            | _, _, _ => s.moveLinear o c)
      else
        match c.first with
        | some (bs, tag) =>
          if decide (4 ≤ o.scope.code) && decide (s.lease o.cu < Nat.max o.gwct o.ot) then .next s
          else .next (s.copyPut o c { c with first := none } c.dst bs (if gMode c.guard = 1 then .carry tag else .clear) 0 0)
        | none => .next ((s.copyFree o.cu op).settle o)
    | _, _ => .next s

end Sys2Proof.Machine
end

