-- ==== Sys2Proof/Machine/Te.lean ====
section
/-!
DEFINITION. The instructions of the translation engine: invalidation and its completion, probes (R212-R215), and the hardware
step that applies a posted invalidation.
-/
namespace Sys2Proof.Machine

/-- The range that an invalidation's form and operand words name (R212, R213): 0 a VA range, 1 an ASID, 2 everything. -/
def invRange (form : Nat) (a b : DWord) : InvRange :=
  match form with
  | 0 =>
    let g := match fld b 16 2 with | 0 => 4096 | 1 => 65536 | 2 => 2 ^ 21 | _ => 2 ^ 30
    let lo := a.toNat % 2 ^ 57 / g * g
    .va (b.setWidth 16) lo (lo + (fld b 18 10 + 1) * g)
  | 1 => .asid (a.setWidth 16)
  | _ => .all

/-- Does an invalidation cover some byte of a range of an ASID? -/
def InvRange.hits (r : InvRange) (asid : BitVec 16) (base n : Nat) : Bool :=
  match r with
  | .all => true
  | .asid a => a == asid
  | .va a lo hi => a == asid && decide (base < hi) && decide (lo < base + n)

/-- Are the earlier W accesses of the fibre performed at their homes (R213)? -/
def State.writesHome (s : State) : Bool := s.storesHome s.actor s.nextId clsW

/-- Posts an invalidation (R213): for a `.SYS` form each device of the share group is told and is to answer. -/
def State.postInv (s : State) (form : Nat) (a b : DWord) (sys : Bool) : State :=
  let c := s.myCtx
  let peers := if sys then c.share.filter (· ≠ s.fe.devid) else []
  let inv : Inv :=
    { id := s.nextId, fid := s.me.fid, range := invRange form a b, sys := sys, applied := false, mark := 0,
      waiting := peers, reply := none }
  let s1 := { s.bump with invs := s.invs ++ [inv] }
  let pay := leBytes form 8 ++ leBytes a.toNat 8 ++ leBytes b.toNat 8
  (peers.filter (fun d => !s.fe.dead.contains d)).foldl (fun (t : State) d =>
    t.newTx { t.blankPkt d 9 0 s.myWg.ctx with aux := 1, len := 24, payload := pay } inv.id 0) s1

/-- A `TLBINV` whose operands are checked: it waits for the fibre's stores, posts and completes. -/
def State.tlbinv (s : State) (form : Nat) (a b : DWord) (sys : Bool) : State :=
  if s.writesHome then (s.postInv form a b sys).retire else s.waitHere

/-- The `.VA` forms with the operand checks of R212. -/
def State.tlbinvVa (s : State) (a b : DWord) (sys : Bool) : State :=
  if !canonical a then s.take 0x26 1
  else if fld b 28 36 ≠ 0 then s.take 0x26 2
  else s.tlbinv 0 a b sys

/-- The `.ASID` forms with the operand check of R212. -/
def State.tlbinvAsid (s : State) (a : DWord) (sys : Bool) : State :=
  if fld a 16 48 ≠ 0 then s.take 0x26 1 else s.tlbinv 1 a 0 sys

/-- `TLBINV.VA.DEV` (R213). -/
def execTlbinvVaDev (a b : SReg) (s : State) : Host.Outcome State Fault Refusal :=
  issue (.tlbinvVaDev a b) s (fun s => s.tlbinvVa (s.sreg a.toNat) (s.sB b) false)
/-- `TLBINV.VA.SYS` (R213). -/
def execTlbinvVaSys (a b : SReg) (s : State) : Host.Outcome State Fault Refusal :=
  issue (.tlbinvVaSys a b) s (fun s => s.tlbinvVa (s.sreg a.toNat) (s.sB b) true)
/-- `TLBINV.ASID.DEV` (R213). -/
def execTlbinvAsidDev (a : SReg) (s : State) : Host.Outcome State Fault Refusal :=
  issue (.tlbinvAsidDev a) s (fun s => s.tlbinvAsid (s.sreg a.toNat) false)
/-- `TLBINV.ASID.SYS` (R213). -/
def execTlbinvAsidSys (a : SReg) (s : State) : Host.Outcome State Fault Refusal :=
  issue (.tlbinvAsidSys a) s (fun s => s.tlbinvAsid (s.sreg a.toNat) true)
/-- `TLBINV.ALL.DEV` (R213). -/
def execTlbinvAllDev (s : State) : Host.Outcome State Fault Refusal := issue .tlbinvAllDev s (fun s => s.tlbinv 2 0 0 false)
/-- `TLBINV.ALL.SYS` (R213). -/
def execTlbinvAllSys (s : State) : Host.Outcome State Fault Refusal := issue .tlbinvAllSys s (fun s => s.tlbinv 2 0 0 true)

/-- Does an invalidation cover a sector that a request reaches through the address of one of its lanes? -/
def Part.under (p : Part) (r : InvRange) (asid : BitVec 16) : Bool :=
  (p.va :: p.alt.map (·.2.1)).any (fun a => r.hits asid (sectorOf (a.toNat % 2 ^ 57)) 32)

/-- Is every access translated through an entry that an applied invalidation removed performed, or for peer memory
acknowledged (R214)? (Log 175 DESIGN CHOICE.) -/
def State.invSettled (s : State) (v : Inv) : Bool :=
  v.applied && s.ops.all (fun o => !decide (o.id < v.mark) || o.parts.all (fun p =>
    !(match p.loc with | .mem _ | .peer .. => true | _ => false) ||
    !p.under v.range (s.ctx o.ctx).asid ||
    (match o.kind with
     | .monitor .. => s.opPerformed o .device
     | .load .. => p.st == .bound || p.st == .done
     | _ => p.st == .performed || p.st == .done)) &&
    (match o.kind with
     | .xfer x => o.st == .settling || !(v.range.hits (s.ctx o.ctx).asid (x.dva.toNat % 2 ^ 57) x.len ||
         v.range.hits (s.ctx o.ctx).asid (x.sva.toNat % 2 ^ 57) x.len)
     | .trace va .. => !v.range.hits (s.ctx o.ctx).asid (va.toNat % 2 ^ 57) 16
     | .spgFlush d _ (some _) => o.st == .settling || !v.range.hits (s.ctx o.ctx).asid (d.toNat % 2 ^ 57) 16
     | _ => true)) &&
  s.cus.all (fun e => e.2.mxRuns.all (fun r =>
    !((s.op r.op).any (fun o => ((r.img.getD []).drop r.t).any (fun w => (match w.1 with | .mem _ | .peer .. => true | _ => false) &&
      v.range.hits (s.ctx o.ctx).asid (w.2.1.toNat % 2 ^ 57) w.2.2.length)))))

/-- Removes what an invalidation names from every structure of the device (R209, R213, R304): leaves, table pointers, rack
lines; a failed walk is made again; a `.SYS` form also removes the copies of read-only peer pages (R100). -/
def State.applyInv (s : State) (v : Inv) : State :=
  let leaf := fun (l : TLeaf) => !v.range.hits l.asid l.base l.bytes
  let cu := fun (u : Cu) => { u with
    qleaf := u.qleaf.map (fun e => (e.1, e.2.filter leaf))
    leaves := u.leaves.filter leaf
    tables := u.tables.filter (fun t => !v.range.hits t.asid t.base (leafBytes (t.level + 1)))
    coal := u.coal.map (fun e => if v.range.hits e.asid (e.page.toNat % 2 ^ 57) 4096 then { e with fail := none } else e)
    rack := u.rack.filter (fun x => !v.range.hits x.asid x.page x.bytes) }
  { s with
    cus := s.cus.map (fun e => (e.1, cu e.2))
    peerL2 := if v.sys then s.peerL2.filter (fun x => !v.range.hits x.asid x.page x.bytes) else s.peerL2
    invs := s.invs.map (fun x => if x.id = v.id then { x with applied := true, mark := s.nextId } else x) }

/-- INVALIDATION_APPLY (R213, R214): a posted invalidation removes what it covers; one that a peer asked for is acknowledged
when it is complete. -/
def execInvalidationApply (inv : Nat) (s : State) : Host.Outcome State Fault Refusal :=
  match s.invs.find? (fun v => v.id == inv) with
  | none => .next s
  | some v =>
    if !v.applied then .next (s.applyInv v)
    else match v.reply with
      | some p =>
        if s.invSettled v then
          let s1 := { s with invs := s.invs.filter (fun x => x.id ≠ inv) }
          .next (s1.launchPacket (ackOf p false) 1)
        else .next s
      | none => .next s

/-- A `TLBSYNC` (R214). (Log 176 DESIGN CHOICE.) -/
def State.tlbsync (s : State) (sys : Bool) : State :=
  let mine := s.invs.filter (fun v => v.fid == s.me.fid && v.reply.isNone)
  if mine.any (fun v => !s.invSettled v) then s.waitHere
  else if !sys then s.retire
  else
    let open' := mine.flatMap (·.waiting)
    match open'.find? (fun d => s.fe.dead.contains d) with
    | some d =>
      let s1 : State := { s with invs := s.invs.map (fun (v : Inv) =>
        if v.fid = s.me.fid then { v with waiting := v.waiting.filter (· ≠ d) } else v) }
      s1.take 0x50 (deadDetail d)
    | none =>
      if open'.isEmpty then ({ s with invs := s.invs.filter (fun v => !(v.fid == s.me.fid && v.reply.isNone)) } : State).retire
      else s.waitHere

/-- `TLBSYNC.DEV` (R214). -/
def execTlbsyncDev (s : State) : Host.Outcome State Fault Refusal := issue .tlbsyncDev s (fun s => s.tlbsync false)
/-- `TLBSYNC.SYS` (R214). -/
def execTlbsyncSys (s : State) : Host.Outcome State Fault Refusal := issue .tlbsyncSys s (fun s => s.tlbsync true)

/-- The result word of a probe that would proceed (R215). -/
def State.atransOk (s : State) (l : Loc) (t : Option TLeaf) (va : DWord) : DWord :=
  match l, t with
  | .decant .., _ => BitVec.ofNat 64 (1 + 2 + 32)
  | _, none => 1
  | _, some e =>
    let b := fun (n k : Nat) => if e.pte.getLsbD n then 2 ^ k else 0
    let pa := e.pa va / 4096 * 4096
    let addr := if s.myCtx.priv then (if e.pte.getLsbD 11 then pa % 2 ^ 40 + e.dev.toNat * 2 ^ 40 else pa) else 0
    BitVec.ofNat 64 (1 + 2 * e.size + b 11 3 + b 3 4 + b 9 5 + b 10 6 + b 8 7 + b 7 8 + fld e.pte 56 3 * 512 + addr)

/-- The result word of a probe that would not: CAUSE, LEVEL, REASON (R215). -/
def atransFail (cause : BitVec 8) (level detail : Nat) : DWord :=
  BitVec.ofNat 64 (cause.toNat * 2 + level * 512 + bitsN detail 0 4 * 4096)

/-- The level at which the walk of a probe stopped: that of its failure, and for a page kind that refuses the access that of the
leaf (R215). -/
def State.atransLevel (s : State) (va : DWord) (cause : BitVec 8) (detail : Nat) : Nat :=
  if cause ≠ 0x23 then bitsN detail 4 3
  else match s.accessMe va .read with
    | .at _ (some t) => t.level
    | .fail _ x => bitsN x 4 3
    | _ => 0

/-- `ATRANS` (R215). -/
def execAtrans (d a : SReg) (n : BitVec 2) (s : State) : Host.Outcome State Fault Refusal :=
  issue (.atrans d a n) s (fun s =>
    let va := s.sreg a.toNat
    let need := match n.toNat with | 0 => Need.read | 1 => .amo | _ => .exec
    match s.accessMe va need with
    | .miss => (s.joinWalks [va]).waitHere
    | .at l t => (s.setS d.toNat (s.atransOk l t va)).dropWalks.retire
    | .fail c det => (s.setS d.toNat (atransFail c (s.atransLevel va c det) det)).dropWalks.retire)

end Sys2Proof.Machine
end

