-- ==== Sys2Proof/Machine/Fabric.lean ====
section
/-!
DEFINITION. The fabric engine's instructions and the hardware steps of its source side: bulk transfers, receive counters and
triggered sends, sending and replaying packets (R345, R348, R352-R362).
-/
namespace Sys2Proof.Machine

-- Ranges (R360) -----------------------------------------------------------------------------------------------------------

/-- Where a range is cut for its translation: at pages, and in the windows at 32 bytes. -/
def cuts (va n : Nat) : List Nat :=
  (List.range (n / 4096 + 2)).flatMap (fun i =>
    let p := (va / 4096 + i) * 4096
    let at' := fun (lo : Nat) (k : Nat) => if Nat.max va lo < Nat.min (va + n) (lo + k) then [Nat.max va lo - va] else []
    if inWindow (BitVec.ofNat 64 (Nat.max va p)) then (List.range 128).flatMap (fun j => at' (p + 32 * j) 32) else at' p 4096)

/-- What translating a range gives. -/
inductive Span where
  | ok (rs : List Run) (pinned : Bool)
  | fail (cause : BitVec 8) (detail : Nat) (addr : DWord)
  | miss (vas : List DWord)
deriving DecidableEq, Repr

/-- Translates every page of a range in ascending address; the lowest that fails decides (R210, R360). `pinned` says that every
page is PINNED (R206). -/
def span (look : DWord → Access) (va : DWord) (n : Nat) : Span :=
  let rs := (cuts va.toNat n).map (fun o => (o, look (va + BitVec.ofNat 64 o)))
  let at' := fun (o : Nat) => va + BitVec.ofNat 64 o
  match rs.filterMap (fun e => match e.2 with | .miss => some (at' e.1) | _ => none) with
  | v :: vs => .miss (v :: vs)
  | [] =>
    match rs.find? (fun e => match e.2 with | .fail .. => true | _ => false) with
    | some (o, .fail c d) => .fail c (engDetail c d) (at' o)
    | _ =>
      .ok (rs.filterMap (fun e => match e.2 with | .at l _ => some { off := e.1, loc := l } | _ => none))
        (rs.all (fun e => match e.2 with | .at _ (some t) => t.pte.getLsbD 7 && !t.pte.getLsbD 10 | _ => false))

/-- The place of a byte of a translated range. -/
def placeAt (rs : List Run) (off : Nat) : Option Loc :=
  ((rs.filter (fun r => decide (r.off ≤ off))).getLast?).map (fun r => r.loc.plus (off - r.off))

/-- Does a place store guard tags: in HBM (R319)? An MMIO page never lies there. -/
def Run.tagged (r : Run) : Bool := r.loc.isHbm

/-- The peers of a range. -/
def peersOf (rs : List Run) : List (BitVec 16) := rs.filterMap (fun r => match r.loc with | .peer d _ => some d | _ => none)

/-- What the checks of a transfer decide. -/
inductive Plan where
  | ok (x : XferArgs)
  | fail (cause : BitVec 8) (detail : Nat) (addr : DWord)
  | miss (vas : List DWord)
deriving DecidableEq, Repr

/-- The checks of a transfer after those of its length and guard word, in the order of R360: overlap, translation of the
destination and the source, locality, tag storage, dead peer, route. (Log 82 DEDUCED.) -/
def State.plan (s : State) (look : Need → DWord → Access) (get : Bool) (g : Option DWord) (d a : DWord) (n : Nat) : Plan :=
  if overlaps a d n then .fail 0x51 7 0
  else match span (look .write) d n with
    | .miss vs => .miss vs
    | .fail c e v => .fail c e v
    | .ok ds _ =>
      match span (look .read) a n with
      | .miss vs => .miss vs
      | .fail c e v => .fail c e v
      | .ok ss _ =>
        let local' := if get then ds else ss
        if !(peersOf local').isEmpty then .fail 0x51 8 0
        else if g.isSome ∧ ((ds ++ ss).any (fun r => !isPeer r.loc && !r.tagged)) then .fail 0x51 5 0
        else
          let ps := peersOf (ds ++ ss)
          let first := fun (p : BitVec 16) => (((ds.find? (fun r => peersOf [r] == [p])).map (fun r => d + BitVec.ofNat 64 r.off)).orElse
            (fun _ => (ss.find? (fun r => peersOf [r] == [p])).map (fun r => a + BitVec.ofNat 64 r.off))).getD 0
          match ps.find? (fun p => s.fe.dead.contains p), ps.find? (fun p => !s.hasRoute p) with
          | some p, _ => .fail 0x50 (deadDetail p) (first p)
          | none, some p => .fail 0x52 (deadDetail p) (first p)
          | none, none =>
            .ok { get := get, guard := g, len := n, dva := d, sva := a, dst := ds, src := ss, sent := 0, acked := 0, hold := [], wrote := [] }

-- Making packets (R345, R360) ---------------------------------------------------------------------------------------------

/-- Bits 26:7 of an address (R318). -/
def lbaOf (va : DWord) : Nat := fld va 7 20

/-- The next packet, or local piece, of a transfer that has not failed: one at a time waits to be sent. A packet of a put ends on a 256-byte boundary
of its destination; a get asks for up to 4,096 bytes of one page. Type 0 marks a local piece. (Log 157 DESIGN CHOICE.) -/
def State.xferNext (s : State) (id : Nat) : State :=
  match s.op id with
  | some o =>
    (match o.kind with
     | .xfer x =>
       if x.len ≤ x.sent ∨ o.fault.isSome then s
       else
         let rem := x.len - x.sent
         let d := x.dva + BitVec.ofNat 64 x.sent
         let a := x.sva + BitVec.ofNat 64 x.sent
         let n := Nat.min rem (256 - d.toNat % 256)
         let far := fun (dev : BitVec 16) (pa : Nat) (ty : BitVec 8) (k : Nat) (aux : Nat) =>
           s.newTx { s.blankPkt dev ty 2 o.ctx with
             addr := BitVec.ofNat 40 pa, aux := BitVec.ofNat 32 aux, len := BitVec.ofNat 9 k } id x.sent
         match x.get, placeAt x.dst x.sent, placeAt x.src x.sent with
         | false, some (.peer dev pa), _ =>
           (match x.guard with
            | some g => far dev pa 5 n (lbaOf d + gVer g * 2 ^ 20)
            | none => far dev pa 4 n 0)
         | true, _, some (.peer dev pa) =>
           far dev pa (if x.guard.isSome then 7 else 6) 0 (Nat.min rem (4096 - a.toNat % 4096))
         | _, _, _ => s.newTx { s.blankPkt s.fe.devid 0 2 o.ctx with len := BitVec.ofNat 9 n } id x.sent
     | _ => s)
  | none => s

/-- DETAIL of a transfer's fault after issue: DETAIL[46:8] is the committed offset (R360). (Log 84 DEDUCED.) -/
def State.xferDetail (s : State) (o : Op) (detail : Nat) : Nat :=
  match o.kind with
  | .xfer x => detail + s.committed o.id x % 2 ^ 39 * 256
  | _ => detail

/-- Records that `n` more bytes of a transfer were handed on, and makes its next packet. -/
def State.xferSent (s : State) (id n : Nat) : State :=
  match s.op id with
  | some o =>
    (match o.kind with
     | .xfer x => (s.setOp { o with kind := .xfer { x with sent := x.sent + n } }).xferNext id
     | _ => s)
  | none => s

/-- Reads `n` bytes of a transfer's source from offset `off`, from the homes without lease; none while a line is poisoned. -/
def State.xferBytes (s : State) (cid : BitVec 12) (x : XferArgs) (off n : Nat) : Option (State × List Byte × Nat) :=
  (pieces (x.sva + BitVec.ofNat 64 off).toNat n).foldl (fun acc p =>
    match acc, placeAt x.src (off + p.1) with
    | some (t, bs, w), some l =>
      if t.mustScrub l p.2 then none
      else
        let (t1, b, w1) := t.readAs cid l p.2
        some (t1, bs ++ b, Nat.max w w1)
    | _, _ => none) (some (s, [], 0))

/-- The bytes of a transfer's next packet of `n` from offset `off`: those held from the packet before, and the rest read up to
the end of its last aligned 8-byte unit; what lies past the packet is held for the next one, so that no unit is read twice
(R77). -/
def State.xferRead (s : State) (cid : BitVec 12) (x : XferArgs) (off n : Nat) : Option (State × List Byte × Nat × List (Nat × Byte)) :=
  let had := (x.hold.filter (fun e => decide (off ≤ e.1))).map (·.2)
  let from' := off + had.length
  let e := x.sva.toNat + off + n
  let stop := Nat.max from' (Nat.min x.len (off + n + (8 - e % 8) % 8))
  (s.xferBytes cid x from' (stop - from')).map (fun r =>
    let bs := had ++ r.2.1
    (r.1, bs.take n, r.2.2, (bs.drop n).zipIdx.map (fun b => (off + n + b.2, b.1))))

/-- Which of the bytes of a get that have arrived can be written now: those of an aligned 8-byte unit of the destination that has
all its bytes in the transfer (R77). Gives the first offset, the bytes, and what still waits. -/
def XferArgs.ready (x : XferArgs) (off : Nat) (bs : List Byte) : Nat × List Byte × List (Nat × Byte) :=
  let new := bs.zipIdx.map (fun b => (off + b.2, b.1))
  let at' := fun (i : Nat) =>
    if off ≤ i ∧ i < off + bs.length then bs[i - off]? else (x.hold.find? (fun e => e.1 == i)).map (·.2)
  let whole := fun (i : Nat) =>
    let o := (x.dva.toNat + i) % 8
    (List.range 8).all (fun b => decide (i + b < o) || decide (x.len ≤ i + b - o) || (at' (i + b - o)).isSome)
  let lo := off - 7
  let out := ((List.range (off + bs.length + 7 - lo)).map (lo + ·)).filter (fun i => (at' i).isSome && whole i)
  (out.headD off, out.filterMap at', (x.hold ++ new).filter (fun e => !whole e.1))

/-- Writes bytes of a transfer to its local destination from offset `off`; `tw` gives the guard tag of each block. Gives the
GWCT and the physical bytes that landed. -/
def State.xferWrite (s : State) (o : Op) (x : XferArgs) (off : Nat) (bs : List Byte) (tw : Nat → TagW) :
    State × Nat × List (Nat × Nat) :=
  (pieces (x.dva + BitVec.ofNat 64 off).toNat bs.length).foldl (fun (acc : State × Nat × List (Nat × Nat)) p =>
    match placeAt x.dst (off + p.1) with
    | some l =>
      let t := if l.isHbm then (List.range 4).foldl (fun (u : State) i => u.rackDrop o.cu (l.pa + 32 * i)) acc.1 else acc.1
      let (t1, g) := t.writeLoc o.ctx l ((bs.drop p.1).take p.2) (tw p.1)
      (t1, Nat.max acc.2.1 g, if l.isHbm then acc.2.2 ++ [(l.pa, p.2)] else acc.2.2)
    | none => acc) (s, 0, [])

/-- The guard tags of the blocks of a transfer's source from offset `off`. -/
def State.xferTags (s : State) (x : XferArgs) (off n : Nat) : List DWord :=
  (List.range (n / 128)).map (fun i => match placeAt x.src (off + 128 * i) with | some l => s.guardTag l.pa | none => 0)

/-- The sender's checks 1 and 3 of R321 on the tag of a block read at an address: the reason that fails (R360).
(Log 87 DEDUCED.) -/
def senderCheck (t : DWord) (va : DWord) : Option Nat :=
  if fld t 52 12 = 0 then some 1 else if fld t 32 20 ≠ lbaOf va then some 3 else none

/-- The receiver's checks 2 and 4 of R321 on a block that arrives with its tag, against version `v` (R360). (Log 86 DEDUCED.) -/
def receiverCheck (t : DWord) (v : Nat) (bs : List Byte) : Option Nat :=
  if v ≠ 0 ∧ fld t 52 12 ≠ v then some 2 else if fld t 0 32 ≠ (crc32c bs).toNat then some 4 else none

/-- The first block of a list of tags that fails a check, by its place. -/
def firstBad (f : Nat → DWord → Option Nat) (ts : List DWord) : Option (Nat × Nat) :=
  (ts.zipIdx).findSome? (fun e => (f e.2 e.1).map (fun r => (e.2, r)))

/-- Version and CRC of a checked tag with the address of its destination (R320, R360). (Log 87 DEDUCED.) -/
def carryTag (t : DWord) (dva : DWord) : TagW := .carry (mkTag (fld t 52 12) dva (t.setWidth 32))

/-- DETAIL of a guard failure found by the fabric: consumer 2 (R322). (Log 84 DEDUCED.) -/
def fabGuard (r : Nat) : Nat := r + 32

/-- Is the transfer's guard word in carry mode? -/
def XferArgs.carries (x : XferArgs) : Bool := match x.guard with | some g => gMode g == 1 | none => false

/-- A piece of a transfer whose ends are both local, with the effects of the packet it stands for (R360): reads, guards, the
write, and the landing once its GWCT has passed. (Log 101 DEDUCED.) -/
def State.localPiece (s : State) (t : TxPkt) (o : Op) (x : XferArgs) : State :=
  let n := t.pkt.len.toNat
  let off := t.part
  match s.xferRead o.ctx x off n with
  | none => s
  | some (s1, bs, w, ahead) =>
    let ts := s1.xferTags x off n
    let sva := fun (i : Nat) => x.sva + BitVec.ofNat 64 (off + 128 * i)
    let dva := fun (i : Nat) => x.dva + BitVec.ofNat 64 (off + 128 * i)
    let v := (x.guard.map gVer).getD 0
    let bad := if x.carries then
        firstBad (fun i g => (senderCheck g (sva i)).orElse (fun _ => receiverCheck g v ((bs.drop (128 * i)).take 128))) ts
      else none
    match bad with
    | some (i, r) => (s1.dropTx t.id).feFail o 0x24 (s1.xferDetail o (fabGuard r)) (sva i)
    | none =>
      let tw := fun (p : Nat) => match x.guard with
        | none => TagW.clear
        | some g => if gMode g = 1 then carryTag (ts.getD (p / 128) 0) (dva (p / 128)) else .stamp (gVer g) (dva (p / 128))
      let (s2, g, landed) := (s1.dropTx t.id).xferWrite o x off bs tw
      let o1 := (s2.op o.id).getD o
      let y := { x with hold := ahead, wrote := x.wrote ++ [(off, n)] }
      let s3 := (s2.setOp { o1 with ot := Nat.max o1.ot w, kind := .xfer y }).xferSent o.id n
      s3.answerAfter { Owed.none with gwct := g, landed := if x.get then [] else landed, op := o.id, len := n }

-- Sending and replaying (R345, R348) --------------------------------------------------------------------------------------

/-- Bytes in the retry buffer. (Log 78 DEDUCED.) -/
def State.retryBytes (s : State) : Nat :=
  (s.fe.tx.map (fun t => if t.st = .waiting then 0 else t.pkt.bytes.length)).sum

/-- May one more packet be sent to a destination in a class: fewer than 4,096 of its packets are unacknowledged, and the 48 MiB
retry buffer has room (R345)? (Log 78 DEDUCED.) -/
def State.mayHold (s : State) (p : Packet) : Bool :=
  decide ((s.fe.tx.filter (fun t => t.pkt.dst == p.dst && t.pkt.tc == p.tc && t.st != .waiting)).length < 4096) &&
  decide (s.retryBytes + p.bytes.length ≤ 48 * 2 ^ 20)

/-- Puts a numbered packet on its way on route `r` or the next whose first hop is up, and starts its timer (R348). With no first
hop up it is sent on route 3 and lost. (Log 79 DEDUCED.) -/
def State.transmit (s : State) (t : TxPkt) (p : Packet) (r : Nat) : State :=
  let hold := fun (q : Packet) => s.setTx { t with pkt := q, st := .sent, deadline := s.feTime + s.fe.fertimer.toNat }
  if p.dst = s.fe.devid then
    let q := { p with route := BitVec.ofNat 2 r }
    let s1 := hold q
    { s1 with agenda := s1.agenda ++ [.packet { p with route := 1 } false 0] }
  else match s.pickRoute p r with
    | some (q, g, n) => (hold q).sendOn g n 0 q
    | none => hold ((s.onRoute p 3).getD { p with route := 3 })

/-- The first sending of a waiting packet: it takes the next number of its destination and class (R345). (Log 77 DEDUCED.) -/
def State.firstSend (s : State) (t : TxPkt) (p : Packet) : State :=
  let k := (p.dst, p.tc)
  let n := Tbl.get s.fe.nextSeq k 0
  let s1 : State := { s with fe := { s.fe with
    nextSeq := Tbl.set s.fe.nextSeq k (n + 1), replayed := s.fe.replayed.filter (· ≠ (p.dst, p.tc, n)) } }
  s1.transmit t { p with seq := n } 1

/-- The first sending of an operation's packet: an event 0x0D of its CU (R376). -/
def State.sendFor (s : State) (o : Op) (t : TxPkt) (p : Packet) : State := (s.firstSend t p).countEv o.cu 0x0D 1 (some o.ctx)

/-- A waiting packet of a put: its bytes are read now, and under carry its tags checked (R360). -/
def State.sendPut (s : State) (t : TxPkt) (o : Op) (x : XferArgs) : State :=
  let n := t.pkt.len.toNat
  match s.xferRead o.ctx x t.part n with
  | none => s
  | some (s1, bs, w, ahead) =>
    let ts := s1.xferTags x t.part n
    let sva := fun (i : Nat) => x.sva + BitVec.ofNat 64 (t.part + 128 * i)
    match (if x.carries then firstBad (fun i g => senderCheck g (sva i)) ts else none) with
    | some (i, r) => s1.feFail o 0x24 (s1.xferDetail o (fabGuard r)) (sva i)
    | none =>
      let trailer := if x.guard.isNone then [] else if x.carries then [ts.getD 0 0, ts.getD 1 0] else [0, 0]
      let s2 := s1.setOp { o with ot := Nat.max o.ot w, kind := .xfer { x with hold := ahead } }
      (s2.sendFor o t { t.pkt with payload := bs, trailer := trailer }).xferSent o.id n

/-- A waiting message: its body is read locally now (R364). -/
def State.sendMsg (s : State) (t : TxPkt) (o : Op) (word : DWord) (n : Nat) : State :=
  match s.engRead o.who.wg o.cu o.ctx word n (fun l _ => if isPeer l then some (0x51, 8) else none) with
  | .wait => s
  | .fail s1 w c d a => s1.feFail (o.saw w) c d a
  | .ok s1 bs w => (s1.setOp (o.saw w)).sendFor o t { t.pkt with payload := bs }

/-- A part of an operation whose packet entered the retry buffer (R350). -/
def Op.partSent (o : Op) (k : Nat) : Op :=
  match o.parts[k]? with
  | some p => o.setPart k { p with st := if p.st = .todo then .sent else p.st }
  | none => o

/-- PACKET_SEND (R345, R350): a waiting packet enters the window and the retry buffer and is sent. A store is then performed at
device scope; an atomic waits for its release. (Log 5 DESIGN CHOICE, 77 DEDUCED.) -/
def execPacketSend (tx : Nat) (s : State) : Host.Outcome State Fault Refusal :=
  match s.fe.tx.find? (fun t => t.id == tx) with
  | none => .next s
  | some t =>
    if t.st ≠ .waiting then .next s
    else match s.op t.op with
      | some o =>
        (match o.kind with
         | .xfer x =>
           if t.pkt.ty = 0 then .next (s.localPiece t o x)
           else if !s.mayHold { t.pkt with payload := List.replicate t.pkt.len.toNat 0, trailer := [0, 0] } then .next s
           else if x.get then .next ((s.sendFor o t t.pkt).xferSent o.id t.pkt.aux.toNat)
           else .next (s.sendPut t o x)
         | .msend _ _ va _ =>
           if s.mayHold { t.pkt with payload := List.replicate t.pkt.len.toNat 0 } then
             .next (s.sendMsg t o va t.pkt.len.toNat)
           else .next s
         | _ =>
           if s.mayHold t.pkt && s.gateOpen o then .next ((s.setOp (o.partSent t.part)).sendFor o t t.pkt) else .next s)
      | none => .next (if s.mayHold t.pkt then s.firstSend t t.pkt else s)

/-- FE_REPLAY_TIMER (R348): a packet that is not answered in time is sent again on the next route; after route 3 the peer is
dead. (Log 80 DEDUCED.) -/
def execFeReplayTimer (tx : Nat) (s : State) : Host.Outcome State Fault Refusal :=
  match s.fe.tx.find? (fun t => t.id == tx) with
  | some t =>
    if t.st = .sent ∧ t.deadline ≤ s.feTime then
      if t.pkt.route = 3 then .next (s.markDead t.pkt.dst)
      else
        let r := t.pkt.route.toNat + 1
        let k := (t.pkt.dst, t.pkt.tc, t.pkt.seq)
        let s0 : State := { s with fe := { s.fe with
          replays := s.fe.replays + 1, replayed := k :: s.fe.replayed.filter (· ≠ k) } }
        let s1 := match s0.op t.op with | some o => s0.countEv o.cu 0x0E 1 (some o.ctx) | none => s0
        let t1 := { t with replayed := true }
        let q := (s.onRoute t.pkt r).getD { t.pkt with route := BitVec.ofNat 2 r }
        let s2 := s1.setTx { t1 with pkt := q, deadline := s.feTime + s.fe.fertimer.toNat }
        if q.dst = s.fe.devid then .next { s2 with agenda := s2.agenda ++ [.packet { q with route := 1 } false 0] }
        else match (s.onRoute t.pkt r).bind s.nextHop with
          | some (g, n) => .next (if s.hopUp (g, n) then s2.sendOn g n 0 q else s2)
          | none => .next s2
    else .next s
  | none => .next s

/-- MSG_BACKOFF_RESEND (R358): without a grant a message answered BUSY is sent again. (Log 96 DEDUCED.) -/
def execMsgBackoffResend (tx : Nat) (s : State) : Host.Outcome State Fault Refusal :=
  match s.fe.tx.find? (fun t => t.id == tx) with
  | some t => if t.st = .busy ∧ t.deadline ≤ s.feTime then .next (s.transmit t t.pkt 1) else .next s
  | none => .next s

-- Bulk transfers (R360, R361) -----------------------------------------------------------------------------------------------

/-- Issues a transfer, or ends the unit with what its checks decided. -/
def State.bulk (s : State) (get : Bool) (g : Option DWord) (d a : DWord) (n : Nat) (f : BitVec 1) (wrap : XferArgs → OpKind) : State :=
  match s.plan (fun need va => s.accessMe va need) get g d a n with
  | .miss vas => (s.joinWalks vas).waitHere
  | .fail c e v => (s.takeAt c e v 0 none).dropWalks
  | .ok x =>
    let o := { s.newOp (wrap x) (s.flagSel f) s.me.mask (clsCR ||| clsCW) .system with st := .running }
    s.emitWith o (fun t => t.xferNext o.id)

/-- Does a guard word of `PUT.G` or `GET.G` break R360? -/
def badGuard (get : Bool) (g : DWord) : Bool :=
  g.getLsbD 3 || fld g 16 48 != 0 || decide (2 ≤ gMode g) || gSeg g || (get && gMode g == 0) || (gMode g == 0 && gVer g == 0)

/-- The guarded and plain transfers (R360). -/
def State.bulkOp (s : State) (get : Bool) (guarded : Bool) (l a b : SReg) (f : BitVec 1) : State :=
  let d := s.sreg a.toNat
  let x := s.sreg b.toNat
  let n := (s.sreg l.toNat).toNat
  let g := s.sreg (l.toNat + 1)
  if n = 0 then s.retire
  else if 2 ^ 32 ≤ n then s.take 0x51 2
  else if guarded && badGuard get g then s.take 0x51 5
  else if guarded && (d.toNat % 128 != 0 || x.toNat % 128 != 0 || n % 128 != 0) then s.take 0x51 3
  else s.bulk get (if guarded then some g else none) d x n f .xfer

/-- `PUT` (R360). -/
def execPut (l a b : SReg) (f : BitVec 1) (s : State) : Host.Outcome State Fault Refusal :=
  issue (.put l a b f) s (fun s => s.bulkOp false false l a b f)
/-- `PUT.G` (R360). -/
def execPutG (l a b : SReg) (f : BitVec 1) (s : State) : Host.Outcome State Fault Refusal :=
  issue (.putG l a b f) s (fun s => s.bulkOp false true l a b f)
/-- `GET` (R360). -/
def execGet (l a b : SReg) (f : BitVec 1) (s : State) : Host.Outcome State Fault Refusal :=
  issue (.get l a b f) s (fun s => s.bulkOp true false l a b f)
/-- `GET.G` (R360). -/
def execGetG (l a b : SReg) (f : BitVec 1) (s : State) : Host.Outcome State Fault Refusal :=
  issue (.getG l a b f) s (fun s => s.bulkOp true true l a b f)

/-- `TSEND` (R361): the checks of `PUT`, then it is armed; 4,096 armed sends fit a CU (R355). (Log 83 DEDUCED.) -/
def execTsend (p a b : SReg) (f : BitVec 1) (s : State) : Host.Outcome State Fault Refusal :=
  issue (.tsend p a b f) s (fun s =>
    let w := s.sreg p.toNat
    let w2 := s.sreg (p.toNat + 1)
    let n := fld w 0 36
    let armed := (s.ops.filter (fun o => o.cu == s.myWg.cu && !s.isSaved o.who.wg && (match o.kind with | .tsend .. => true | _ => false))).length
    if fld w 36 4 ≠ 0 ∨ fld w 48 16 ≠ 0 ∨ fld w2 32 32 ≠ 0 ∨ n = 0 then s.take 0x51 4
    else if 2 ^ 32 ≤ n then s.take 0x51 2
    else if 4096 ≤ armed then s.waitHere
    else s.bulk false none (s.sreg a.toNat) (s.sreg b.toNat) n f (fun x => .tsend x (fld w 40 8) (w2.setWidth 32)))

/-- A receive counter of a workgroup. -/
def State.counter (s : State) (wg c : Nat) : RxCounter := Tbl.get (s.wg wg).counters c { value := 0, region := none }

/-- TSEND_FIRE (R355, R361): an armed send whose counter stands at or above its threshold becomes a put of its fibre; sends of
one counter fire in arming order. Its checks are made again, and their faults are the operation's: at a dead peer FAULTADDR is the
first destination byte, none being committed (R360). (Log 83 DEDUCED.) -/
def execTsendFire (op : Nat) (s : State) : Host.Outcome State Fault Refusal :=
  match s.op op with
  | some o =>
    (match o.kind with
     | .tsend x c th =>
       let v := (s.counter o.who.wg c).value
       let earlier := s.ops.any (fun p => decide (p.id < op) && p.who.wg == o.who.wg && (match p.kind with
         | .tsend _ c' th' => c' == c && decide (th'.toNat ≤ v.toNat)
         | _ => false))
       if v.toNat < th.toNat ∨ earlier then .next s
       else match s.plan (fun need va => s.accessOp o.who.wg o.cu o.ctx va need) false none x.dva x.sva x.len with
         | .ok y => .next ((s.setOp { o with kind := .xfer y }).xferNext op)
         | .fail cz d a => .next (s.feFail o cz d (if cz = 0x50 then x.dva else a))
         | .miss _ => .next s
     | _ => .next s)
  | none => .next s

-- Receive counters (R354, R362) ---------------------------------------------------------------------------------------------

/-- Does a counter word break R362: bits 31:8, and without an initial value bits 63:32, are zero? -/
def badCounter (w : DWord) (init : Bool) : Bool := fld w 8 24 != 0 || (!init && fld w 32 32 != 0)

/-- `CNT.RD` (R362). -/
def execCntRd (d c : SReg) (s : State) : Host.Outcome State Fault Refusal :=
  issue (.cntRd d c) s (fun s =>
    let w := s.sreg c.toNat
    if badCounter w false then s.take 0x51 4
    else (s.setS d.toNat ((s.counter s.actor.wg (fld w 0 8)).value.setWidth 64)).retire)

/-- The physical runs of a region's pages, consecutive frames joined (R354). -/
def physRuns (rs : List Run) (n : Nat) : List (Nat × Nat) :=
  (rs.zipIdx.foldl (fun (acc : List (Nat × Nat)) e =>
    let stop := match rs[e.2 + 1]? with | some r => r.off | none => n
    let len := stop - e.1.off
    match acc with
    | (pa, k) :: t => if pa + k = e.1.loc.pa then (pa, k + len) :: t else (e.1.loc.pa, len) :: acc
    | [] => [(e.1.loc.pa, len)]) []).reverse

/-- The check of a region for a counter of the running fibre's workgroup (R354): its physical runs. The counter's own old region is
freed only after the check (R362), so it counts. (Log 89 DEDUCED.) -/
def State.regionCheck (s : State) (b : DWord) (n : Nat) : Span × List (Nat × Nat) :=
  if b.toNat % 128 ≠ 0 ∨ n % 128 ≠ 0 ∨ 2 ^ 32 < n then (.fail 0x55 1 0, [])
  else match span (fun va => s.accessMe va .write) b n with
    | .ok rs pinned =>
      let ps := physRuns rs n
      if !pinned || rs.any (fun r => !r.loc.isHbm) then (.fail 0x55 1 0, [])
      else if ps.any (fun p => s.fe.regions.any (fun r => decide (p.1 < r.pa + r.len) && decide (r.pa < p.1 + p.2))) then (.fail 0x55 2 0, [])
      else if 8192 < s.fe.regions.length + ps.length then (.fail 0x55 3 0, [])
      else (.ok rs true, ps)
    | r => (r, [])

/-- `CNT.SET` (R362): waits until every send armed on the counter has fired. (Log 89 DEDUCED.) -/
def execCntSet (l a c : SReg) (s : State) : Host.Outcome State Fault Refusal :=
  issue (.cntSet l a c) s (fun s =>
    let w := s.sreg c.toNat
    let k := fld w 0 8
    let n := (s.sreg l.toNat).toNat
    let b := s.sreg a.toNat
    if badCounter w true then s.take 0x51 4
    else
      let chk := if n = 0 then (Span.ok [] true, []) else s.regionCheck b n
      match chk with
      | (.miss vas, _) => (s.joinWalks vas).waitHere
      | (.fail cz d v, _) => (s.takeAt cz d v 0 none).dropWalks
      | (.ok _ _, ps) =>
        if s.ops.any (fun o => o.who.wg == s.actor.wg && (match o.kind with | .tsend _ c' _ => c' == k | _ => false)) then s.waitHere
        else
          let g := s.actor.wg
          let y := s.wg g
          let s1 : State := { s with fe := { s.fe with
            regions := s.fe.regions.filter (fun r => !(r.wg == g && r.counter == k)) ++
              ps.map (fun p => { wg := g, counter := k, pa := p.1, len := p.2 }) } }
          let x : RxCounter := { value := BitVec.ofNat 32 (fld w 32 32), region := if n = 0 then none else some (b, n) }
          (s1.setWg g { y with counters := Tbl.set y.counters k x }).retire)

/-- `CNT.ADD` (R362): the advance is a release at device scope (R354), so the fibre's earlier W accesses are performed at their homes
first. (Log 90 DEDUCED.) -/
def execCntAdd (v c : SReg) (s : State) : Host.Outcome State Fault Refusal :=
  issue (.cntAdd v c) s (fun s =>
    let w := s.sreg c.toNat
    if badCounter w false then s.take 0x51 4
    else if s.storesHome s.actor s.nextId clsW && s.earlierDone s.actor s.nextId clsW .device false then
      (s.advance s.actor.wg (fld w 0 8) (s.sreg v.toNat).toNat).retire
    else s.waitHere)

/-- `CNTWAIT` (R362). -/
def execCntwait (v c : SReg) (f : BitVec 1) (s : State) : Host.Outcome State Fault Refusal :=
  issue (.cntwait v c f) s (fun s =>
    let w := s.sreg c.toNat
    if badCounter w false then s.take 0x51 4
    else s.emit { s.newOp (.cntwait (fld w 0 8) (s.sreg v.toNat)) (s.flagSel f) s.me.mask clsCR .system with st := .running })

/-- CNTWAIT_COMPLETE (R362): the counter stands at or above the threshold. Every advance counted was made after its GWCT, so no
wait of R88 is left. -/
def execCntwaitComplete (op : Nat) (s : State) : Host.Outcome State Fault Refusal :=
  match s.op op with
  | some o =>
    (match o.kind with
     | .cntwait c th => .next (if th.toNat ≤ (s.counter o.who.wg c).value.toNat then s.complete o else s)
     | _ => .next s)
  | none => .next s

end Sys2Proof.Machine
end

