-- ==== Sys2Proof/Machine/Mx.lean ====
section
/-!
DEFINITION. The matrix engine: gangs and their signatures, posts, the queue of a CU, matrix steps, epilogues, segments
encoded and decoded (R267-R297).
-/
namespace Sys2Proof.Machine

-- Gangs (R271-R273) -----------------------------------------------------------------------------------------------------

/-- No posted operation. -/
def MxPost.none : MxPost := { op := 0, minor := 0, acc := 0, word := 0, hint := 0, a := 0, b := 0, e := 0, m := 0 }

/-- The signed set of a gang. -/
def Gang.signed (x : Gang) : DWord := maskOf (x.signers.map (·.bit))

/-- The gang lanes: signer and lane, in ascending order of member bit and lane (R272). The signers are kept in that order. -/
def gangLanes (ss : List Signer) : List (Signer × Nat) := ss.flatMap (fun g => (lanesOf g.mask).map (fun l => (g, l)))

/-- Adds a signer in its place. -/
def addSigner (x : Signer) : List Signer → List Signer
  | [] => [x]
  | y :: t => if x.bit < y.bit then x :: y :: t else y :: addSigner x t

/-- The operation that a gang of the running fibre's workgroup gathers, new if it has none: in no flag and no program order
yet. -/
def State.gangOp (s : State) (g : Nat) : Op :=
  match (s.gang s.actor.wg g).opId.bind (fun n => s.op n) with
  | some o => o
  | none =>
    { s.newOp (.gang g MxPost.none []) none 0 (clsMR ||| clsMW) .fibre with counts := [], holders := [] }

/-- Puts a gathering operation back, or adds it. -/
def State.putGangOp (s : State) (o : Op) : State := if (s.op o.id).isSome then (s.setOp o).bump else s.addOp o

-- Records and reads (R270, R276) ----------------------------------------------------------------------------------------

/-- What an MX read refuses: peer memory and MMIO pages, by the operand's role (R276). (Log 64 DEDUCED, 67 DEDUCED.) -/
def refuseMx (role : Nat) : Refuse := fun l t => if isPeer l || isMmio l t then some (0x32, 8 + role * 16) else none

/-- What an MX write refuses: also a place without tag storage under GUARD (R276, R319). (Log 64 DEDUCED, 67 DEDUCED.) -/
def refuseMxW (role : Nat) (guard : Bool) : Refuse := fun l t =>
  match refuseMx role l t with
  | some e => some e
  | none => if guard && !hasTags l t then some (0x32, 11 + role * 16) else none

/-- Reads a record through the CU's record cache of 64 entries, oldest use last (R270). -/
inductive RecTry where
  | ok (s : State) (r : ShapeRec) (wvt : Nat)
  | fail (s : State) (wvt : Nat) (cause : BitVec 8) (detail : Nat) (addr : DWord)
  | wait
deriving DecidableEq, Repr

/-- Reads the record at an address for an operation; the record cache keeps the WVT of what it holds (R85). (Log 64 DEDUCED.) -/
def State.readRecord (s : State) (o : Op) (addr : DWord) (role : Nat) : RecTry :=
  let u := s.cu o.cu
  let asid := (s.ctx o.ctx).asid
  let rest := u.recs.filter (fun e => !(e.1 == asid && e.2.1 == addr))
  match u.recs.find? (fun e => e.1 == asid && e.2.1 == addr) with
  | some e => .ok (s.setCu o.cu { u with recs := e :: rest }) e.2.2.1 e.2.2.2
  | none =>
    match s.engRead o.who.wg o.cu o.ctx addr 192 (refuseMx role) with
    | .ok s1 bs w =>
      let r := recOf addr bs
      let u1 := s1.cu o.cu
      .ok (s1.setCu o.cu { u1 with recs := ((asid, addr, r, w) :: rest).take 64 }) r w
    | .fail s1 w c d _ => .fail s1 w c d addr
    | .wait => .wait

/-- The rows of a record as an operation would read it now: none if it cannot. -/
def State.rowsNow (s : State) (o : Op) (addr : DWord) : Nat :=
  match s.readRecord o addr 0 with | .ok _ r _ => r.dim1 | _ => 0

/-- A read by the MX. Bytes of registers that any agent wrote since the operation's first signature or issue are free (R91).
(Log 67 DEDUCED.) -/
def State.mxRead (s : State) (o : Op) (va : DWord) (n role : Nat) : ERead :=
  match s.engRead o.who.wg o.cu o.ctx va n (refuseMx role) with
  | .ok s1 bs w =>
    if inWindow va then
      .ok s1 (bs.zipIdx.map (fun e =>
        let a := va + BitVec.ofNat 64 e.2
        match s.winLoc o.who.wg a with
        | some (.regw g k off) =>
          if g = o.who.wg ∧ o.notes.any (fun e => e.1 == regKey k (off / 4 / (s.wg g).warp)) then
            (Config.freeWord (s.freeCtr * 2 ^ 64 + a.toNat)).setWidth 8
          else e.1
        | _ => e.1)) w
    else .ok s1 bs w
  | x => x

-- Queue entry (R275, R286, R289, R291, R292) ----------------------------------------------------------------------------

/-- What taking a queue entry comes to. -/
inductive MxTry where
  | go (s : State) (o : Op) (r : MxRun)
  | fail (s : State) (wvt : Nat) (cause : BitVec 8) (detail : Nat) (addr : DWord)
  | wait
deriving DecidableEq, Repr

/-- Bytes of operand data of a record from one row, or of all its segments: address and length. (Log 65 DEDUCED.) -/
def operandSpans (r : ShapeRec) : List (DWord × Nat) :=
  if isSplit r.fmt then
    (List.range ((r.dim0 + kStep r.fmt - 1) / kStep r.fmt)).map (fun t => (r.base + BitVec.ofNat 64 (t * r.stride1), segSize r.fmt))
  else
    (List.range r.dim1).flatMap (fun i =>
      (r.base + BitVec.ofNat 64 (i * r.stride1), rowBytes r.fmt r.dim0) ::
      (if r.scalebase = 0 then []
       else [(r.scalebase + BitVec.ofNat 64 (i * r.stride2), if r.fmt = 0 then (r.dim0 + 7) / 8 else r.dim0 / 32)]))

/-- Does data of an operand with GUARD lie where no tag is stored (R276)? -/
def State.tagless (s : State) (o : Op) (r : ShapeRec) : Bool :=
  r.guard && (operandSpans r).any (fun e => inWindow e.1 || inWindow (e.1 + BitVec.ofNat 64 (e.2 - 1)) || s.engAny o.who.wg o.cu o.ctx e.1 e.2 (fun l t => !hasTags l t && !isPeer l && !isMmio l t))

/-- The first piece of an operand's data that lies in peer memory or on an MMIO page, which R276 refuses. -/
def State.refusedAt (s : State) (o : Op) (r : ShapeRec) : Option DWord :=
  (operandSpans r).findSome? (fun e => s.engFind o.who.wg o.cu o.ctx e.1 e.2 (fun l t => isPeer l || isMmio l t))

/-- What R276 refuses of the data of one operand when the operation takes its entry: reason 8, then reason 11. -/
def State.operandBad (s : State) (o : Op) (r : ShapeRec) (role : Nat) : Option (Nat × DWord) :=
  match s.refusedAt o r with
  | some a => some (8 + role * 16, a)
  | none => if s.tagless o r then some (11 + role * 16, 0) else none

/-- The checks of R286 and R289 on the gang lanes and accumulators, in the order 1, 2, 3, 4; `bad2` is the check of reason 2. -/
def State.shapeOf (s : State) (ss : List Signer) (acc m : Nat) (bad2 : Bool) : Option (BitVec 8 × Nat) :=
  let n := (gangLanes ss).length
  if n = 0 ∨ 64 < n then some (0x34, 1)
  else if bad2 then some (0x34, 2)
  else if 127 < acc + m - 1 then some (0x34, 3)
  else match ss.find? (fun g => decide ((s.wg g.who.wg).regs ≤ g.base.toNat + acc + m - 1)) with
    | some g => some (0x34, 4 + g.who.idx * 16 + g.who.slot * 128)
    | none => none

/-- Was a register of a signer's slot written by another agent since the signature (R91, R273)? -/
def Op.touched (o : Op) (g : Signer) (n : Nat) : Bool :=
  o.notes.any (fun e => e.1 == regKey g.who.slot n && decide (g.since ≤ e.2.2))

/-- Is some accumulator register not tagged F32? One that an agent wrote since the signature is undefined and raises no fault
(R91, R296). -/
def State.accUntagged (s : State) (o : Op) (ss : List Signer) (acc m : Nat) : Bool :=
  ss.any (fun g => (List.range m).any (fun i =>
    let n := g.base.toNat + acc + i
    (s.vreg g.who.wg g.who.slot n).tag != 3 && !o.touched g n))

/-- The accumulators by row and gang lane (R272). -/
def State.getAcc (s : State) (ss : List Signer) (acc m : Nat) : List (List Nat) :=
  (List.range m).map (fun i => (gangLanes ss).map (fun e =>
    ((s.vreg e.1.who.wg e.1.who.slot (e.1.base.toNat + acc + i)).lane e.2).toNat))

/-- Writes the accumulators of an operation, tagged F32 (R272, R273). -/
def State.putAcc (s : State) (id : Nat) (ss : List Signer) (acc : Nat) (rows : List (List Nat)) : State :=
  let lanes := gangLanes ss
  rows.zipIdx.foldl (fun (t : State) row =>
    ss.foldl (fun (u : State) g =>
      let n := g.base.toNat + acc + row.2
      let mine := (lanes.zip row.1).filter (fun e => e.1.1.bit == g.bit)
      let v := u.vreg g.who.wg g.who.slot n
      u.setVBy id g.who.wg g.who.slot n g.mask (v.write (u.wg g.who.wg).warp g.mask 3 (fun l =>
        match mine.find? (fun e => e.1.2 == l) with
        | some e => BitVec.ofNat 32 e.2
        | none => v.lane l))) t) s

/-- The step count of a step word (R285). -/
def stepCount (p : MxPost) : Nat := if p.op = 2 then fld p.word 16 9 else 1

/-- `MMA` and `MTILE` take their entry (R286): both records are read, then checked; the accumulators are read, tagged and with Z
cleared. (Log 60 DEDUCED, 62 DESIGN CHOICE.) -/
def State.mmEntry (s : State) (o : Op) (g : Nat) (p : MxPost) (ss : List Signer) : MxTry :=
  match s.readRecord o p.a 0 with
  | .wait => .wait
  | .fail s1 w c d a => .fail s1 w c d a
  | .ok s1 ra w1 =>
    match s1.readRecord o p.b 1 with
    | .wait => .wait
    | .fail s2 w c d a => .fail s2 (Nat.max w1 w) c d a
    | .ok s2 rb w2 =>
      let w := Nat.max w1 w2
      let ks := kStep ra.fmt
      let t0 := fld p.word 0 16
      let n := stepCount p
      let m := ra.dim1
      let z := p.word.getLsbD 25
      match checkRole .operand ra ks, checkRole .operand rb (kStep rb.fmt) with
      | some r, _ => .fail s2 w 0x32 r 0
      | none, some r => .fail s2 w 0x32 (r + 16) 0
      | none, none =>
        if ks ≠ kStep rb.fmt ∨ ra.dim0 ≠ rb.dim0 then .fail s2 w 0x32 5 0
        else match (s2.operandBad o ra 0).or (s2.operandBad o rb 1) with
          | some (d, a) => .fail s2 w 0x32 d a
          | none =>
            match s2.shapeOf ss p.acc m (rb.dim1 != (gangLanes ss).length) with
            | some (c, d) => .fail s2 w c d 0
            | none =>
              if fld p.word 26 38 ≠ 0 ∨ (p.op = 1 ∧ fld p.word 16 9 ≠ 0) ∨ n = 0 ∨ 320 < n ∨
                 (ra.dim0 + ks - 1) / ks < t0 + n then .fail s2 w 0x32 6 0
              else if !z && s2.accUntagged o ss p.acc m then .fail s2 w 0x10 0 0
              else
                let acc := if z then List.replicate m (List.replicate (gangLanes ss).length 0) else s2.getAcc ss p.acc m
                let s3 := s2.putAcc o.id ss p.acc acc
                .go (s3.setGang o.who.wg g { s3.gang o.who.wg g with step := BitVec.ofNat 16 t0 })
                  { (((s3.op o.id).getD o).saw w) with kind := .gang g { p with m := m } ss }
                  { op := o.id, recA := ra, recB := rb, t := t0, tEnd := t0 + n, acc := acc, img := none }

/-- `MEPI` takes its entry (R289). -/
def State.epiEntry (s : State) (o : Op) (g : Nat) (p : MxPost) (ss : List Signer) : MxTry :=
  match s.readRecord o p.e 2 with
  | .wait => .wait
  | .fail s1 w c d a => .fail s1 w c d a
  | .ok s1 e w =>
    let dense := decide (p.minor < 4)
    let n := (gangLanes ss).length
    match checkRole (if dense then .epiDense else .epiSplit) e (kStep e.fmt) with
    | some r => .fail s1 w 0x32 (r + 32) 0
    | none =>
      if !dense && !thetaOk e.theta then .fail s1 w 0x31 32 0
      else if e.fmt ≠ p.minor then .fail s1 w 0x32 (7 + 32) 0
      else match s1.shapeOf ss p.acc e.dim1 false with
        | some (c, d) => .fail s1 w c d 0
        | none =>
          if (if dense then e.dim0 != n else decide (kStep e.fmt < n)) then .fail s1 w 0x34 2 0
          else if s1.accUntagged o ss p.acc e.dim1 then .fail s1 w 0x10 0 0
          else .go s1 { (o.saw w) with kind := .gang g { p with m := e.dim1 } ss }
            { op := o.id, recA := e, recB := e, t := 0, tEnd := 1, acc := s1.getAcc ss p.acc e.dim1, img := none }

/-- `SPLIT.ENC` and `SPLIT.DEC` take their entry (R291, R292): the first record is read and checked, then the second; the dense
record's DIM0 is bounded by the segment's K per step; the data of the record read from is refused as R276 says, but
an encoder's source has no tags checked and may lie where none is stored (R291). (Log 66 DEDUCED.) -/
def State.splitEntry (s : State) (o : Op) (enc : Bool) (a b : DWord) : MxTry :=
  let rl := fun (k : Nat) => if (k = 0) = enc then 3 else 2
  match s.readRecord o a (rl 0) with
  | .wait => .wait
  | .fail s1 w c d x => .fail s1 w c d x
  | .ok s1 ra w1 =>
    match checkRole (if enc then .encSource else .segment) ra 65536 with
    | some r => .fail s1 w1 0x32 (r + rl 0 * 16) 0
    | none =>
      match s1.readRecord o b (rl 1) with
      | .wait => .wait
      | .fail s2 w c d x => .fail s2 (Nat.max w1 w) c d x
      | .ok s2 rb w2 =>
        let w := Nat.max w1 w2
        let seg := if enc then rb else ra
        let den := if enc then ra else rb
        match checkRole (if enc then .segment else .decDest) rb 65536 with
        | some r => .fail s2 w 0x32 (r + rl 1 * 16) 0
        | none =>
          if enc && !thetaOk seg.theta then .fail s2 w 0x31 32 0
          else if kStep seg.fmt < den.dim0 then .fail s2 w 0x32 (4 + 3 * 16) 0
          else match s2.operandBad o { ra with guard := ra.guard && !enc, dim0 := if enc then ra.dim0 else kStep ra.fmt } (rl 0) with
            | some (d, x) => .fail s2 w 0x32 d x
            | none => .go s2 (o.saw w) { op := o.id, recA := ra, recB := rb, t := 0, tEnd := 1, acc := [], img := none }

-- Completion (R91, R273) ------------------------------------------------------------------------------------------------

/-- Completes a matrix operation: every count goes, its gang is idle with the cause (R273, R293), and with a fault the signers that
stand where it freezes them do so in ascending member bit (R280). -/
def State.mxEnd (s : State) (o : Op) : State :=
  match o.kind with
  | .gang g _ ss =>
    let s1 := s.complete o
    let x := s1.gang o.who.wg g
    ss.foldl (fun (t : State) x => t.freezeDue x.who)
      (s1.setGang o.who.wg g (x.done (match o.fault with | some f => f.cause | none => 0) x.step))
  | _ => s.complete o

/-- Completes a matrix operation as soon as its scope allows (R93). -/
def State.mxSettle (s : State) (o : Op) : State :=
  if decide (o.scope.code ≤ 3) || (o.cls &&& clsWrites) == 0 || decide (o.gwct ≤ s.lease o.cu) then s.mxEnd o
  else s.setOp { o with st := .settling }

/-- Takes an operation's run out of its CU. -/
def State.dropRun (s : State) (cu op : Nat) : State :=
  let u := s.cu cu
  s.setCu cu { u with mxRuns := u.mxRuns.filter (fun r => r.op ≠ op), mxq := u.mxq.filter (· ≠ op) }

/-- Ends a matrix operation with a fault and its stream positions (R278, R280). (Log 46 DEDUCED, 61 DESIGN CHOICE.) -/
def State.mxFail (s : State) (o : Op) (cause : BitVec 8) (detail : Nat) (addr cpos spos : DWord) : State :=
  let fl := if cause = 0x24 then flGUARD else 0
  ((s.loosen o).dropRun o.cu o.id).mxSettle { o with
    sticky := o.sticky ||| fl
    fault := some { o.faultRec cause detail addr 0 none with cpos := cpos, spos := spos } }

/-- The oldest operation of a CU without an entry takes one of 16, reads its records and makes the checks described as made at
issue (R275). -/
def State.mxEnter (s : State) (cu : Nat) : State :=
  let u := s.cu cu
  match u.mxq with
  | [] => s
  | id :: rest =>
    if 16 ≤ u.mxRuns.length then s
    else match s.op id with
      | none => s.setCu cu { u with mxq := rest }
      | some o =>
        let r := match o.kind with
          | .gang g p ss => if p.op = 3 then s.epiEntry o g p ss else s.mmEntry o g p ss
          | .split enc a b _ => s.splitEntry o enc a b
          | _ => .wait
        match r with
        | .wait => s
        | .fail s1 w c d a => s1.mxFail (o.saw w) c d a 0 0
        | .go s1 o1 run =>
          let u1 := s1.cu cu
          (s1.setOp { o1 with st := .running }).setCu cu { u1 with mxq := rest, mxRuns := u1.mxRuns ++ [run] }

/-- MX_QUEUE_ENTRY (R275): an operation that issued while the queue was full, or that waits for a read of its records, takes its
entry. (Log 60 DEDUCED, 167 DEDUCED.) -/
def execMxQueueEntry (cu : Nat) (s : State) : Host.Outcome State Fault Refusal := .next (s.mxEnter cu)

/-- An operation issues into the queue of its CU: with an entry free and none waiting it takes its entry at once (R270, R275). -/
def State.mxIssue (s : State) (cu id : Nat) : State :=
  let u := s.cu cu
  let s1 := s.setCu cu { u with mxq := u.mxq ++ [id] }
  if u.mxq.isEmpty then s1.mxEnter cu else s1

-- Instructions (R282-R294) ------------------------------------------------------------------------------------------------

/-- Issues a gang's operation when it is gathering, posted and signed by every expected member (R273): it goes to the queue
of its CU. (Log 167 DEDUCED.) -/
def State.gangIssue (s : State) (wg g : Nat) : State :=
  let x := s.gang wg g
  match x.opId.bind (fun n => s.op n) with
  | some o =>
    if x.st = .gathering ∧ x.post.isSome ∧ x.e ≠ 0 ∧ x.signed = x.e then
      let kind := match o.kind with
        | .gang n p ss => OpKind.gang n { p with m := s.rowsNow o (if p.op = 3 then p.e else p.a) } ss
        | k => k
      ((s.setGang wg g { x with st := .issued }).setOp { o with st := .queued, kind := kind }).mxIssue o.cu o.id
    else s
  | none => s

/-- `MBIND` (R282). (Log 45 DEDUCED.) -/
def execMbind (a : SReg) (g : BitVec 3) (n : BitVec 2) (s : State) : Host.Outcome State Fault Refusal :=
  issue (.mbind a g n) s (fun s =>
    let v := s.sreg a.toNat
    let wg := s.actor.wg
    let x := s.gang wg g.toNat
    if v.toNat % 64 ≠ 0 then s.takeAt 0x22 v.toNat v 0 none
    else
      (s.setGang wg g.toNat (match n.toNat with
        | 0 => { x with bindA := v } | 1 => { x with bindB := v } | _ => { x with bindE := v })).retire)

/-- `MREADY`: earlier accesses of every class are performed at its scope, and no register of the window is pending (R283). -/
def execMready (s : State) : Host.Outcome State Fault Refusal :=
  issue .mready s (fun s =>
    let pend := (List.range 128).any (fun r => (s.pendingV s.actor (s.me.base.toNat + r) &&& s.me.mask) != 0)
    if pend || !s.earlierDone s.actor s.nextId 0xFF (s.scopeOr .workgroup) false then s.waitHere else s.retire)

/-- `MSIGN` (R284). -/
def execMsign (a : SReg) (g : BitVec 3) (f : BitVec 1) (s : State) : Host.Outcome State Fault Refusal :=
  issue (.msign a g f) s (fun s =>
    let e := s.sreg a.toNat
    let r := s.actor
    let x := s.gang r.wg g.toNat
    let b := memberBit r
    let flag := s.flagSel f
    if r.idx = 8 ∨ e = 0 then s.take 0x33 5
    else if ¬ e.getLsbD b then s.take 0x33 1
    else if x.st = .issued then s.waitHere
    else if x.st = .gathering ∧ x.e ≠ 0 ∧ x.e ≠ e then s.take 0x33 2
    else if x.signed.getLsbD b then s.take 0x33 3
    else if (match flag with | some n => decide (63 ≤ s.flagval r.wg r.slot n s.me.mask) | none => false) then s.waitHere
    else
      let me : Signer := { bit := b, who := r, fid := s.me.fid, mask := s.me.mask, base := s.me.base, flag := flag, ipc := s.me.unitPc, since := s.nextId + 1 }
      let ss := addSigner me x.signers
      let o := s.gangOp g.toNat
      let o1 := { o with
        kind := .gang g.toNat (x.post.getD MxPost.none) ss
        counts := o.counts ++ [{ wg := r.wg, slot := r.slot, flag := flag, lanes := s.me.mask, fid := s.me.fid }]
        holders := o.holders ++ [(s.me.fid, s.nextId)] }
      let s1 := (s.putGangOp o1).setGang r.wg g.toNat { x with st := .gathering, e := e, signers := ss, opId := some o.id }
      (s1.gangIssue r.wg g.toNat).retire)

/-- Posts an operation on a gang (R288). (Log 167 DEDUCED.) -/
def State.mxPost (s : State) (g : BitVec 3) (op minor : Nat) (acc : BitVec 7) (word : DWord) (d : Scope) : State :=
  let wg := s.actor.wg
  let x := s.gang wg g.toNat
  if x.st = .issued then s.waitHere
  else if x.post.isSome then s.take 0x33 4
  else if s.recordFull then s.waitHere
  else
    let o := s.gangOp g.toNat
    let p : MxPost :=
      { op := op, minor := minor, acc := acc.toNat, word := word, hint := s.hint, a := x.bindA, b := x.bindB, e := x.bindE
        m := s.rowsNow o (if op = 3 then x.bindE else x.bindA) }
    let o := { o with kind := .gang g.toNat p x.signers, scope := s.scopeOr d, cls := clsMR ||| clsMW }
    let s1 := (s.putGangOp o).setGang wg g.toNat { x with st := .gathering, post := some p, opId := some o.id }
    (s1.gangIssue wg g.toNat).retire

/-- `MMA` (R286, R288). -/
def execMma (c : VReg) (a : SReg) (g : BitVec 3) (s : State) : Host.Outcome State Fault Refusal :=
  issue (.mma c a g) s (fun s => s.mxPost g 1 0 c (s.sreg a.toNat) .fibre)
/-- `MTILE` (R286, R288). -/
def execMtile (c : VReg) (a : SReg) (g : BitVec 3) (s : State) : Host.Outcome State Fault Refusal :=
  issue (.mtile c a g) s (fun s => s.mxPost g 2 0 c (s.sreg a.toNat) .fibre)
/-- `MEPI` (R287-R289). -/
def execMepi (c : VReg) (g m : BitVec 3) (s : State) : Host.Outcome State Fault Refusal :=
  issue (.mepi c g m) s (fun s => s.mxPost g 3 m.toNat c 0 .device)

/-- Issues `SPLIT.ENC` or `SPLIT.DEC` (R290). (Log 45 DEDUCED.) -/
def State.splitIssue (s : State) (enc : Bool) (a b : SReg) (f : BitVec 1) : State :=
  let va := s.sreg a.toNat
  let vb := s.sreg b.toNat
  if va.toNat % 64 ≠ 0 then s.takeAt 0x22 0 va 0 none
  else if vb.toNat % 64 ≠ 0 then s.takeAt 0x22 0 vb 0 none
  else
    let o := { s.newOp (.split enc va vb s.hint) (s.flagSel f) s.me.mask (clsMR ||| clsMW) (s.scopeOr .device) with st := .queued }
    s.emitWith o (fun t => t.mxIssue o.cu o.id)

/-- `SPLIT.ENC` (R290, R291). -/
def execSplitEnc (a b : SReg) (f : BitVec 1) (s : State) : Host.Outcome State Fault Refusal :=
  issue (.splitEnc a b f) s (fun s => s.splitIssue true a b f)
/-- `SPLIT.DEC` (R290, R292). -/
def execSplitDec (a b : SReg) (f : BitVec 1) (s : State) : Host.Outcome State Fault Refusal :=
  issue (.splitDec a b f) s (fun s => s.splitIssue false a b f)

/-- The gang state word of R293. More than 64 lanes, which the field's text does not provide for, read as a free value.
(Log 62 DESIGN CHOICE, 63 DESIGN CHOICE.) -/
def State.gangWord (s : State) (x : Gang) : DWord :=
  let n := (gangLanes x.signers).length
  let lanes := if n ≤ 64 then n else (Config.freeWord (s.freeCtr * 2 ^ 64)).toNat % 128
  BitVec.ofNat 64 ((match x.st with | .idle => 0 | .gathering => 1 | .issued => 2) +
    (match x.post with | some p => 4 + p.op * 8 | none => 0) + x.cause.toNat * 2 ^ 8 + x.step.toNat * 2 ^ 16 + lanes * 2 ^ 32)

/-- `MSTAT` (R293). (Log 63 DESIGN CHOICE.) -/
def execMstat (i : BitVec 3) (d : SReg) (g : BitVec 3) (s : State) : Host.Outcome State Fault Refusal :=
  issue (.mstat i d g) s (fun s =>
    let x := s.gang s.actor.wg g.toNat
    (s.setS d.toNat (match i.toNat with | 0 => x.e | 1 => x.signed | _ => s.gangWord x)).retire)

/-- `MRFENCE` (R294). -/
def execMrfence (s : State) : Host.Outcome State Fault Refusal :=
  issue .mrfence s (fun s =>
    if !s.writesHome then s.waitHere
    else
      let u := s.cu s.myWg.cu
      (s.setCu s.myWg.cu { u with recs := u.recs.filter (fun e => e.1 ≠ s.myCtx.asid) }).retire)

-- Matrix steps (R276, R286) ---------------------------------------------------------------------------------------------

/-- What a fetch gives: the rows' elements, or a fault. -/
inductive Fetch where
  | ok (s : State) (rows : List (Array El)) (wvt : Nat)
  | fail (s : State) (wvt : Nat) (cause : BitVec 8) (detail : Nat) (addr : DWord)
  | wait
deriving DecidableEq, Repr

/-- DETAIL of a guard fault of a consumer (R322). -/
def guardDetail (reason consumer : Nat) : Nat := reason + consumer * 16

/-- A segment read and checked by R73 for a role and step, by a consumer of R322. -/
inductive SegTry where
  | ok (s : State) (b : Array Byte) (wvt : Nat)
  | fail (s : State) (wvt : Nat) (cause : BitVec 8) (detail : Nat) (addr : DWord)
  | wait
deriving DecidableEq, Repr

/-- Reads and checks a segment (R73, R276). -/
def State.readSegment (s : State) (o : Op) (r : ShapeRec) (va : DWord) (role step consumer : Nat) : SegTry :=
  match s.mxRead o va (segSize r.fmt) role with
  | .fail s1 w c d a => .fail s1 w c d a
  | .wait => .wait
  | .ok s1 bs w =>
    let b := bs.toArray
    let tags := if r.guard then
        (s1.guardSpan o.who.wg o.cu o.ctx va (segSize r.fmt) (arrNat b 4 4 % 4096)).map (fun e => SegBad.guard e.1 (e.2 - va).toNat 0)
      else none
    match segCheck b r.fmt tags with
    | none => .ok s1 b w
    | some (.form n) => .fail s1 w 0x31 (n + role * 16 + step * 64) 0
    | some (.guard n off _) => .fail s1 w 0x24 (guardDetail n consumer) (va + BitVec.ofNat 64 off)

/-- Reads of consecutive ranges, with their guard tags checked against a version if `v` is given (R276). -/
def State.readRanges (s : State) (o : Op) (role : Nat) (v : Option Nat) (rs : List (DWord × Nat)) : Except MxTry (State × List (List Byte) × Nat) :=
  rs.foldl (fun acc e =>
    match acc with
    | .ok (t, bss, w) =>
      (match t.mxRead o e.1 e.2 role with
       | .fail t1 w1 c d a => .error (.fail t1 (Nat.max w w1) c d a)
       | .wait => .error .wait
       | .ok t1 bs w1 =>
         (match v.bind (fun n => t1.guardSpan o.who.wg o.cu o.ctx e.1 e.2 n) with
          | some (n, a) => .error (.fail t1 (Nat.max w w1) 0x24 (guardDetail n 1) a)
          | none => .ok (t1, bss ++ [bs], Nat.max w w1)))
    | x => x) (.ok (s, [], 0))

/-- Fetches step `t` of an operand: `m` rows of elements (R276, R286). Positions from DIM0 on are masked. (Log 65 DEDUCED.) -/
def State.fetchStep (s : State) (o : Op) (r : ShapeRec) (t role m : Nat) : Fetch :=
  let ks := kStep r.fmt
  let n := Nat.min ks (r.dim0 - t * ks)
  if isSplit r.fmt then
    match s.readSegment o r (r.base + BitVec.ofNat 64 (t * r.stride1)) role t 1 with
    | .ok s1 b w => .ok s1 (segRows b r.fmt m n).toList w
    | .fail s1 w c d a => .fail s1 w c d a
    | .wait => .wait
  else
    let scaled := r.fmt != 1 && r.scalebase != 0
    let v := if r.guard then some r.version else none
    let data := (List.range m).map (fun i => (r.base + BitVec.ofNat 64 (i * r.stride1 + rowBytes r.fmt (t * ks)), rowBytes r.fmt n))
    let scs := if scaled then (List.range m).map (fun i => (r.scalebase + BitVec.ofNat 64 (i * r.stride2 + t * ks / 32), n / 32)) else []
    match s.readRanges o role v (data ++ scs) with
    | .error (.fail s1 w c d a) => .fail s1 w c d a
    | .error _ => .wait
    | .ok (s1, bss, w) =>
      .ok s1 ((List.range m).map (fun i =>
        denseRow r.fmt n (bss.getD i []).toArray (if scaled then (bss.getD (m + i) []).toArray else #[]))) w

/-- One step of `MMA` or `MTILE` (R75, R286): a press commit, or a fault that leaves the steps before it committed. -/
def State.mmStep (s : State) (cu : Nat) (r : MxRun) (o : Op) (g : Nat) (p : MxPost) (ss : List Signer) : State :=
  let t := r.t
  let pos := fun (k : Nat) => BitVec.ofNat 64 (k + k * 65536)
  match s.fetchStep o r.recA t 0 r.recA.dim1 with
  | .wait => s
  | .fail s1 w c d a => s1.mxFail (o.saw w) c d a (pos t) (pos (t + 1))
  | .ok s1 ra w1 =>
    match s1.fetchStep o r.recB t 1 r.recB.dim1 with
    | .wait => s
    | .fail s2 w c d a => s2.mxFail (o.saw (Nat.max w1 w)) c d a (pos t) (pos (t + 1))
    | .ok s2 rb w2 =>
      let out := (r.acc.zip ra).map (fun e => (e.1.zip rb).map (fun x => stepElem r.recA.fmt r.recB.fmt e.2 x.2 x.1))
      let fl := out.foldl (fun (f : Fl) row => row.foldl (fun (h : Fl) x => h ||| x.2) f) 0
      let acc := out.map (fun row => row.map (·.1))
      let s3 := (s2.putAcc o.id ss p.acc acc).setOp { (o.saw (Nat.max w1 w2)) with sticky := o.sticky ||| fl }
      let s4 := s3.setGang o.who.wg g { s3.gang o.who.wg g with step := BitVec.ofNat 16 (t + 1) }
      let s5 := s4.countEv cu 0x0A 1 (some o.ctx)
      let u := s5.cu cu
      { s5.setCu cu { u with mxRuns := u.mxRuns.map (fun x => if x.op = r.op then { x with t := t + 1, acc := acc } else x) } with
        freeCtr := s.freeCtr + 1 }

-- Destination images (R289, R291, R292) ---------------------------------------------------------------------------------

/-- What pass 1 gives. -/
inductive Image where
  | ok (s : State) (img : List (Loc × DWord × List Byte)) (fl : Fl) (wvt : Nat)
  | fail (s : State) (wvt : Nat) (cause : BitVec 8) (detail : Nat) (addr : DWord)
  | wait
deriving DecidableEq, Repr

/-- Places the writes of an image: every byte is translated and refused places are found (R289). -/
def State.placeAll (s : State) (o : Op) (role : Nat) (guard : Bool) (ws : List (DWord × List Byte)) :
    Except (BitVec 8 × Nat × DWord) (List (Loc × DWord × List Byte)) :=
  ws.foldl (fun acc w =>
    match acc with
    | .ok out =>
      if guard && (inWindow w.1 || inWindow (w.1 + BitVec.ofNat 64 (w.2.length - 1))) then .error (0x32, 11 + role * 16, w.1)
      else (match s.engPlaces o.who.wg o.cu o.ctx w.1 w.2.length (refuseMxW role guard) with
       | .ok ps => .ok (out ++ ps.map (fun p => (p.1, p.2.1, (w.2.drop p.2.2.1).take p.2.2.2)))
       | .error e => .error e)
    | x => x) (.ok [])

/-- The pieces placed for a segment, with its bytes in them. -/
def fillPieces : List (Loc × DWord × List Byte) → List Byte → List (Loc × DWord × List Byte)
  | [], _ => []
  | (l, a, z) :: t, bs => (l, a, bs.take z.length) :: fillPieces t (bs.drop z.length)

/-- The image of a segment: blocks in ascending address, the header's block last (R74). (Log 69 DEDUCED.) -/
def segImage (img : List (Loc × DWord × List Byte)) : List (Loc × DWord × List Byte) := img.drop 1 ++ img.take 1

/-- Accumulators as an epilogue reads them: those that an agent wrote since a signature are free (R91). (Log 68 DEDUCED.) -/
def State.epiAcc (s : State) (o : Op) (p : MxPost) (ss : List Signer) (rows : List (List Nat)) : List (List Nat) :=
  rows.zipIdx.map (fun row => (row.1.zip (gangLanes ss)).map (fun e =>
    let n := e.2.1.base.toNat + p.acc + row.2
    let k := regKey e.2.1.who.slot n
    if o.wrote e.2.1 n e.2.2 then (Config.freeWord (s.freeCtr * 2 ^ 64 + k * 64 + e.2.2)).toNat % 2 ^ 32 else e.1))

/-- Pass 1 of `MEPI` (R289). (Log 68 DEDUCED.) -/
def State.epiImage (s : State) (o : Op) (p : MxPost) (ss : List Signer) (r : MxRun) : Image :=
  let e := r.recB
  let acc := s.epiAcc o p ss r.acc
  if p.minor < 4 then
    let conv := fun (x : Nat) =>
      if p.minor = 0 then (x, (0 : Fl))
      else cvtTo (mRM p.hint) (mSAT p.hint) (match p.minor with | 1 => 4 | 2 => 6 | _ => 7) (.f (FV.ofBits fmtF32 x))
    let rows := acc.map (fun row => row.map conv)
    let fl := rows.foldl (fun (f : Fl) row => row.foldl (fun (h : Fl) x => h ||| x.2) f) 0
    let ws := rows.zipIdx.map (fun row => (e.base + BitVec.ofNat 64 (row.2 * e.stride1), row.1.flatMap (fun x => leBytes x.1 (elemBytes e.fmt))))
    match s.placeAll o 2 e.guard ws with
    | .ok img => .ok s img fl 0
    | .error (c, d, a) => .fail s 0 c d a
  else
    match s.placeAll o 2 e.guard [(e.base, List.replicate (segSize e.fmt) 0)] with
    | .error (c, d, a) => .fail s 0 c d a
    | .ok ps =>
      let rows := (List.range 64).map (fun i => ((List.range (kStep e.fmt)).map (fun k => (acc.getD i [])[k]?)).toArray)
      match encodeSeg e.fmt rows e.theta e.mode e.version with
      | .trap n => .fail s 0 0x30 n 0
      | .ok bs fl => .ok s (segImage (fillPieces ps bs)) fl 0

/-- Pass 1 of `SPLIT.ENC` (R291): source and mask are read and the segment's bytes translated before anything is written.
(Log 66 DEDUCED.) -/
def State.encImage (s : State) (o : Op) (r : MxRun) : Image :=
  let src := r.recA
  let seg := r.recB
  let data := (List.range src.dim1).map (fun i => (src.base + BitVec.ofNat 64 (i * src.stride1), 4 * src.dim0))
  let masks := if src.scalebase = 0 then [] else
    (List.range src.dim1).map (fun i => (src.scalebase + BitVec.ofNat 64 (i * src.stride2), (src.dim0 + 7) / 8))
  match s.readRanges o 3 none (data ++ masks) with
  | .error (.fail s1 w c d a) => .fail s1 w c d a
  | .error _ => .wait
  | .ok (s1, bss, w) =>
    match s1.placeAll o 2 seg.guard [(seg.base, List.replicate (segSize seg.fmt) 0)] with
    | .error (c, d, a) => .fail s1 w c d a
    | .ok ps =>
      let arrs := (bss.map List.toArray).toArray
      let rows := (List.range 64).map (fun i => ((List.range (kStep seg.fmt)).map (fun k =>
        if src.dim1 ≤ i ∨ src.dim0 ≤ k then none
        else if src.scalebase ≠ 0 ∧ ((arrs.getD (src.dim1 + i) #[]).getD (k / 8) 0).getLsbD (k % 8) then none
        else some (arrNat (arrs.getD i #[]) (4 * k) 4))).toArray)
      match encodeSeg seg.fmt rows seg.theta seg.mode seg.version with
      | .trap n => .fail s1 w 0x30 n 0
      | .ok bs fl => .ok s1 (segImage (fillPieces ps bs)) fl w

/-- Pass 1 of `SPLIT.DEC` (R292): the segment is read and checked, the destination translated, the elements converted.
(Log 66 DEDUCED.) -/
def State.decImage (s : State) (o : Op) (r : MxRun) : Image :=
  let seg := r.recA
  let d := r.recB
  match s.readSegment o seg seg.base 2 0 3 with
  | .wait => .wait
  | .fail s1 w c x a => .fail s1 w c x a
  | .ok s1 b w =>
    let els := segRows b seg.fmt d.dim1 d.dim0
    let mbytes := (d.dim0 + 7) / 8
    let masks := if d.scalebase = 0 then [] else
      (List.range d.dim1).map (fun i => (d.scalebase + BitVec.ofNat 64 (i * d.stride2), mbytes))
    match s1.readRanges o 3 none masks with
    | .error (.fail s2 w2 c x a) => .fail s2 (Nat.max w w2) c x a
    | .error _ => .wait
    | .ok (s2, olds, w2) =>
      let vals := (List.range d.dim1).map (fun i => (List.range d.dim0).map (fun k =>
        match ((els.getD i #[]).getD k El.none).decoded with
        | some v => (cvtTo 0 0 (if d.fmt = 0 then 3 else 4) (.f v), false)
        | none => ((0, 0), true)))
      let fl := vals.foldl (fun (f : Fl) row => row.foldl (fun (h : Fl) x => h ||| x.1.2) f) 0
      let rows := vals.zipIdx.map (fun row => (d.base + BitVec.ofNat 64 (row.2 * d.stride1),
        row.1.flatMap (fun x => leBytes x.1.1 (elemBytes d.fmt))))
      let mrows := (masks.zip (olds.zip vals)).map (fun e => (e.1.1, e.2.1.zipIdx.map (fun x =>
        BitVec.ofNat 8 ((List.range 8).foldl (fun (n : Nat) i =>
          let k := 8 * x.2 + i
          let bit := if k < d.dim0 then ((e.2.2[k]?).map (·.2)).getD false else x.1.getLsbD i
          if bit then n + 2 ^ i else n) 0))))
      match s2.placeAll o 3 d.guard (rows ++ mrows) with
      | .ok img => .ok s2 img fl (Nat.max w w2)
      | .error (c, x, a) => .fail s2 (Nat.max w w2) c x a

/-- One step of an operation with a destination: pass 1, then one write of the image at a time; the last write of a segment,
its header, follows the write times of the others where the scope asks for them (R74). (Log 69 DEDUCED.) -/
def State.imageStep (s : State) (cu : Nat) (r : MxRun) (o : Op) (first : State → Image) : State :=
  let upd := fun (t : State) (x : MxRun) =>
    let u := t.cu cu
    t.setCu cu { u with mxRuns := u.mxRuns.map (fun y => if y.op = r.op then x else y) }
  match r.img with
  | none =>
    (match first s with
     | .wait => s
     | .fail s1 w c d a => s1.mxFail (o.saw w) c d a 0 0
     | .ok s1 img fl w =>
       let s2 := upd s1 { r with t := 0, tEnd := img.length, img := some img }
       let s3 := s2.setOp { (o.saw w) with sticky := o.sticky ||| fl }
       { s3 with freeCtr := s.freeCtr + 1 })
  | some img =>
    (match img[r.t]? with
     | none => s
     | some (l, va, bs) =>
       let header := isSplit r.recB.fmt && decide (r.t + 1 = img.length)
       if header && decide (4 ≤ o.scope.code) && decide (s.lease o.cu < o.gwct) then s
       else
         let (s1, g) := s.engineWrite cu o.ctx l bs (if r.recB.guard then .stamp r.recB.version va else .clear)
         upd (s1.setOp { o with gwct := Nat.max o.gwct g }) { r with t := r.t + 1 })

/-- MATRIX_STEP (R75, R286, R289): the oldest operation with an entry advances by one unit: a K-step that the press commits,
or a pass or write of an epilogue, an encoder or a decoder. (Log 61 DESIGN CHOICE, 62 DESIGN CHOICE, 69 DEDUCED.) -/
def execMatrixStep (cu : Nat) (s : State) : Host.Outcome State Fault Refusal :=
  match (s.cu cu).mxRuns with
  | [] => .next s
  | r :: _ =>
    match s.op r.op with
    | none => .next (s.dropRun cu r.op)
    | some o =>
      if r.t = r.tEnd then .next s
      else match o.kind with
        | .gang g p ss => .next (if p.op = 3 then s.imageStep cu r o (fun t => t.epiImage o p ss r) else s.mmStep cu r o g p ss)
        | .split enc _ _ _ => .next (s.imageStep cu r o (fun t => if enc then t.encImage o r else t.decImage o r))
        | _ => .next s

/-- MX_OPERATION_COMPLETE (R273): the oldest operation with an entry has done its last unit: it leaves the queue, its
accumulators that others wrote are undefined, and it completes when its scope allows. -/
def execMxOperationComplete (cu : Nat) (s : State) : Host.Outcome State Fault Refusal :=
  match (s.cu cu).mxRuns with
  | [] => .next s
  | r :: _ =>
    match s.op r.op with
    | none => .next (s.dropRun cu r.op)
    | some o =>
      if r.t ≠ r.tEnd then .next s
      else
        .next (((s.loosen o).dropRun cu r.op).mxSettle o)

end Sys2Proof.Machine
end

