-- ==== Sys2Proof/Machine/Packets.lean ====
section
/-!
DEFINITION. The fabric engine's target side: packets that arrive and their answers, message queues, dead peers, and what waits
for a GWCT (R100, R344-R351, R357, R358, R363-R366).
-/
namespace Sys2Proof.Machine

-- Acknowledging again (R346, R347) ------------------------------------------------------------------------------------------

/-- Answers a duplicate: with the time the first copy's answer waits for, if that is still owed.
(Log 98 DEDUCED, 102 DEDUCED.) -/
def State.answerDup (s : State) (p r : Packet) : State :=
  let g := (s.fe.owed.filter (fun o => match o.reply with
    | some q => q.dst == p.src && q.seq == p.seq && q.ty != 0x10 && q.ty != 0x13 && (q.ty == 0x12 || q.aux.setWidth 2 == p.tc)
    | none => false)).foldl (fun n o => Nat.max n o.gwct) 0
  s.answerAfter { Owed.none with reply := some r, gwct := g }

-- Reads (R344, R351) --------------------------------------------------------------------------------------------------------

/-- The bytes a read packet asks for. -/
def readLen (p : Packet) : Nat := if p.ty = 1 then 32 * (bitsN p.aux.toNat 0 3 + 1) else p.aux.toNat

/-- The first byte a read packet asks for. -/
def readAt (p : Packet) : Nat := if p.ty = 1 then sectorOf p.addr.toNat else p.addr.toNat

/-- Does a read packet meet a poisoned line? -/
def State.readPoisoned (s : State) (p : Packet) : Bool :=
  (List.range (readLen p / 128 + 2)).any (fun i =>
    let a := blockOf (readAt p) + 128 * i
    decide (a < readAt p + readLen p) && s.poisoned a)

/-- Serves a `READ` (R344): the sectors with the remaining wait of R85. -/
def State.serveRead (s : State) (p : Packet) : State :=
  let n := readLen p
  let w := (List.range (n / 32)).foldl (fun m i => Nat.max m (s.secMeta (readAt p + 32 * i)).wvt) 0
  (s.ownLines p.sctx ((List.range (n / 32)).map (fun i => readAt p + 32 * i))).launchPacket { answerTo p 0x10 with aux := s.remaining w, len := BitVec.ofNat 9 n, payload := s.hbmBytes (readAt p) n } 1

/-- Serves a `GET` or `GETG` (R344): the range in packets of up to 256 bytes, the guarded ones with their blocks' tags. A packet
carries no remaining wait, so it is sent when the wait of R85 is over at the target. (Log 159 DESIGN CHOICE.) -/
def State.serveGet (s : State) (p : Packet) : State :=
  let n := readLen p
  (List.range ((n + 255) / 256)).foldl (fun (t : State) i =>
    let k := Nat.min 256 (n - 256 * i)
    let a := readAt p + 256 * i
    let r := { answerTo p 0x13 with
      addr := BitVec.ofNat 40 (256 * i), len := BitVec.ofNat 9 k, payload := t.hbmBytes a k
      aux := if p.ty = 7 then 1 else 0, trailer := if p.ty = 7 then [t.guardTag a, t.guardTag (a + 128)] else [] }
    (t.ownLines p.sctx (sectorsOf a k)).answerAfter { Owed.none with reply := some r, gwct := t.spanWvt a k }) s

/-- Serves a read, or lets it wait until the scrubber has rewritten its line (R351). -/
def State.serve (s : State) (p : Packet) : State :=
  if s.readPoisoned p then
    (if s.fe.owed.any (fun o => match o.read with | some q => q.src == p.src && q.seq == p.seq && q.ty == p.ty | none => false) then s
     else s.owe { Owed.none with read := some p })
  else if p.ty = 1 then s.serveRead p else s.serveGet p

/-- A read packet of a type: a duplicate is served again (R346). -/
def State.readArrives (s : State) (p : Packet) (ty : Nat) : State :=
  match s.receive p [ty] with
  | .drop s1 => s1
  | .dup => s.serve p
  | .fresh => (s.markSeq p).serve p

/-- READ_PACKET (R344). -/
def execReadPacket (p : Packet) (s : State) : Host.Outcome State Fault Refusal := .next (s.readArrives p 1)
/-- GET_PACKET (R344). (Log 159 DESIGN CHOICE.) -/
def execGetPacket (p : Packet) (s : State) : Host.Outcome State Fault Refusal := .next (s.readArrives p 6)
/-- GETG_PACKET (R344): the tags go with the blocks. (Log 86 DEDUCED, 159 DESIGN CHOICE.) -/
def execGetgPacket (p : Packet) (s : State) : Host.Outcome State Fault Refusal := .next (s.readArrives p 7)

-- Writes (R344, R346, R354) ---------------------------------------------------------------------------------------------------

/-- WRITE_PACKET (R344): the bytes that the mask names are performed, counted and acknowledged after their GWCT. -/
def execWritePacket (p : Packet) (s : State) : Host.Outcome State Fault Refusal :=
  match s.receive p [2] with
  | .drop s1 => .next s1
  | .dup => .next (s.answerDup p (ackOf p true))
  | .fresh =>
    let pa := sectorOf p.addr.toNat
    let wr := (p.payload.zipIdx.filter (fun e => p.aux.getLsbD e.2)).map (fun e => (e.2, e.1))
    let (s1, g) := (s.markSeq p).writeSector p.sctx (.mem pa) wr
    .next (s1.answerAfter { Owed.none with
      reply := some (ackOf p false), gwct := g, landed := (runs wr).map (fun r => (pa + r.1, r.2.length)) })

/-- PUT_PACKET (R344): its bytes are performed with guard tag 0, counted and acknowledged after their GWCT. -/
def execPutPacket (p : Packet) (s : State) : Host.Outcome State Fault Refusal :=
  match s.receive p [4] with
  | .drop s1 => .next s1
  | .dup => .next (s.answerDup p (ackOf p true))
  | .fresh =>
    let bs := p.payload.take p.len.toNat
    let (s1, g) := (s.markSeq p).writeSpan p.sctx p.addr.toNat bs .clear
    .next (s1.answerAfter { Owed.none with
      reply := some (ackOf p false), gwct := g, landed := [(p.addr.toNat, bs.length)] })

/-- The code in a refusal's AUX [7:0] by which a target reports a guard failure: the model's choice, since the packet contents
of R344 name none. (Log 85 DESIGN CHOICE.) -/
def guardReason (r blk : Nat) : Nat := 128 + blk * 16 + r

/-- PUTG_PACKET (R344, R360): blocks without a tag are stamped with the version of AUX, blocks with one are checked (2 and 4 of
R321) and carried. A block that fails is not written. (Log 85 DESIGN CHOICE, 87 DEDUCED.) -/
def execPutgPacket (p : Packet) (s : State) : Host.Outcome State Fault Refusal :=
  match s.receive p [5] with
  | .drop s1 => .next s1
  | .dup => .next (s.answerDup p (ackOf p true))
  | .fresh =>
    let n := p.len.toNat / 128
    let v := bitsN p.aux.toNat 20 12
    let step := fun (acc : State × Nat × Nat × Option Nat) (i : Nat) =>
      match acc with
      | (t, g, done, none) =>
        let bs := (p.payload.drop (128 * i)).take 128
        let va : DWord := BitVec.ofNat 64 ((p.aux.toNat + i) % 2 ^ 20 * 128)
        let tag := p.trailer.getD i 0
        (match (if tag = 0 then none else receiverCheck tag v bs) with
         | some r => (t, g, done, some r)
         | none =>
           let (t1, g1) := t.writeHbm p.sctx (p.addr.toNat + 128 * i) bs (if tag = 0 then .stamp v va else carryTag tag va)
           (t1, Nat.max g g1, done + 1, none))
      | x => x
    let (s1, g, done, bad) := (List.range n).foldl step (s.markSeq p, 0, 0, none)
    .next (s1.answerAfter { Owed.none with
      reply := some (match bad with | some r => refusalOf p (guardReason r done) | none => ackOf p false)
      gwct := g, landed := if done = 0 then [] else [(p.addr.toNat, 128 * done)] })

/-- ATOMIC_PACKET (R250, R264, R344, R346): it joins its source's FIFO at the service fibre that owns its sector, or is answered BUSY
while that FIFO is full; a duplicate is answered from the dedup cache, or discarded. (Log 76 DEDUCED, 155 DESIGN CHOICE.) -/
def execAtomicPacket (p : Packet) (s : State) : Host.Outcome State Fault Refusal :=
  match s.receive p [3] with
  | .drop s1 => .next s1
  | .dup =>
    (match (Tbl.get s.fe.dedup p.src []).find? (fun e => e.1 == p.seq) with
     | some (_, r) => .next (s.answerDup p { r with dup := r.ty == 0x11 })
     | none => .next s)
  | .fresh =>
    let g := ownerOf (sectorOf p.addr.toNat)
    if 48 ≤ (s.aseOf g (.peer p.src)).length then
      .next (s.launchPacket { answerTo p 0x14 with aux := BitVec.ofNat 32 (1024 + g) } 1)
    else
    let s1 := s.markSeq p
    .next { s1 with ase := s1.ase ++ [(g, .peer p.src, .packet p)] }

-- Share-group invalidation and resynchronisation (R344, R366) -------------------------------------------------------------------

/-- CTRL_INVALIDATION (R344): the invalidation is posted here and acknowledged when it is complete (R214). -/
def execCtrlInvalidation (p : Packet) (s : State) : Host.Outcome State Fault Refusal :=
  if p.aux.setWidth 8 ≠ 1#8 then .next s
  else match s.receive p [9] with
    | .drop s1 => .next s1
    | .dup =>
      if s.invs.any (fun v => match v.reply with | some q => q.src == p.src && q.seq == p.seq | none => false) then .next s
      else .next (s.launchPacket (ackOf p true) 1)
    | .fresh =>
      let w := fun (i : Nat) => leNat ((p.payload.drop (8 * i)).take 8)
      let v : Inv :=
        { id := s.nextId, fid := 0, range := invRange (w 0) (BitVec.ofNat 64 (w 1)) (BitVec.ofNat 64 (w 2)), sys := false,
          applied := false, mark := 0, waiting := [], reply := some p }
      let s1 := (s.markSeq p).bump
      .next { s1 with invs := s1.invs ++ [v] }

/-- CTRL_RESYNC (R366): whatever the window holds, the windows and the dedup cache for the source are reset, the packet counts as
number 0 of the new TC0 window, and it is acknowledged, if the checks of R351 let it in. (Log 97 DEDUCED, 166 DEDUCED.) -/
def execCtrlResync (p : Packet) (s : State) : Host.Outcome State Fault Refusal :=
  if p.dst ≠ s.fe.devid ∨ p.ty ≠ 9 ∨ p.aux.setWidth 8 ≠ 3#8 then .next s
  else if !formed p then .next s.discard
  else if s.shunned p.src then .next s
  else match s.refuses p with
  | some r => .next (s.launchPacket (refusalOf p r) 1)
  | none =>
    let s1 : State := { s with fe := { s.fe with
      rx := Tbl.set (s.fe.rx.filter (fun e => e.1.1 != p.src)) (p.src, p.tc) (1, []), dedup := Tbl.del s.fe.dedup p.src } }
    .next (s1.launchPacket (ackOf p false) 1)

-- Message queues (R357, R358, R363, R365) ------------------------------------------------------------------------------------------

/-- Writes bytes at an offset of a queue area, for a context. -/
def State.writeArea (s : State) (m : MsgQ) (cid : BitVec 12) (off : Nat) (bs : List Byte) : State × Nat :=
  let va := m.base.toNat + off
  (pieces va bs.length).foldl (fun (acc : State × Nat) p =>
    let a := va + p.1
    let pa := m.pages.getD (a / 4096 - m.base.toNat / 4096) 0 + a % 4096
    let (t, g) := acc.1.writeHbm cid pa ((bs.drop p.1).take p.2) .clear
    (t, Nat.max acc.2 g)) (s, 0)

/-- Replaces a queue. -/
def State.setMsgQ (s : State) (q : Nat) (m : MsgQ) : State := { s with fe := { s.fe with queues := Tbl.set s.fe.queues q m } }

/-- The queue with a number, if it is posted. -/
def State.msgQ (s : State) (q : Nat) : Option MsgQ := (s.fe.queues.find? (fun e => e.1 == q)).map (·.2)

/-- The byte of the wait bitmap in which a source's bit lies. (Log 94 DEDUCED.) -/
def MsgQ.bitByte (m : MsgQ) (d : BitVec 16) : Byte :=
  BitVec.ofNat 8 ((List.range 8).foldl (fun n i => if Tbl.has m.waiting (BitVec.ofNat 16 (d.toNat / 8 * 8 + i)) then n + 2 ^ i else n) 0)

/-- Replaces a queue whose wait bitmap changed for a source, in memory as well (R357). (Log 94 DEDUCED.) -/
def State.setWaiting (s : State) (q : Nat) (m : MsgQ) (d : BitVec 16) : State :=
  ((s.setMsgQ q m).writeArea m m.ctx (320 * m.nslots + d.toNat / 8) [m.bitByte d]).1

/-- The state of a slot. -/
def MsgQ.slot (m : MsgQ) (j : Nat) : MSlot := Tbl.get m.slots j .free

/-- The waiting source that is next after the last one granted, in ascending device id with wrap-around (R358).
(Log 93 DESIGN CHOICE.) -/
def MsgQ.nextWaiting (m : MsgQ) : Option (BitVec 16 × Packet) :=
  let key := fun (e : BitVec 16 × Packet) => (e.1 - m.lastGrant - 1).toNat
  match m.waiting with
  | [] => none
  | h :: t => some (t.foldl (fun b e => if key e < key b then e else b) h)

/-- A slot that became free is reserved for the next waiting source, which is granted it (R358 step 3). -/
def State.grantSlot (s : State) (q j : Nat) : State :=
  match s.msgQ q with
  | some m =>
    (match m.nextWaiting with
     | some (d, p) =>
       let m1 := { m with
         waiting := Tbl.del m.waiting d, lastGrant := d, reserved := m.reserved ++ [(j, d, s.feTime + s.fe.fertimer.toNat)] }
       (s.setWaiting q m1 d).launchPacket { answerTo p 0x15 with aux := BitVec.ofNat 32 q } 1
     | none => s)
  | none => s

/-- The slot a message of a source may take: one reserved for it, else the lowest free one that is not reserved. -/
def MsgQ.slotFor (m : MsgQ) (d : BitVec 16) : Option Nat :=
  match m.reserved.find? (fun e => e.2.1 == d) with
  | some e => some e.1
  | none => (List.range m.nslots).find? (fun j => m.slot j == .free && !m.reserved.any (fun e => e.1 == j))

/-- MSG_PACKET (R358): the message takes a slot, or is answered BUSY; a queue that is not posted refuses it (R363).
(Log 95 DEDUCED.) -/
def execMsgPacket (p : Packet) (s : State) : Host.Outcome State Fault Refusal :=
  match s.receive p [8] with
  | .drop s1 => .next s1
  | .dup => .next (s.answerDup p (ackOf p true))
  | .fresh =>
    let q := p.aux.toNat
    match s.msgQ q with
    | none => .next ((s.markSeq p).launchPacket (refusalOf p 7) 1)
    | some m =>
      match m.slotFor p.src with
      | none =>
        .next ((s.setWaiting q { m with waiting := Tbl.set m.waiting p.src { p with payload := [] } } p.src).launchPacket
          { answerTo p 0x14 with aux := BitVec.ofNat 32 q } 1)
      | some j =>
        let rec' := leBytes p.src.toNat 2 ++ leBytes p.len.toNat 2 ++ List.replicate 4 0 ++
          leBytes (p.tag.toNat + p.addr.toNat % 2 ^ 32 * 2 ^ 32) 8 ++ List.replicate 48 0
        let m1 := { m with
          slots := Tbl.set m.slots j .writing, order := m.order ++ [j], reserved := m.reserved.filter (fun e => e.1 != j) }
        let (s1, g) := ((s.markSeq p).setMsgQ q m1).writeArea m p.sctx (320 * j) (rec' ++ p.payload.take p.len.toNat)
        .next (s1.answerAfter { Owed.none with reply := some (ackOf p false), gwct := g, queue := some (q, j) })

/-- GRANT_LAPSE (R358): a reservation that no message took within FERTIMER goes to the next source. (Log 95 DEDUCED.) -/
def execGrantLapse (q : Nat) (s : State) : Host.Outcome State Fault Refusal :=
  match s.msgQ q with
  | some m =>
    (match m.reserved.find? (fun e => decide (e.2.2 ≤ s.feTime)) with
     | some e => .next ((s.setMsgQ q { m with reserved := m.reserved.filter (fun x => x.1 != e.1) }).grantSlot q e.1)
     | none => .next s)
  | none => .next s

/-- The queue area of a descriptor checked against R357: its pages. -/
inductive Area where
  | ok (pages : List Nat)
  | fail (cause : BitVec 8) (detail : Nat) (addr : DWord)
  | miss (vas : List DWord)
deriving DecidableEq, Repr

/-- Translates and checks a queue area: 64-byte aligned, local HBM, PINNED (R357, R363). (Log 91 DEDUCED.) -/
def State.queueArea (s : State) (base : DWord) (nslots : Nat) : Area :=
  if base.toNat % 64 ≠ 0 then .fail 0x55 1 0
  else match span (fun va => s.accessMe va .write) base (320 * nslots + 8192) with
    | .miss vas => .miss vas
    | .fail c d a => .fail c d a
    | .ok rs pinned =>
      if !pinned || rs.any (fun r => !r.loc.isHbm) then .fail 0x55 1 0
      else .ok (rs.map (fun r => r.loc.pa / 4096 * 4096))

/-- `QPOST` (R363). (Log 46 DEDUCED, 91 DEDUCED, 92 DEDUCED, 93 DESIGN CHOICE, 94 DEDUCED.) -/
def execQpost (q a : SReg) (s : State) : Host.Outcome State Fault Refusal :=
  issue (.qpost q a) s (fun s =>
    let w := s.sreg q.toNat
    let n := fld w 0 10
    let va := s.sreg a.toNat
    if fld w 10 54 ≠ 0 then s.take 0x51 4
    else if va = 0 then
      match s.msgQ n with
      | none => s.take 0x54 1
      | some m =>
        if m.ctx ≠ s.myWg.ctx then s.take 0x54 1
        else if s.fe.owed.any (fun o => match o.queue with | some e => e.1 == n | none => false) then s.waitHere
        else ({ s with fe := { s.fe with queues := Tbl.del s.fe.queues n } } : State).retire
    else if va.toNat % 64 ≠ 0 then s.take 0x54 5
    else match s.readMe va 64 with
      | .stop s1 => s1
      | .ok s1 bs _ =>
        let f := fun (o k : Nat) => leNat ((bs.drop o).take k)
        let c := f 8 8
        let logn := bitsN c 0 5
        let base : DWord := BitVec.ofNat 64 (f 0 8)
        if logn < 4 ∨ 16 < logn ∨ c / 2 ^ 14 ≠ 0 ∨ (bs.drop 16).any (· != 0) then s1.take 0x54 5
        else if (s1.msgQ n).isSome then s1.take 0x54 3
        else match s1.queueArea base (2 ^ logn) with
          | .miss vas => (s1.joinWalks vas).waitHere
          | .fail cz d v => (s1.takeAt cz d v 0 none).dropWalks
          | .ok pages =>
            let m : MsgQ :=
              { ctx := s1.myWg.ctx, base := base, pages := pages, nslots := 2 ^ logn
                cnt := if bitsN c 13 1 = 1 then some (bitsN c 5 8) else none, wg := s1.actor.wg, slots := [], order := []
                waiting := [], lastGrant := 0xFFFF, reserved := [] }
            let s2 := ((s1.setMsgQ n m).writeArea m m.ctx (320 * m.nslots) (List.replicate 8192 0)).1
            s2.retire)

/-- `QPOP` (R365). A slot is filled after its message's GWCT, so a pop needs no further wait to be an acquire.
(Log 92 DEDUCED.) -/
def execQpop (r d q : SReg) (s : State) : Host.Outcome State Fault Refusal :=
  issue (.qpop r d q) s (fun s =>
    let w := s.sreg q.toNat
    let n := fld w 0 10
    let x := s.sreg r.toNat
    if fld w 10 54 ≠ 0 then s.take 0x51 4
    else match (s.msgQ n).filter (fun m => m.ctx == s.myWg.ctx) with
      | none => s.take 0x54 1
      | some m =>
        let j := (x - m.base).toNat / 320
        if x ≠ 0 ∧ ¬ ((x - m.base).toNat % 320 = 0 ∧ j < m.nslots ∧ m.slot j = .held) then s.take 0x54 4
        else
          let s1 := if x = 0 then s else (s.setMsgQ n { m with slots := Tbl.del m.slots j }).grantSlot n j
          match s1.msgQ n with
          | none => s1.retire
          | some m1 =>
            match m1.order.find? (fun k => m1.slot k == .filled) with
            | some k =>
              ((s1.setMsgQ n { m1 with slots := Tbl.set m1.slots k .held, order := m1.order.filter (· ≠ k) }).setS d.toNat
                (m1.base + BitVec.ofNat 64 (320 * k))).retire
            | none => (s1.setS d.toNat 0).retire)

/-- `MSEND` (R364): the message waits to be sent; its body is read when it is. (Log 100 DEDUCED.) -/
def execMsend (l t b : SReg) (f : BitVec 1) (s : State) : Host.Outcome State Fault Refusal :=
  issue (.msend l t b f) s (fun s =>
    let w := s.sreg t.toNat
    let n := (s.sreg l.toNat).toNat
    let tag := s.sreg (l.toNat + 1)
    let dev : BitVec 16 := w.setWidth 16
    if fld w 26 38 ≠ 0 then s.take 0x51 6
    else if 256 < n then s.take 0x51 2
    else if s.fe.dead.contains dev then s.take 0x50 (deadDetail dev)
    else if dev ≠ s.fe.devid ∧ ¬ s.hasRoute dev then s.take 0x52 (deadDetail dev)
    else
      let va := s.sreg b.toNat
      let o := { s.newOp (.msend dev (fld w 16 10) va []) (s.flagSel f) s.me.mask (clsCR ||| clsCW) .system with st := .running }
      s.emitWith o (fun u =>
        u.newTx { u.blankPkt dev 8 3 o.ctx with
          addr := (tag >>> 32).setWidth 40, aux := BitVec.ofNat 32 (fld w 16 10), tag := tag.setWidth 32, len := BitVec.ofNat 9 n } o.id 0))

-- Dead peers (R366) ----------------------------------------------------------------------------------------------------------------

/-- `PEER.STAT` (R366). -/
def execPeerStat (d i : SReg) (s : State) : Host.Outcome State Fault Refusal :=
  issue (.peerStat d i) s (fun s =>
    let w := s.sreg i.toNat
    if fld w 10 54 ≠ 0 then s.take 0x51 4
    else
      let k := fld w 0 10
      (s.setS d.toNat (maskOf ((List.range 64).filter (fun b => s.fe.dead.contains (BitVec.ofNat 16 (64 * k + b)))))).retire)

/-- `PEER.CLR` (R366): it resets the counters and windows for the peer, sends the resynchronisation with number 0, and waits in
place for its acknowledgement. (Log 166 DEDUCED.) -/
def execPeerClr (i : SReg) (s : State) : Host.Outcome State Fault Refusal :=
  issue (.peerClr i) s (fun s =>
    let w := s.sreg i.toNat
    let d : BitVec 16 := w.setWidth 16
    if ¬ s.myCtx.priv then s.take 0x04 0
    else if fld w 16 48 ≠ 0 then s.take 0x51 4
    else if s.fe.resync.any (fun e => e.1 == d && e.2.1 == s.actor && e.2.2 == s.me.fid) then s.waitHere
    else if ¬ s.fe.dead.contains d then s.retire
    else
      let s1 : State := { s with fe := { s.fe with
        dead := s.fe.dead.filter (· ≠ d), nextSeq := s.fe.nextSeq.filter (fun e => e.1.1 != d)
        rx := s.fe.rx.filter (fun e => e.1.1 != d), resync := s.fe.resync ++ [(d, s.actor, s.me.fid)] } }
      let s2 := s1.newTx { s1.blankPkt d 9 0 s1.myWg.ctx with aux := 3 } 0 0
      match s2.fe.tx.find? (fun t => t.id == s1.nextId) with
      | some t => (s2.firstSend t t.pkt).waitHere
      | none => s2.waitHere)

-- Answers at the source (R344, R346, R347) -------------------------------------------------------------------------------------------

/-- The time an answer's remaining wait leads to (R85). -/
def State.waitFrom (s : State) (o : Op) (p : Packet) : Nat := s.lease o.cu + p.aux.toNat

/-- RDATA (R344, R100): the data of a load's sector is bound; a read-only page's line stays as a copy in the local L2. -/
def execRdata (p : Packet) (s : State) : Host.Outcome State Fault Refusal :=
  if s.hears p 0x10 then
    match (s.txFor p [0]).filter (fun t => t.pkt.ty == 1) with
    | none => .next s
    | some t =>
      let s1 := s.dropTx t.id
      match s1.op t.op with
      | none => .next s1
      | some o =>
        match o.parts[t.part]? with
        | none => .next s1
        | some q =>
          let wide := t.pkt.aux = 3
          let pa := t.pkt.addr.toNat
          let data := if wide then (p.payload.drop (q.loc.pa % 128)).take 32 else p.payload.take 32
          let (page, bytes) := match s1.accessOp o.who.wg o.cu o.ctx q.va .read with
            | .at _ (some l) => (l.base, l.bytes)
            | _ => (blockOf q.va.toNat % 2 ^ 57, 128)
          let y : PeerSec := { asid := (s1.ctx o.ctx).asid, ctx := o.ctx, va := BitVec.ofNat 64 (blockOf q.va.toNat), dev := t.pkt.dst, pa := pa, wvt := s1.waitFrom o p, data := p.payload, page := page, bytes := bytes }
          let s2 : State := if wide then
              { s1 with peerL2 := y :: s1.peerL2.filter (fun x => !(x.ctx == o.ctx && x.va == y.va && x.dev == y.dev && x.pa == pa)) }
            else s1
          .next (s2.setOp (o.setPart t.part { q with st := .bound, data := data, wvt := s2.waitFrom o p }))
  else .next s

/-- The flags an answer carries in ADDR [4:0] (R344). -/
def answerFlags (p : Packet) : BitVec 9 := p.addr.setWidth 9 &&& 31

/-- What an acknowledged packet was for: a store's request, an atomic without result, a piece of a put, a message, a
resynchronisation or a share-group invalidation. -/
def State.acked (s : State) (t : TxPkt) (p : Packet) : State :=
  match s.op t.op with
  | some o =>
    (match t.pkt.ty.toNat, o.parts[t.part]? with
     | 2, some q => s.endWrite o t.part q
     | 3, some q => s.endAtomic o t.part { q with data := [], flags := answerFlags p }
     | 4, _ | 5, _ => s.xferAck t.op t.pkt.len.toNat
     | 8, _ => s.settle o
     | _, _ => s)
  | none =>
    if t.pkt.ty ≠ 9 then s
    else if t.pkt.aux = 3 then { s with fe := { s.fe with resync := s.fe.resync.filter (fun e => e.1 != p.src) } }
    else { s with invs := s.invs.map (fun (v : Inv) => if v.id = t.op then { v with waiting := v.waiting.filter (· ≠ p.src) } else v) }

/-- ACK (R347): the packet leaves the retry buffer and its operation goes on; an acknowledgement of a duplicate for a packet that
was replayed counts a spurious replay. -/
def execAck (p : Packet) (s : State) : Host.Outcome State Fault Refusal :=
  if s.hears p 0x11 then
    let tc := bitsN p.aux.toNat 0 2
    let s1 : State := if p.dup && s.fe.replayed.contains (p.src, BitVec.ofNat 2 tc, p.seq) then
        { s with fe := { s.fe with spur := s.fe.spur + 1 } } else s
    match s1.txFor p [tc] with
    | some t =>
      if t.pkt.ty = 1 ∨ t.pkt.ty = 6 ∨ t.pkt.ty = 7 then .next s1 else .next ((s1.dropTx t.id).acked t p)
    | none => .next s1
  else .next s

/-- ARESULT (R344, R257): the old values reach the lanes. Of a `CAS` through a read-only entry each lane that would have
succeeded raises a permission fault. -/
def execAresult (p : Packet) (s : State) : Host.Outcome State Fault Refusal :=
  if s.hears p 0x12 then
    match (s.txFor p [0]).filter (fun t => t.pkt.ty == 3) with
    | none => .next s
    | some t =>
      let s1 := s.dropTx t.id
      match s1.op t.op with
      | none => .next s1
      | some o =>
        match o.parts[t.part]? with
        | none => .next s1
        | some q =>
          let hit : List (Nat × Nat) := match o.kind with
            | .cas wide _ =>
              let w := if wide then 8 else 4
              if q.writable then [] else
                (q.lanes.zipIdx.filter (fun e =>
                  leNat ((p.payload.drop (e.2 * w)).take w) == (entryOf wide true e.1.2 (Tbl.get o.argv e.1.1 [])).v % 256 ^ w)).map (·.1)
            | _ => []
          let fault := match hit with
            | [] => none
            | l :: _ =>
              let e := q.seenBy q.expiry l.1
              some (o.faultRec 0x21 (xDetail 1 e.2.2) (e.1 + BitVec.ofNat 64 l.2) (maskOf (hit.map (·.1))) (some l.1))
          .next (s1.endAtomic o t.part { q with
            data := p.payload, flags := answerFlags p, wvt := s1.waitFrom o p, fault := fault })
  else .next s

/-- The bytes of a get's packet that have arrived, in any order. (Log 80 DEDUCED.) -/
def gotBytes (got : List (Nat × Nat)) : Nat := (got.map (·.2)).sum

/-- GETDATA (R344, R346, R360): the first data to arrive for each unit is written, under guard after the checks of its blocks
(R321); with its last byte the request leaves the retry buffer. The packet's remaining wait is over when it is sent, so the
operation has observed the time of its arrival (R85). (Log 80 DEDUCED, 86 DEDUCED, 157 DESIGN CHOICE, 159 DESIGN CHOICE.) -/
def execGetdata (p : Packet) (s : State) : Host.Outcome State Fault Refusal :=
  if s.hears p 0x13 then
    match (s.txFor p [2]).filter (fun t => t.pkt.ty == 6 || t.pkt.ty == 7) with
    | none => .next s
    | some t =>
      let at' := p.addr.toNat % 4096
      let n := p.len.toNat
      if t.got.any (fun e => e.1 == at') then .next s
      else
        let t1 := { t with got := t.got ++ [(at', n)] }
        let s1 := if gotBytes t1.got < t.pkt.aux.toNat then s.setTx t1 else s.dropTx t.id
        match s1.op t.op with
        | none => .next s1
        | some o =>
          if o.fault.isSome then .next (s1.failDone t.op)
          else match o.kind with
          | .xfer x =>
            let off := t.part + at'
            let sva := fun (i : Nat) => x.sva + BitVec.ofNat 64 (off + 128 * i)
            let dva := fun (i : Nat) => x.dva + BitVec.ofNat 64 (off + 128 * i)
            let bs := p.payload.take n
            let ts := p.trailer.take (n / 128)
            let v := (x.guard.map gVer).getD 0
            let bad := if x.carries then
                firstBad (fun i g => (senderCheck g (sva i)).orElse (fun _ => receiverCheck g v ((bs.drop (128 * i)).take 128))) ts
              else none
            (match bad with
             | some (i, r) => .next (s1.feFail o 0x24 (s.xferDetail o (fabGuard r)) (sva i))
             | none =>
               let (lo, out, rest) := x.ready off bs
               let (s2, g, _) := s1.xferWrite o x lo out (fun k =>
                 if x.carries then carryTag (ts.getD (k / 128) 0) (dva (k / 128)) else .clear)
               let y := { x with hold := rest, wrote := x.wrote ++ [(lo, out.length)] }
               (match s2.op t.op with
                | some o1 =>
                  .next ((s2.setOp { o1 with
                    gwct := Nat.max o1.gwct g, ot := Nat.max o1.ot (s.lease o.cu), kind := .xfer y }).xferAck t.op n)
                | none => .next s2))
          | _ => .next s1
  else .next s

/-- BUSY (R264, R358): the timer stops; without a grant the message or atomic is sent again after 1, 2, 4, … and at most 64 µs. One
for an atomic names a service fibre in place of a queue. (Log 96 DEDUCED, 155 DESIGN CHOICE.) -/
def execBusy (p : Packet) (s : State) : Host.Outcome State Fault Refusal :=
  if s.hears p 0x14 then
    match (s.txFor p [if p.aux.toNat < 1024 then 3 else 0]).filter (fun t => t.st == .sent && (t.pkt.ty == 3 || t.pkt.ty == 8)) with
    | some t =>
      .next (s.setTx { t with st := .busy, deadline := s.feTime + 1000 * t.backoff, backoff := Nat.min 64 (2 * t.backoff) })
    | none => .next s
  else .next s

/-- GRANT (R358): the message is sent again with the same number. -/
def execGrant (p : Packet) (s : State) : Host.Outcome State Fault Refusal :=
  if s.hears p 0x15 then
    match (s.txFor p [3]).filter (fun t => t.st == .busy) with
    | some t => .next (s.transmit t t.pkt 1)
    | none => .next s
  else .next s

/-- REFUSED (R351, R364): the operation faults with the reason, and completes when its other packets are answered (R93): cause 0x54 for a queue that is not posted, cause 0x24 for a guard
failure at the target, else cause 0x53; a `PEER.CLR` whose resynchronisation is refused faults in the same way.
(Log 84 DEDUCED, 85 DESIGN CHOICE, 166 DEDUCED, 176 DESIGN CHOICE.) -/
def execRefused (p : Packet) (s : State) : Host.Outcome State Fault Refusal :=
  if s.hears p 0x16 then
    match s.txFor p [bitsN p.aux.toNat 8 2] with
    | none => .next s
    | some t =>
      let r := bitsN p.aux.toNat 0 8
      match s.op t.op with
      | none =>
        let clears := if t.pkt.ty = 9 ∧ t.pkt.aux.setWidth 8 = 3#8 then s.fe.resync.filter (fun e => e.1 == t.pkt.dst) else []
        let s1 := s.dropTx t.id
        .next (clears.foldl (fun (u : State) e =>
          let f := u.fib e.2.1
          if f.fid = e.2.2 ∧ f.st = FSt.ready then u.freeze e.2.1 (faultAt f.unitPc 0x53 r 0 0 none) else u)
          { s1 with fe := { s1.fe with resync := s1.fe.resync.filter (fun e => clears.all (fun c => c != e)) } })
      | some o =>
        let k := if r = 7 then 0x54 else if 128 ≤ r then 0x24 else (0x53 : BitVec 8)
        let blk := 128 * ((r - 128) / 16)
        let d := s.xferDetail o (if 128 ≤ r then fabGuard (r % 16) else r) +
          (match o.kind with | .xfer x => if 128 ≤ r ∧ s.committed o.id x = t.part then blk * 256 else 0 | _ => 0)
        let addr := match o.kind, o.parts[t.part]? with
          | .xfer x, _ => if 128 ≤ r then x.sva + BitVec.ofNat 64 (t.part + blk) else x.dva + BitVec.ofNat 64 t.part
          | _, some q => q.va
          | _, none => 0
        match o.kind with
        | .load .none =>
          -- a unit that reads peer memory itself, or a prefetch: the unit faults when it is its own read (R29)
          let s1 : State := { s.dropTx t.id with ops := s.ops.filter (fun x => x.id ≠ o.id) }
          let f := s1.fib o.who
          if f.fid = o.fid ∧ f.st = FSt.ready ∧ o.cls ≠ 0 then .next (s1.freeze o.who (faultAt f.unitPc k d addr 0 none)) else .next s1
        | .xfer _ | .tsend .. | .msend .. => .next ((s.dropTx t.id).feFail o k d addr)
        | _ => .next ((s.dropTx t.id).failParts o (fun i _ => i == t.part) k d addr)
  else .next s

-- What waits for lease time (R93, R101) ------------------------------------------------------------------------------------------------

/-- GWCT_WAIT_END (R93, R101): an operation whose accesses are performed completes when its CU's lease time has reached its GWCT;
what the fabric engine owes is paid when its own has, or when a line that a peer reads is rewritten. -/
def execGwctWaitEnd (id : Nat) (s : State) : Host.Outcome State Fault Refusal :=
  match s.op id with
  | some o =>
    if o.st ≠ .settling then .next s
    else match o.kind with
      | .gang .. => .next (s.mxSettle o)
      | .trace _ pa seq =>
        if o.gwct ≤ s.lease o.cu then .next (((s.writeHbm o.ctx pa (leBytes seq.toNat 8) .clear).1).dropOp id) else .next s
      | _ => .next (s.settle o)
  | none =>
    match s.fe.owed.find? (fun x => x.id == id) with
    | some x =>
      (match x.read with
       | some p =>
         if s.readPoisoned p then .next s
         else
           let s1 : State := { s with fe := { s.fe with owed := s.fe.owed.filter (fun y => y.id ≠ id) } }
           .next (s1.serve p)
       | none => if x.gwct ≤ s.feTime then .next (s.pay x) else .next s)
    | none => .next s

/-- A packet reaches the router: one for another device is passed on, one for this device takes effect by its type (R335,
R343). (Log 99 DEDUCED.) -/
def State.packetArrives (s : State) (p : Packet) (arrivedGlobal : Bool) (stage : Nat) : Host.Outcome State Fault Refusal :=
  if p.dst ≠ s.fe.devid then execPacketForward p arrivedGlobal stage s
  else match p.ty.toNat with
    | 0x01 => execReadPacket p s
    | 0x02 => execWritePacket p s
    | 0x03 => execAtomicPacket p s
    | 0x04 => execPutPacket p s
    | 0x05 => execPutgPacket p s
    | 0x06 => execGetPacket p s
    | 0x07 => execGetgPacket p s
    | 0x08 => execMsgPacket p s
    | 0x09 => if p.aux.setWidth 8 = 1#8 then execCtrlInvalidation p s else if p.aux.setWidth 8 = 3#8 then execCtrlResync p s else .next s.discard
    | 0x10 => if formed p then execRdata p s else .next s.discard
    | 0x11 => if formed p then execAck p s else .next s.discard
    | 0x12 => if formed p then execAresult p s else .next s.discard
    | 0x13 => if formed p then execGetdata p s else .next s.discard
    | 0x14 => if formed p then execBusy p s else .next s.discard
    | 0x15 => if formed p then execGrant p s else .next s.discard
    | 0x16 => if formed p then execRefused p s else .next s.discard
    | _ => .next s.discard

end Sys2Proof.Machine
end

