-- ==== Sys2Proof/Machine/Gse.lean ====
section
/-!
DEFINITION. The gather-scatter engine's own operations: sparse descriptors, the sparse accumulator, the rack, row products,
flushes and hints (R300-R313). The outlier products of matrix steps are in SplitForm.lean (R298).
-/
namespace Sys2Proof.Machine

-- Descriptors (R300) ----------------------------------------------------------------------------------------------------

/-- A sparse descriptor as read. -/
structure Sparse where
  rowptr : DWord
  colidx : DWord
  vals : DWord
  nrows : Nat
  ncols : Nat
  bf : Bool
  rsv : Bool
deriving DecidableEq, Repr

/-- A descriptor from its 64 bytes. -/
def sparseOf (bs : List Byte) : Sparse :=
  let f := fun o n => leNat ((bs.drop o).take n)
  { rowptr := BitVec.ofNat 64 (f 0 8), colidx := BitVec.ofNat 64 (f 8 8), vals := BitVec.ofNat 64 (f 0x10 8),
    nrows := f 0x18 4, ncols := f 0x1C 4, bf := f 0x20 4 % 2 == 1, rsv := f 0x20 4 / 2 != 0 || ((bs.take 64).drop 0x24).any (· != 0) }

/-- Size of a value. -/
def Sparse.vsize (d : Sparse) : Nat := if d.bf then 2 else 4

/-- The reason by which a descriptor fails (R300, R314). -/
def Sparse.bad (d : Sparse) : Option Nat :=
  if d.rsv then some 1
  else if d.rowptr.toNat % 4 ≠ 0 ∨ d.colidx.toNat % 4 ≠ 0 ∨ d.vals.toNat % d.vsize ≠ 0 then some 2
  else if d.nrows = 0 ∨ 2 ^ 31 < d.nrows ∨ d.ncols = 0 ∨ 2 ^ 31 < d.ncols then some 3
  else none

/-- What a GSE access refuses (R311, R314). -/
def refuseGse : Refuse := fun l t =>
  if isPeer l then some (0x43, 1) else if isMmio l t then some (0x43, 2) else none

-- The rack (R304) -------------------------------------------------------------------------------------------------------

/-- Line of a rack sector: ASID and line address. -/
def RackSec.line (x : RackSec) : BitVec 16 × Nat := (x.asid, x.va.toNat / 128)

/-- Distinct lines in order of last use, most recent first. -/
def rackLines (xs : List RackSec) : List (BitVec 16 × Nat) :=
  (xs.foldl (fun (acc : List (BitVec 16 × Nat)) x => if acc.contains x.line then acc else x.line :: acc) []).reverse

/-- Keeps at most 1,024 retained lines and 2,048 lines: the least recently used retained line loses its mark, the least
recently used unretained line gives way, and a retained one only when no other is left (R304, R309). (Log 52 DESIGN CHOICE.) -/
def rackFit (xs : List RackSec) : List RackSec :=
  let kept := ((rackLines (xs.filter (·.retained))).drop 1024)
  let ys := xs.map (fun x => if kept.contains x.line then { x with retained := false } else x)
  let lines := rackLines ys
  if lines.length ≤ 2048 then ys
  else
    let free := lines.filter (fun l => !ys.any (fun x => x.retained && x.line == l))
    match (free.getLast?).or lines.getLast? with
    | some l => ys.filter (fun x => x.line ≠ l)
    | none => ys

/-- Reads one piece of a sector of B: from the rack while its copy holds, else at the home with a fill (R304). The retained mark is
the line's: all its sectors carry it (R309). -/
def State.rackRead (s : State) (wg cu : Nat) (cid : BitVec 12) (va : DWord) (n : Nat) (retain : Bool) : ERead :=
  let u := s.cu cu
  let asid := (s.ctx cid).asid
  let sec := BitVec.ofNat 64 (sectorOf va.toNat)
  let mine := fun (x : RackSec) => x.asid == asid && x.va == sec
  let line := fun (x : RackSec) => x.asid == asid && x.va.toNat / 128 == va.toNat / 128
  let kept := u.rack.any (fun x => line x && x.retained)
  let marked := fun (xs : List RackSec) => xs.map (fun x => if line x then { x with retained := kept || retain } else x)
  match u.rack.find? (fun x => mine x && (match x.expiry with | some e => decide (s.lease cu < e) | none => true)) with
  | some x =>
    let y := { x with retained := kept || retain }
    let u1 := { u with rack := rackFit (y :: marked (u.rack.filter (fun z => !mine z))) }
    .ok (s.setCu cu u1) ((x.data.drop (va.toNat % 32)).take n) x.wvt
  | none =>
    match s.accessOp wg cu cid va .read with
    | .miss => .wait
    | .fail c d => .fail s 0 c d va
    | .at l t =>
      match refuseGse l t with
      | some (c, d) => .fail s 0 c d va
      | none =>
        if !cacheable l t then
          if s.mustScrub l n then .wait
          else
            let (s1, bs, w) := s.readAs cid l n
            .ok s1 bs w
        else if s.poisoned l.pa then .wait
        else
          let pa := sectorOf l.pa
          let data := s.hbmBytes pa 32
          let w := (s.secMeta pa).wvt
          let writable := match t with | some e => e.pte.getLsbD 3 | none => true
          let s0 := s.ownRead cid pa
          let (s1, e) := if writable then
              (let (s2, e) := s0.grant pa (match t with | some x => leaseLen (fld x.pte 56 3) | none => 256)
               (s2, some e))
            else (s0, none)
          let (page, bytes) := match t with | some y => (y.base, y.bytes) | none => (sec.toNat % 2 ^ 57, 32)
          let x : RackSec := { asid := asid, va := sec, pa := pa, data := data, expiry := e, wvt := w, retained := kept || retain, page := page, bytes := bytes }
          let u1 := s1.cu cu
          .ok (s1.setCu cu { u1 with rack := rackFit (x :: marked (u1.rack.filter (fun z => !mine z))) }) ((data.drop (va.toNat % 32)).take n) w

/-- Reads `n` bytes, at most 8 and naturally aligned, through the rack or at the home. -/
def State.gseRead (s : State) (o : Op) (rack : Bool) (va : DWord) (n : Nat) : ERead :=
  if rack then s.rackRead o.who.wg o.cu o.ctx va n false else s.engRead o.who.wg o.cu o.ctx va n refuseGse

-- The sparse accumulator (R302, R303) -----------------------------------------------------------------------------------

/-- A 32-bit word of a scratchpad. -/
def State.pad32 (s : State) (wg off : Nat) : Nat := leNat ((List.range 4).map (fun i => s.pad wg (off + i)))

/-- Writes a 32-bit word of a scratchpad. -/
def State.setPad32 (s : State) (wg off v : Nat) : State :=
  ((leBytes v 4).zipIdx).foldl (fun (t : State) e => t.setPad wg (off + e.2) e.1) s

/-- The entries of an accumulator: column and value; nothing if it is invalid. -/
def State.readSpa (s : State) (wg off : Nat) : Option (List (Nat × Nat)) :=
  let n := s.pad32 wg off
  let es := (List.range n).map (fun i => (s.pad32 wg (off + 0x40 + 4 * i), s.pad32 wg (off + 0x4040 + 4 * i)))
  if 4096 < n ∨ (List.range 60).any (fun i => s.pad wg (off + 4 + i) != 0) then none
  else if (es.zip (es.drop 1)).any (fun e => decide (e.2.1 ≤ e.1.1)) then none
  else some es

/-- Commits an accumulator: entries, then the count (R303). (Log 70 DEDUCED.) -/
def State.commitSpa (s : State) (wg off : Nat) (es : List (Nat × Nat)) : State :=
  ((es.zipIdx).foldl (fun (t : State) e =>
    (t.setPad32 wg (off + 0x40 + 4 * e.2) e.1.1).setPad32 wg (off + 0x4040 + 4 * e.2) e.1.2) s).setPad32 wg off es.length

/-- Adds a term to column `j` of the working list; a new column starts from +0 (R307). The list is full at 4,096. -/
def addTerm (j p : Nat) : List (Nat × Nat) → List (Nat × Nat) × Fl
  | [] => let r := addF32 0 p; ([(j, r.1)], r.2)
  | (c, v) :: t =>
    if c = j then (let r := addF32 v p; ((c, r.1) :: t, r.2))
    else if j < c then (let r := addF32 0 p; ((j, r.1) :: (c, v) :: t, r.2))
    else (let r := addTerm j p t; ((c, v) :: r.1, r.2))

/-- A product rounded to F32. -/
def mulF32 (x y : Nat) : Nat × Fl :=
  let p := fvMul (FV.ofBits fmtF32 x) (FV.ofBits fmtF32 y)
  let e := encFV fmtF32 0 false p.1
  (e.1, p.2 ||| e.2)

/-- A row product in progress; a failed one has raised flags and read, with their WVT, the bytes before (R68, R85). -/
inductive GseRun where
  | ok (s : State) (work : List (Nat × Nat)) (fl : Fl) (wvt : Nat)
  | fail (s : State) (fl : Fl) (wvt : Nat) (cause : BitVec 8) (detail : Nat) (addr : DWord)
  | wait
deriving DecidableEq, Repr

/-- Continues with a number read, or stops; `fl` are the flags raised before. -/
def ERead.then (r : ERead) (fl : Fl) (w : Nat) (k : State → Nat → Nat → GseRun) : GseRun :=
  match r with
  | .ok s bs w1 => k s (leNat bs) (Nat.max w w1)
  | .fail s w1 c d a => .fail s fl (Nat.max w w1) c d a
  | .wait => .wait

/-- DETAIL of a sparse format fault (R314). -/
def rowDetail (reason ab row : Nat) : Nat := reason + ab * 16 + row * 32

/-- The offset of element `n` of an array. -/
def at4 (b : DWord) (n sz : Nat) : DWord := b + BitVec.ofNat 64 (n * sz)

/-- The entries of one row of a matrix from position `e`, `n` of them left, each handed to `k` (R301). -/
def rowLoop (o : Op) (d : Sparse) (ab row : Nat) (k : State → List (Nat × Nat) → Fl → Nat → Nat → Nat → GseRun) :
    Nat → Nat → Option Nat → State → List (Nat × Nat) → Fl → Nat → GseRun
  | 0, _, _, s, work, fl, w => .ok s work fl w
  | n + 1, e, last, s, work, fl, w =>
    (s.gseRead o (ab == 1) (at4 d.colidx e 4) 4).then fl w (fun s1 c w1 =>
      if d.ncols ≤ c then .fail s1 fl w1 0x41 (rowDetail 2 ab row) 0
      else if last.any (fun x => decide (c ≤ x)) then .fail s1 fl w1 0x41 (rowDetail 3 ab row) 0
      else
        (s1.gseRead o (ab == 1) (at4 d.vals e d.vsize) d.vsize).then fl w1 (fun s2 v w2 =>
          match k s2 work fl w2 c (if d.bf then v * 65536 else v) with
          | .ok s3 work3 fl3 w3 => rowLoop o d ab row k n (e + 1) (some c) s3 work3 fl3 w3
          | x => x))

/-- One row of a matrix: its offsets, then its entries (R301). -/
def State.sparseRow (s : State) (o : Op) (d : Sparse) (ab row : Nat)
    (k : State → List (Nat × Nat) → Fl → Nat → Nat → Nat → GseRun) (work : List (Nat × Nat)) (fl : Fl) (w : Nat) : GseRun :=
  (s.gseRead o (ab == 1) (at4 d.rowptr row 4) 4).then fl w (fun s1 lo w1 =>
    (s1.gseRead o (ab == 1) (at4 d.rowptr (row + 1) 4) 4).then fl w1 (fun s2 hi w2 =>
      if hi < lo then .fail s2 fl w2 0x41 (rowDetail 1 ab row) 0
      else rowLoop o d ab row k (hi - lo) lo none s2 work fl w2))

/-- Counts one product: every 64th of a CU is one event 0x0B (R376). (Log 126 DESIGN CHOICE.) -/
def State.countProduct (s : State) (o : Op) : State :=
  let u := s.cu o.cu
  let s1 := s.setCu o.cu { u with gseFrac := (u.gseFrac + 1) % 64 }
  if u.gseFrac + 1 = 64 then s1.countEv o.cu 0x0B 1 (some o.ctx) else s1

/-- The row operation of R307 up to its commit. (Log 70 DEDUCED.) -/
def State.rowProduct (s : State) (o : Op) (desc : DWord) (row off : Nat) : GseRun :=
  match s.engRead o.who.wg o.cu o.ctx desc 128 refuseGse with
  | .fail s1 w c d a => .fail s1 0 w c d a
  | .wait => .wait
  | .ok s1 bs w =>
    let a := sparseOf bs
    let b := sparseOf (bs.drop 64)
    match a.bad, b.bad with
    | some r, _ => .fail s1 0 w 0x40 r 0
    | none, some r => .fail s1 0 w 0x40 (r + 16) 0
    | none, none =>
      if a.ncols ≠ b.nrows then .fail s1 0 w 0x40 4 0
      else if a.nrows ≤ row then .fail s1 0 w 0x40 5 0
      else match s1.readSpa o.who.wg off with
        | none => .fail s1 0 w 0x42 1 0
        | some work =>
          s1.sparseRow o a 0 row (fun s2 work2 fl2 w2 k x =>
            s2.sparseRow o b 1 k (fun s3 work3 fl3 w3 j y =>
              let p := mulF32 x y
              if !work3.any (fun e => e.1 == j) && decide (4096 ≤ work3.length) then .fail s3 (fl3 ||| p.2) w3 0x42 2 0
              else
                let r := addTerm j p.1 work3
                .ok (s3.countProduct o) r.1 (fl3 ||| p.2 ||| r.2) w3) work2 fl2 w2) work 0 w

-- Instructions (R305-R310) ----------------------------------------------------------------------------------------------

/-- Is the SPA offset usable in the running fibre's workgroup (R307, R308)? -/
def State.spaOk (s : State) (off : Nat) : Bool := off % 64 == 0 && decide (off + 0x8040 ≤ s.myWg.ssize)

/-- Issues a GSE operation: it waits in place while its CU's queue of 16 is full (R306). -/
def State.gseIssue (s : State) (k : OpKind) (f : BitVec 1) : State :=
  let u := s.cu s.myWg.cu
  if 16 ≤ u.gseq.length then s.waitHere
  else
    let o := { s.newOp k (s.flagSel f) s.me.mask (clsGR ||| clsGW) (s.scopeOr .device) with st := .queued }
    s.emitWith o (fun t =>
      let v := t.cu o.cu
      t.setCu o.cu { v with gseq := v.gseq ++ [o.id] })

/-- `SPG.ROW` (R307). -/
def execSpgRow (a b : SReg) (f : BitVec 1) (s : State) : Host.Outcome State Fault Refusal :=
  issue (.spgRow a b f) s (fun s =>
    let d := s.sreg a.toNat
    let w := s.sreg b.toNat
    let off := fld w 32 21
    if d.toNat % 128 ≠ 0 then s.takeAt 0x22 0 d 0 none
    else if fld w 53 11 ≠ 0 then s.take 0x40 6
    else if !s.spaOk off then s.take 0x40 7
    else s.gseIssue (.spgRow d (fld w 0 32) off) f)

/-- `SPG.FLUSH` (R308). -/
def execSpgFlush (a b : SReg) (f : BitVec 1) (s : State) : Host.Outcome State Fault Refusal :=
  issue (.spgFlush a b f) s (fun s =>
    let d := s.sreg a.toNat
    let w := s.sreg b.toNat
    if d.toNat % 16 ≠ 0 then s.takeAt 0x22 0 d 0 none
    else if fld w 21 11 ≠ 0 ∨ fld w 50 14 ≠ 0 then s.take 0x40 6
    else if !s.spaOk (fld w 0 21) then s.take 0x40 7
    else if 4096 < fld w 32 16 then s.take 0x40 8
    else s.gseIssue (.spgFlush d w none) f)

/-- Reads a range of B into the rack, sector by sector; what fails is dropped (R309). -/
def State.rackFetch (s : State) (va : DWord) (n : Nat) (retain : Bool) : State :=
  let lo := va.toNat / 32
  let hi := (va.toNat + n + 31) / 32
  (List.range (Nat.min (hi - lo) 8192)).foldl (fun (t : State) i =>
    match t.rackRead s.actor.wg s.myWg.cu s.myWg.ctx (BitVec.ofNat 64 (32 * (lo + i))) 32 retain with
    | .ok t1 _ _ => t1
    | _ => t) s

/-- `RACK.HINT` (R309): the fetch is made when the instruction issues. A single range beyond 8,192 sectors, the rack's
capacity, is cut there. (Log 70 DEDUCED.) -/
def execRackHint (a b : SReg) (s : State) : Host.Outcome State Fault Refusal :=
  issue (.rackHint a b) s (fun s =>
    let va := s.sreg a.toNat
    let w := s.sreg b.toNat
    let retain := w.getLsbD 48
    if va.toNat % 64 ≠ 0 ∨ fld w 49 15 ≠ 0 then s.retire
    else match s.engRead s.actor.wg s.myWg.cu s.myWg.ctx va 64 refuseGse with
      | .ok _ bs _ =>
        let d := sparseOf bs
        if d.bad.isSome then s.retire
        else
          ((List.range (fld w 32 16)).foldl (fun (t : State) i =>
            let r := fld w 0 32 + i
            if d.nrows ≤ r then t
            else
              let t1 := t.rackFetch (at4 d.rowptr r 4) 8 retain
              let word := fun (n : Nat) => match t1.engRead s.actor.wg s.myWg.cu s.myWg.ctx (at4 d.rowptr n 4) 4 refuseGse with
                | .ok _ x _ => some (leNat x)
                | _ => none
              match word r, word (r + 1) with
              | some lo, some hi =>
                if lo < hi then
                  (t1.rackFetch (at4 d.colidx lo 4) (4 * (hi - lo)) retain).rackFetch (at4 d.vals lo d.vsize) (d.vsize * (hi - lo)) retain
                else t1
              | _, _ => t1) s).retire
      | _ => s.retire)

/-- `RACK.INV` (R310). -/
def execRackInv (a b : SReg) (s : State) : Host.Outcome State Fault Refusal :=
  issue (.rackInv a b) s (fun s =>
    let lo := (s.sreg a.toNat).toNat
    let n := (s.sreg b.toNat).toNat
    let asid := s.myCtx.asid
    let u := s.cu s.myWg.cu
    let hit := fun (x : RackSec) => x.asid == asid && decide (0 < n) && (decide (2 ^ 32 ≤ n) ||
      (decide (x.va.toNat / 128 * 128 < lo + n) && decide (lo < x.va.toNat / 128 * 128 + 128)))
    (s.setCu s.myWg.cu { u with rack := u.rack.filter (fun x => !hit x) }).retire)

-- The hardware step (R303, R306, R308) ----------------------------------------------------------------------------------

/-- Takes a finished operation out of the queue. -/
def State.gsePop (s : State) (cu op : Nat) : State :=
  let u := s.cu cu
  s.setCu cu { u with gseq := u.gseq.filter (· ≠ op) }

/-- The first chunk of a flush: the entries are written, or the status alone when they do not fit (R308). -/
def State.flushEntries (s : State) (cu : Nat) (o : Op) (d word : DWord) : State :=
  let off := fld word 0 21
  let cap := fld word 32 16
  match s.readSpa o.who.wg off with
  | none => (s.gsePop cu o.id).failOp o 0x42 1 0 0 none
  | some es =>
    let l := if word.getLsbD 48 then es.filter (fun e => e.2 % 2 ^ 31 != 0) else es
    let m := l.length
    match s.engPlaces o.who.wg cu o.ctx d (16 + 8 * cap) refuseGse with
    | .error (c, x, a) => (s.gsePop cu o.id).failOp o c x a 0 none
    | .ok ps =>
      let put := fun (t : State) (g : Nat) (a : DWord) (bs : List Byte) =>
        match t.engWriteVa o.who.wg cu o.ctx a bs (fun _ => .clear) refuseGse with
        | .ok t1 g1 => (t1, Nat.max g g1)
        | .fail t1 _ _ _ => (t1, g)
      if cap < m then
        let (s1, g) := put s o.gwct d (leBytes m 4 ++ leBytes 1 4)
        (s1.gsePop cu o.id).settle { o with gwct := g }
      else
        let (s1, g1) := put s o.gwct (at4 d 16 1) (l.flatMap (fun e => leBytes e.1 4))
        let (s2, g2) := put s1 g1 (at4 d (16 + 4 * cap) 1) (l.flatMap (fun e => leBytes e.2 4))
        s2.setOp { o with
          st := .running, gwct := g2, argv := [(0, [BitVec.ofNat 32 m])], kind := .spgFlush d word (ps.head?.map (·.1)) }

/-- The last chunk of a flush: the header, once the entries are performed at the operation's scope, at the place that its
translation gave; the count is cleared without KEEP (R308). -/
def State.flushHeader (s : State) (cu : Nat) (o : Op) (l : Loc) (word : DWord) : State :=
  if decide (4 ≤ o.scope.code) && decide (s.lease cu < o.gwct) then s
  else
    let m := ((Tbl.get o.argv 0 []).headD 0).toNat
    let (s1, g) := s.engineWrite cu o.ctx l (leBytes m 16) .clear
    let s2 := if word.getLsbD 49 then s1 else s1.setPad32 o.who.wg (fld word 0 21) 0
    (s2.gsePop cu o.id).settle { o with gwct := Nat.max g o.gwct }

/-- GSE_OPERATION (R303, R306-R308): the oldest queued operation runs: a row product builds its result and, as a second
step, commits it; a flush writes its entries and then its header. (Log 70 DEDUCED.) -/
def execGseOperation (cu : Nat) (s : State) : Host.Outcome State Fault Refusal :=
  match (s.cu cu).gseq with
  | [] => .next s
  | id :: _ =>
    match s.op id with
    | none => .next (s.gsePop cu id)
    | some o =>
      match o.kind, o.st with
      | .spgRow desc row off, .queued =>
        (match s.rowProduct o desc row off with
         | .wait => .next s
         | .fail s1 fl w c d a => .next ((s1.gsePop cu id).failOp { (o.saw w) with sticky := o.sticky ||| fl } c d a 0 none)
         | .ok s1 work fl w =>
           .next (s1.setOp { o with
             st := .running, sticky := o.sticky ||| fl, ot := Nat.max o.ot w
             argv := [(0, work.map (fun e => BitVec.ofNat 32 e.1)), (1, work.map (fun e => BitVec.ofNat 32 e.2))] }))
      | .spgRow _ _ off, .running =>
        let es := ((Tbl.get o.argv 0 []).zip (Tbl.get o.argv 1 [])).map (fun e => (e.1.toNat, e.2.toNat))
        .next (((s.commitSpa o.who.wg off es).gsePop cu id).settle o)
      | .spgFlush d word _, .queued => .next (s.flushEntries cu o d word)
      | .spgFlush _ word (some l), .running => .next (s.flushHeader cu o l word)
      | _, _ => .next (s.gsePop cu id)

end Sys2Proof.Machine
end

