-- ==== Sys2Proof/Machine/Image.lean ====
section
/-!
DEFINITION. The save image of a workgroup: where each part of its state stands (R128, R129). R128 gives the places of the parts and
of the items of a fibre record; inside those the items stand in R128's order, each in a field of whole bytes at a multiple of its
size, and bytes that hold no item are free (log 123).
-/
namespace Sys2Proof.Machine

-- The save area (R128, R208) ----------------------------------------------------------------------------------------------------------

/-- The recorded frame address of a byte of the save area (R208). -/
def Ctx.savePa (c : Ctx) (va : DWord) : Option Nat :=
  (c.rec'.find? (fun e => e.1 == va.toNat / 4096)).map (fun e => e.2 + va.toNat % 4096)

/-- Writes bytes into the save area through the recorded translations (R208). -/
def State.imgWrite (s : State) (cid : BitVec 12) (va : DWord) (bs : List Byte) : State :=
  (pieces va.toNat bs.length).foldl (fun (t : State) p =>
    match (t.ctx cid).savePa (va + BitVec.ofNat 64 p.1) with
    | some pa => (t.writeHbm cid pa ((bs.drop p.1).take p.2) .clear).1
    | none => t) s

/-- Reads bytes of the save area. -/
def State.imgRead (s : State) (cid : BitVec 12) (va : DWord) (n : Nat) : List Byte :=
  (List.range n).map (fun i => match (s.ctx cid).savePa (va + BitVec.ofNat 64 i) with | some pa => s.hbm pa | none => 0)

/-- First byte of a workgroup's image (R128). -/
def State.imgBase (s : State) (wg : Nat) : DWord :=
  let l := s.launchOf wg
  l.save + BitVec.ofNat 64 ((s.wg wg).num * l.img)

/-- Offset of fibre record `k` of slot `sl` in an image (R128). -/
def recOff (sl k : Nat) : Nat := 0xC000 + sl * 0x5000 + 0x800 + k * 0x800

/-- Offset of the scratchpad in an image (R128). -/
def State.padOff (s : State) (wg : Nat) : Nat := (0x34000 + (s.wg wg).nslots * (s.wg wg).slotBytes + 4095) / 4096 * 4096

-- Fibre records --------------------------------------------------------------------------------------------------------------

/-- An optional number below 255 in one byte. -/
def optByte (n : Option Nat) : Byte := match n with | some x => BitVec.ofNat 8 x | none => 0xFF

/-- The state code of a fibre: a halted one is frozen (R128, R370). -/
def Fibre.code (f : Fibre) : Nat :=
  if f.dbg = .halted then 3
  else match f.st with
    | .absent => 0 | .ready => 1 | .blocked => 2 | .frozen => 3

/-- The fields of a fibre record, ascending, with the counts of recorded operations by flag and the largest unfenced GWCT (R128). -/
def Fibre.fields (f : Fibre) (counts : List Nat) : List (Nat × List Byte) :=
  let r := f.record.getD { cause := 0, async := false, multi := false, lane := none, detail := 0, pc := 0, addr := 0, lanes := 0,
                           ipc := 0, cpos := 0, spos := 0 }
  [(0, leBytes f.unitPc.toNat 8 ++ leBytes f.mask.toNat 8 ++ leBytes f.base.toNat 2 ++ leBytes f.code 2 ++
      leBytes (match f.live with | some m => m.toNat + 1 | none => 0) 2),
   (0x40, (List.range 64).flatMap (fun i => leBytes (Tbl.get f.s i 0).toNat 8)),
   (0x240, (List.range 8).flatMap (fun i => leBytes (Tbl.get f.p i 0).toNat 8)),
   (0x280, counts.flatMap (fun n => leBytes n 1) ++
      [1, 2, 3].flatMap (fun i => let q := Tbl.get f.q i { kind := 0, param := 0 }; leBytes (q.kind.toNat + 256 * q.param.toNat) 2) ++
      leBytes f.sticky.toNat 2),
   (0x2A0, leBytes f.ot 8 ++ leBytes (f.wlog.foldl (fun n w => Nat.max n w.gwct) 0) 8),
   (0x2B0, leBytes r.info.toNat 8 ++ [r.pc, r.addr, r.lanes, r.ipc, r.cpos, r.spos].flatMap (fun x => leBytes x.toNat 8)),
   (0x400, (List.range 4).flatMap (fun i => let v := Tbl.get f.t i VVal.temp; (List.range 64).flatMap (fun l => leBytes (v.lane l).toNat 4)))]

/-- A fault record from its FAULTINFO word and the six registers after it (R167). -/
def faultOf (g : Nat → DWord) : FaultRec :=
  let i := g 0
  { cause := i.setWidth 8, async := i.getLsbD 8, multi := i.getLsbD 9, lane := if i.getLsbD 10 then some (fld i 11 6) else none,
    detail := (i >>> 17).setWidth 47, pc := g 1, addr := g 2, lanes := g 3, ipc := g 4, cpos := g 5, spos := g 6 }

/-- The fibre that its record holds, `get` giving numbers by their place and size; what R128 gives no place was kept beside. A PC
that was changed is a header to go to. -/
def Fibre.ofRec (f : Fibre) (get : Nat → Nat → Nat) : Fibre :=
  let w := fun (o i : Nat) => BitVec.ofNat 64 (get (o + 8 * i) 8)
  let pc := w 0 0
  let f1 := if pc = f.unitPc then f else { f with pc := pc, clause := none, inside := false, idx := 0, unit0 := 0, hMod := none, hLimm := none }
  { f1 with
    mask := w 8 0, base := BitVec.ofNat 10 (get 0x10 2)
    live := (match get 0x14 2 with | 0 => none | n + 1 => some (BitVec.ofNat 7 n))
    s := (List.range 64).map (fun i => (i, w 0x40 i)), p := (List.range 8).map (fun i => (i, w 0x240 i))
    q := [1, 2, 3].map (fun i => (i, { kind := BitVec.ofNat 3 (get (0x28A + 2 * i) 1), param := BitVec.ofNat 6 (get (0x28B + 2 * i) 1) }))
    sticky := BitVec.ofNat 9 (get 0x292 2), ot := get 0x2A0 8
    fault := f.fault.map (fun _ => faultOf (w 0x2B0))
    t := f.t.map (fun e => (e.1, { e.2 with lanes := (List.range 64).map (fun l => BitVec.ofNat 32 (get (0x400 + 256 * e.1 + 4 * l) 4)) })) }

-- The other parts ------------------------------------------------------------------------------------------------------------

/-- The header of the image: WGNUM, T, rank and instance, the phases of the barriers and the fibres that have arrived at each, and
for the CU of rank 0 each stage's tail, occupancy, claims and LFSR (R128). -/
def State.imgHeader (s : State) (wg : Nat) : List (Nat × List Byte) :=
  let w := s.wg wg
  let c := s.cluster w.cluster
  let fs := (s.live (s.wgRefs wg)).map s.fib
  let n := fun (p : Fibre → Bool) => (fs.filter p).length
  (0, ([w.num, s.lease w.cu, w.rank, w.inst, w.phase, c.phase, (s.grid w.grid).phase,
        n (fun f => match f.blk with | .barWg _ => true | _ => false), n (fun f => f.ca.isSome),
        n (fun f => match f.blk with | .barGrid _ => true | _ => false)].flatMap (fun x => leBytes x 8))) ::
  (if w.rank ≠ 0 then [] else c.stages.map (fun e =>
    (0x100 + 0x20 * e.1, [e.2.tail, e.2.items.length, e.2.claimed, e.2.lfsr.toNat].flatMap (fun x => leBytes x 8))))

/-- A gang register in the image: state, post, sets, bindings, and its signers (R128, R271). -/
def gangBytes (x : Gang) : List Byte :=
  let p := x.post
  let h := fun (g : MxPost → Nat) => match p with | some y => g y | none => 0
  let head := [(match x.st with | .idle => 0 | .gathering => 1 | .issued => 2), h (·.op), h (·.minor), h (·.acc), x.cause.toNat,
    x.signers.length].flatMap (fun n => leBytes n 1) ++ leBytes x.step.toNat 2 ++
    [x.e.toNat, maskOf (x.signers.map (·.bit)) |>.toNat, x.bindA.toNat, x.bindB.toNat, x.bindE.toNat, h (·.word.toNat), h (·.hint.toNat),
      h (·.a.toNat), h (·.b.toNat), h (·.e.toNat)].flatMap (fun n => leBytes n 8)
  head ++ (x.signers.take 64).flatMap (fun g =>
    leBytes g.bit 1 ++ [optByte g.flag] ++ leBytes g.base.toNat 2 ++ leBytes g.mask.toNat 8 ++ leBytes g.ipc.toNat 8)

/-- The operands of a recordable operation as captured at issue, with its committed position or offset (R129). -/
def OpKind.words : OpKind → List Nat
  | .gang g p _ => [1, g, p.op + 256 * p.minor, p.acc, p.word.toNat, p.hint.toNat, p.a.toNat, p.b.toNat, p.e.toNat]
  | .split enc a b h => [2, if enc then 1 else 0, a.toNat, b.toNat, h.toNat]
  | .spgRow d r o => [3, d.toNat, r, o]
  | .spgFlush d w _ => [4, d.toNat, w.toNat]
  | .copy c => [5, c.kind, c.dst.toNat, c.src.toNat, c.len, c.guard.toNat, c.hint.toNat, c.off]
  | .spawn st items => 6 :: st :: (items.take 3).flatMap (fun i => [i.toNat % 2 ^ 64, i.toNat / 2 ^ 64])
  | .launch b q p => [7, b.toNat, q, p]
  | .monitor c sd => [8, sd, c.op.toNat, c.size, c.v.toNat]
  | _ => [0]

/-- What a monitor captured when its condition held (R105). -/
def Op.captured (o : Op) : List Nat :=
  match o.kind, o.parts with
  | .monitor .., [p] => if p.st = .bound then [1, leNat p.data] else [0, 0]
  | _, _ => []

/-- The 128-byte record of a recordable operation: identity of kind and operands, flag, fibre, lanes, scope, times (R128, R129). -/
def Op.image (o : Op) (step : Nat) : List Byte :=
  [optByte o.flag, BitVec.ofNat 8 o.who.slot, BitVec.ofNat 8 o.who.idx, BitVec.ofNat 8 o.scope.code] ++ leBytes step 4 ++
  ((o.lanes.toNat :: o.ipc.toNat :: o.ot :: o.gwct :: (match o.parts.head? with | some p => p.va.toNat | none => 0) ::
    (o.kind.words ++ o.captured ++ List.replicate 10 0).take 10).flatMap (fun n => leBytes n 8))

/-- The rejoin registers of a slot, then the items its lanes have claimed (R128). -/
def slotBytesOf (t : Slot) : List Byte :=
  (List.range 16).flatMap (fun i =>
    let x := Tbl.get t.j i Rejoin.idle
    leBytes x.expected.toNat 8 ++ leBytes x.arrived.toNat 8 ++ leBytes x.base.toNat 2 ++ leBytes x.sticky.toNat 2 ++ [optByte x.waiter] ++
    List.replicate 11 0) ++
  leBytes t.items.toNat 8 ++ [optByte t.runs, optByte t.stage]

/-- The recordable operations of a workgroup, in the order of their issue (R129). -/
def State.recorded (s : State) (wg : Nat) : List Op := (s.ops.filter (fun o => o.who.wg == wg && o.kind.recordable)).take 256

/-- The step that a matrix operation has come to. -/
def State.stepOf (s : State) (o : Op) : Nat :=
  match ((s.cu o.cu).mxRuns ++ s.savedRuns).find? (fun r => r.op == o.id) with | some r => r.t | none => 0

/-- The fields of the part of an image before the registers, ascending (R128). (Log 123 DESIGN CHOICE.) -/
def State.imgFields (s : State) (wg : Nat) : List (Nat × List Byte) :=
  let w := s.wg wg
  s.imgHeader wg ++
  (List.range 8).map (fun g => (0x1000 + 0x580 * g, gangBytes (Tbl.get w.gangs g Gang.idle))) ++
  [(0x3C00, (List.range 1024).map (s.ptByte wg))] ++
  (s.recorded wg).zipIdx.map (fun e => (0x4000 + 128 * e.2, e.1.image (s.stepOf e.1))) ++
  (List.range w.nslots).flatMap (fun k =>
    (0xC000 + 0x5000 * k, slotBytesOf (s.slot wg k)) ::
    (List.range 9).flatMap (fun i =>
      let f := s.fib { wg := wg, slot := k, idx := i }
      let counts := (List.range 12).map (fun n => ((s.recorded wg).filter (fun o =>
        o.counts.any (fun c => c.slot == k && c.fid == f.fid && c.flag == some n))).length)
      if f.st = .absent then [(recOff k i + 0x10, [0, 0, 0, 0])]
      else (f.fields counts).map (fun e => (recOff k i + e.1, e.2))))

/-- Lays ascending fields into a stretch, `free` giving the bytes between them. -/
def layBytes (free : Nat → Byte) (pos stop : Nat) : List (Nat × List Byte) → List Byte
  | [] => (List.range (stop - pos)).map (fun i => free (pos + i))
  | (o, bs) :: t => (List.range (o - pos)).map (fun i => free (pos + i)) ++ bs ++ layBytes free (o + bs.length) stop t

/-- The bytes of an image that hold no item are free. -/
def State.imgFree (s : State) (off : Nat) : Byte := (Config.freeWord (s.freeCtr * 2 ^ 64 + off)).setWidth 8

/-- A byte of the part of an image before the registers (R128). (Log 123 DESIGN CHOICE.) -/
def State.imgLow (s : State) (wg off : Nat) : Byte :=
  match (s.imgFields wg).find? (fun e => decide (e.1 ≤ off) && decide (off < e.1 + e.2.length)) with
  | some e => e.2.getD (off - e.1) 0
  | none => s.imgFree off

-- Monitors of a saved workgroup (R105) ---------------------------------------------------------------------------------------------------

/-- Records in the save image what a monitor captured (R105). -/
def State.recordMonitor (s : State) (o : Op) : State :=
  match (s.recorded o.who.wg).findIdx? (fun x => x.id == o.id) with
  | some i =>
    let a := s.imgBase o.who.wg + BitVec.ofNat 64 (0x4000 + 128 * i)
    let bs := o.image (s.stepOf o)
    if s.imgRead o.ctx a 128 = bs then s else s.imgWrite o.ctx a bs
  | none => s

/-- MONITOR_COMPLETE (R237): the captured value reaches s[SV] and the flag decrements. -/
def execMonitorComplete (op : Nat) (s : State) : Host.Outcome State Fault Refusal :=
  match s.op op with
  | some o =>
    (match o.kind, o.parts with
     | .monitor _ sd, [p] =>
       if p.st = .bound ∧ s.isSaved o.who.wg then .next (s.recordMonitor o)
       else if p.st = .bound then
         let y : DWord := BitVec.ofNat 64 (leNat p.data)
         let s1 : State := { s with fibres := s.fibres.map (fun e => if e.2.st ≠ .absent ∧ Tbl.has o.holders e.2.fid then
             (e.1, { e.2 with s := Tbl.set e.2.s sd y }) else e) }
         .next (s1.complete { o with ot := Nat.max o.ot p.wvt })
       else .next s
     | _, _ => .next s)
  | none => .next s

end Sys2Proof.Machine
end

