-- ==== Sys2Proof/Machine/Place.lean ====
section
/-!
DEFINITION. Placement of clusters on the mesh, migration, pre-emption, save and restore (R13, R14, R16-R19, R106, R116-R118,
R125-R132, R279, R330).
-/
namespace Sys2Proof.Machine

-- Capacity (R13, R18) -----------------------------------------------------------------------------------------------------

/-- The CUs of an aligned rectangle in the order of ranks (R14). -/
def cusOf (x y cw ch : Nat) : List Nat := (List.range ch).flatMap (fun j => (List.range cw).map (fun i => (y + j) * 16 + x + i))

/-- The CUs a cluster stands on, or is to stand on. -/
def Cluster.cus (c : Cluster) : List Nat := cusOf c.x c.y c.cw c.ch

/-- The workgroups that hold room on a CU, those of the clusters in `gone` left out. -/
def State.holders (s : State) (cu : Nat) (gone : List Nat) : List (Nat × Wg) :=
  s.wgs.filter (fun e => e.2.live && e.2.cu == cu && !e.2.banks.isEmpty && !gone.contains e.2.cluster)

/-- Banks in use on a CU. (Log 119 DESIGN CHOICE.) -/
def State.usedBanks (s : State) (cu : Nat) (gone : List Nat) : List Nat := (s.holders cu gone).flatMap (·.2.banks)

/-- Warp slots in use on a CU: a freed slot of a pipeline workgroup stays its balancer's (R122). -/
def State.usedSlots (s : State) (cu : Nat) (gone : List Nat) : List Nat :=
  (s.holders cu gone).flatMap (fun e => ((List.range e.2.nslots).filter (fun k =>
    (s.grid e.2.grid).launch.pipe || !(s.slot e.1 k).freed)).map (fun k => (s.slot e.1 k).number))

/-- Clusters with the places they are to take. -/
abbrev Places := List (Nat × Nat × Nat)

/-- The CUs of clusters at places, one entry for each cluster on it. -/
def State.placeCus (s : State) (ps : Places) : List Nat :=
  ps.flatMap (fun p => let c := s.cluster p.1; cusOf p.2.1 p.2.2 c.cw c.ch)

/-- Is there room for the clusters of one grid at their places (R18)? -/
def State.fits (s : State) (ps : Places) (gone : List Nat) : Bool :=
  match ps with
  | [] => false
  | p :: _ =>
    let l := (s.grid (s.cluster p.1).grid).launch
    let cus := s.placeCus ps
    cus.eraseDups.all (fun cu =>
      let n := (cus.filter (· == cu)).length
      decide (n * l.banks + (s.usedBanks cu gone).length + 8 ≤ bankCap (cu % 16) (cu / 16)) &&
      decide (n * l.slots + (s.usedSlots cu gone).length ≤ 32))

/-- The lowest free banks of a CU. The service slot of a host CU keeps banks 94 and 95.
(Log 119 DESIGN CHOICE, 145 DESIGN CHOICE.) -/
def State.takeBanks (s : State) (cu n : Nat) : List Nat :=
  ((List.range (bankCap (cu % 16) (cu / 16))).filter (fun b => !(s.usedBanks cu []).contains b)).take n

/-- Slots in use in a quarter. -/
def inQuarter (used : List Nat) (q : Nat) : Nat := (used.filter (fun n => n / 8 == q)).length

/-- Slot numbers for `n` slots, one quarter after the other from `q` (R13). When the quarter whose turn it is has no free slot, the slot is one
of the next quarter that has one, and the next turn is still that of the quarter after the one passed over.
(Log 120 DESIGN CHOICE, 149 DESIGN CHOICE.) -/
def pickSlots : Nat → Nat → List Nat → List Nat
  | 0, _, _ => []
  | n + 1, q, used =>
    match ((List.range 4).flatMap (fun i => (List.range 8).map (fun k => ((q + i) % 4) * 8 + k))).find? (fun x => !used.contains x) with
    | some x => x :: pickSlots n ((q + 1) % 4) (x :: used)
    | none => []

/-- Slot numbers for a workgroup: from the quarter with the fewest slots in use, the lowest on a tie (R13).
(Log 120 DESIGN CHOICE, 149 DESIGN CHOICE.) -/
def State.takeSlots (s : State) (cu n : Nat) : List Nat :=
  let used := s.usedSlots cu []
  let q := (List.range 4).foldl (fun b q => if inQuarter used q < inQuarter used b then q else b) 0
  pickSlots n q used

-- New workgroups (R16, R19, R118) -------------------------------------------------------------------------------------------

/-- A fibre that starts at a header: registers, flags and sticky flags zero (R118). -/
def Fibre.initial (fid i : Nat) (pc : DWord) (mask : DWord) (base : Nat) (s : Tbl Nat DWord) (ot : Nat) : Fibre :=
  { Fibre.absent with
    st := .blocked, blk := .header, fid := fid, pc := pc, mask := mask, base := BitVec.ofNat 10 base, s := s,
    fsel := BitVec.ofNat 4 i, since := fid, ot := ot }

/-- A CU discards the shape records of a workgroup's ASID when the workgroup is placed there (R270). -/
def State.dropRecs (s : State) (cu : Nat) (cid : BitVec 12) : State :=
  let u := s.cu cu
  if u.recs.isEmpty then s else s.setCu cu { u with recs := u.recs.filter (fun e => e.1 ≠ (s.ctx cid).asid) }

/-- The rack of the CU a workgroup moves to starts cold for it (R313). -/
def State.dropRack (s : State) (cu : Nat) (cid : BitVec 12) : State :=
  let u := s.cu cu
  if u.rack.isEmpty then s else s.setCu cu { u with rack := u.rack.filter (fun e => e.asid ≠ (s.ctx cid).asid) }

/-- The registers a slot of a new workgroup starts with: with INHERIT those of the slot of instance i − 1 (R118). -/
def State.inherited (s : State) (g : Nat) (l : Launch) (inst num k : Nat) : Tbl Nat VVal :=
  if l.inherit ∧ 0 < inst then
    match s.wgs.find? (fun e => e.2.grid == g && e.2.num + l.w * l.h == num) with
    | some e => (s.slot e.1 k).v.filter (fun r => decide (l.inhlo ≤ r.1 ∧ r.1 ≤ l.inhhi))
    | none => []
  else []

/-- Makes the workgroup of a rank of a cluster, with its slots and initial fibres, on its CU (R16, R118). -/
def State.newWg (s : State) (cl rank : Nat) : State :=
  let c := s.cluster cl
  let g := s.grid c.grid
  let l := g.launch
  let cu := (c.y + rank / c.cw) * 16 + c.x + rank % c.cw
  let num := c.inst * (l.w * l.h) + (c.oy + rank / c.cw - l.y0) * l.w + (c.ox + rank % c.cw - l.x0)
  let id := s.nextId
  let w : Wg := { Wg.unplaced with
    live := true, ctx := g.ctx, grid := c.grid, cluster := cl, num := num, inst := c.inst, rank := rank, cu := cu,
    banks := s.takeBanks cu l.banks, nslots := l.slots, warp := l.warp, regs := l.regs, ssize := l.ssize }
  let ns := s.takeSlots cu l.slots
  let s1 : State := { ((s.setWg id w).passBanks cu w.banks).dropRecs cu g.ctx with nextId := id + 1 }
  let s2 : State := (List.range l.slots).foldl (fun (t : State) k =>
    let t1 := t.setSlot id k { Slot.empty with number := ns.getD k 0, v := s.inherited c.grid l c.inst num k }
    (List.range l.fibres).foldl (fun (u : State) i =>
      (u.setFib { wg := id, slot := k, idx := i }
        (Fibre.initial u.nextId i l.entry (fullMask l.warp) (l.wbase.getD i 0) [(0, l.args)] g.ot)).bump) t1) s1
  s2.setCluster cl { s2.cluster cl with wgs := (s2.cluster cl).wgs ++ [id] }

/-- Makes a pending cluster resident on its rectangle. -/
def State.putCluster (s : State) (cl : Nat) : State :=
  let c := s.cluster cl
  let s1 := (List.range (c.cw * c.ch)).foldl (fun (t : State) r => t.newWg cl r) s
  let l := (s.grid c.grid).launch
  { s1.setCluster cl { s1.cluster cl with place := .resident, placedAt := s1.nextId } with
    nextId := s1.nextId + 1, lastPlaced := Tbl.set s1.lastPlaced l.prio c.grid }

-- Order of placement (R116, R117) ---------------------------------------------------------------------------------------------

/-- Is a grid placed, and taken off, whole (R116, R127)? (Log 156 DESIGN CHOICE.) -/
def State.wholeGrid (s : State) (g : Nat) : Bool := (s.grid g).launch.gridbar || (s.grid g).launch.pipe

/-- Does a cluster wait for a place: pending, or saved (R117, R131)? -/
def Cluster.waits (c : Cluster) : Bool := c.place == .pending || c.place == .saved

/-- The clusters of a grid that wait for a place. -/
def State.waiting (s : State) (g : Nat) : List Nat := (s.grid g).clusters.filter (fun c => (s.cluster c).waits)

/-- Clusters of a grid in a place. -/
def State.clustersIn (s : State) (g : Nat) (p : CPlace) : List Nat := (s.grid g).clusters.filter (fun c => (s.cluster c).place == p)

/-- May a pending cluster be placed as far as its instance goes: that of instance i − 1 on its CUs was placed, and with INHERIT
has ended (R116)? -/
def State.eligible (s : State) (cl : Nat) : Bool :=
  let c := s.cluster cl
  let g := s.grid c.grid
  c.inst == 0 || g.clusters.any (fun d =>
    let e := s.cluster d
    e.inst + 1 == c.inst && e.ox == c.ox && e.oy == c.oy && e.place != .pending && (!g.launch.inherit || e.place == .ended))

/-- The oldest waiting cluster's waiting time began. -/
def State.pendingSince (s : State) (g : Nat) : Nat :=
  (s.waiting g).foldl (fun n c => Nat.min n (s.cluster c).since) s.now

/-- Has the grid's oldest waiting cluster waited 1 ms (R117)? -/
def State.aged (s : State) (g : Nat) : Bool :=
  decide (s.pendingSince g + 1000000 ≤ s.now) || (s.waiting g).any (fun c => (s.cluster c).promoted)

/-- Inserts a grid by the age of its oldest pending cluster. -/
def State.insertAged (s : State) (g : Nat) : List Nat → List Nat
  | [] => [g]
  | h :: t => if s.pendingSince g < s.pendingSince h then g :: h :: t else h :: s.insertAged g t

/-- The grids of a level that have clusters to place, in the order of R117. -/
def State.gridOrder (s : State) (p : Nat) : List Nat :=
  let gs := (s.grids.filter (fun e => e.2.launch.prio == p && !e.2.done && !(s.waiting e.1).isEmpty)).map (·.1)
  let last := Tbl.get s.lastPlaced p 0
  let ring := gs.filter (fun g => decide (last < g)) ++ gs.filter (fun g => decide (g ≤ last))
  (ring.filter s.aged).foldl (fun l g => s.insertAged g l) [] ++ ring.filter (fun g => !s.aged g)

/-- The place a cluster has. -/
def State.ownPlace (s : State) (cl : Nat) : Nat × Nat × Nat := (cl, (s.cluster cl).x, (s.cluster cl).y)

/-- Aligned rectangles of a shape in the mesh (R14, R116). (Log 120 DESIGN CHOICE.) -/
def rectsOf (cw ch : Nat) : List (Nat × Nat) :=
  (List.range (12 / ch)).flatMap (fun j => (List.range (16 / cw)).map (fun i => (i * cw, j * ch)))

/-- Are none of the CUs reserved for a level above `p`? -/
def notReserved (res : Tbl Nat Nat) (p : Nat) (cus : List Nat) : Bool :=
  cus.all (fun cu => !(Tbl.has res cu && decide (p < Tbl.get res cu 0)))

/-- Places for the saved clusters of a grid one after the other, each on the first rectangle with room once the clusters in `gone` are
left out; none if one has no room. (Log 120 DESIGN CHOICE.) -/
def State.findPlaces (s : State) (p : Nat) (gone : List Nat) (start : Places) : List Nat → Option Places
  | [] => some start
  | c :: t =>
    let k := s.cluster c
    match (rectsOf k.cw k.ch).find? (fun r => s.fits (start ++ [(c, r.1, r.2)]) gone && notReserved s.reserved p (cusOf r.1 r.2 k.cw k.ch)) with
    | some r => s.findPlaces p gone (start ++ [(c, r.1, r.2)]) t
    | none => none

/-- Has a grid a saved cluster that could be restored now: it comes before the grid's clusters never yet placed (R131)? -/
def State.restorable (s : State) (g : Nat) : Bool :=
  let p := (s.grid g).launch.prio
  let saved := s.clustersIn g .saved
  !saved.isEmpty && (if s.wholeGrid g then (s.findPlaces p [] [] saved).isSome else saved.any (fun c => (s.findPlaces p [] [] [c]).isSome))

/-- The pending clusters of a grid that could be placed now (R116). -/
def State.placeable (s : State) (g : Nat) : List Nat :=
  let p := (s.grid g).launch.prio
  let pend := s.clustersIn g .pending
  if s.wholeGrid g then
    let ps := pend.map s.ownPlace
    if s.fits ps [] && notReserved s.reserved p (s.placeCus ps) then pend else []
  else pend.filter (fun c => s.eligible c && s.fits [s.ownPlace c] [] && notReserved s.reserved p (s.cluster c).cus)

/-- Places the pending clusters of a grid that fit (R116). A grid that is placed whole places every instance at once, also a PIPE grid
with INHERIT, whose instances other grids place one after the other. (Log 156 DESIGN CHOICE.) -/
def State.placeGrid (s : State) (g : Nat) : State :=
  let one := fun (t : State) (c : Nat) => if s.wholeGrid g || (t.placeable g).contains c then t.putCluster c else t
  (if s.wholeGrid g then s.placeable g else s.clustersIn g .pending).foldl one s

/-- Marks the CUs of a level's pending clusters reserved (R117). -/
def State.reserve (s : State) (p : Nat) : State :=
  let cs := (s.clusters.filter (fun e => (e.2.place == .pending || e.2.place == .saved) &&
    (s.grid e.2.grid).launch.prio == p && !(s.grid e.2.grid).done)).flatMap (fun e => e.2.cus)
  { s with reserved := cs.foldl (fun t cu => if Tbl.has t cu then t else Tbl.set t cu p) s.reserved }

/-- Places the grids of a list in their order up to one whose saved clusters can be restored, which RESTORE places before any
after it; whether there was one (R117, R131). -/
def State.placeGrids (s : State) : List Nat → State × Bool
  | [] => (s, false)
  | g :: t => if s.restorable g then (s, true) else (s.placeGrid g).placeGrids t

/-- Places what fits, level by level, and reserves the CUs of what does not (R117). -/
def State.placeLevels (s : State) : List Nat → State
  | [] => s
  | p :: t =>
    match s.placeGrids (s.gridOrder p) with
    | (s1, true) => s1.reserve p
    | (s1, false) => (s1.reserve p).placeLevels t

/-- PLACEMENT (R117): every level from 7 down places what fits and reserves the CUs of what does not. (Log 5 DESIGN CHOICE.) -/
def execPlacement (s : State) : Host.Outcome State Fault Refusal :=
  .next (({ s with reserved := [] } : State).placeLevels (List.range 8).reverse)

/-- Does a grid with saved clusters come before every other that could be placed now: in its level's order, and no level above has
one (R117, R131)? -/
def State.restoreTurn (s : State) (g : Nat) : Bool :=
  let p := (s.grid g).launch.prio
  let can := fun (x : Nat) => s.restorable x || !(s.placeable x).isEmpty
  ((s.gridOrder p).takeWhile (· != g)).all (fun x => !can x) &&
  (List.range 8).all (fun q => !decide (p < q) || (s.gridOrder q).all (fun x => !can x))

/-- AGE_PROMOTION (R117): the grid's pending clusters that have waited 1 ms go ahead of younger entries of their level. -/
def execAgePromotion (g : Nat) (s : State) : Host.Outcome State Fault Refusal :=
  .next ((s.waiting g).foldl (fun (t : State) c =>
    let k := t.cluster c
    if k.since + 1000000 ≤ t.now then t.setCluster c { k with promoted := true } else t) s)

-- Making room (R117, R126) ------------------------------------------------------------------------------------------------------

/-- The units of a level that wait for room: a cluster, or the clusters of a grid that is placed whole. -/
def State.waitingUnits (s : State) (p : Nat) : List Places :=
  (s.grids.filter (fun e => e.2.launch.prio == p && !e.2.done)).flatMap (fun e =>
    let cs := s.clustersIn e.1 .saved ++ (s.clustersIn e.1 .pending).filter s.eligible
    if cs.isEmpty then [] else if s.wholeGrid e.1 then [cs.map s.ownPlace] else cs.map (fun c => [s.ownPlace c]))

/-- Level of a cluster. -/
def State.levelOf (s : State) (cl : Nat) : Nat := (s.grid (s.cluster cl).grid).launch.prio

/-- Does `a` come before `b` in the order in which clusters make room: lower level first, then most recently placed? -/
def State.sooner (s : State) (a b : Nat) : Bool :=
  decide (s.levelOf a < s.levelOf b) || (s.levelOf a == s.levelOf b && decide ((s.cluster b).placedAt < (s.cluster a).placedAt))

/-- Places with room for a unit of a level once the clusters in `gone` have left: its own for clusters never yet placed, any aligned
rectangles for saved ones (R116, R131). -/
def State.roomFor (s : State) (p : Nat) (ps : Places) (gone : List Nat) : Option Places :=
  let old := fun (x : Nat × Nat × Nat) => (s.cluster x.1).place == .saved
  let new := ps.filter (fun x => !old x)
  if !new.isEmpty && !s.fits new gone then none else s.findPlaces p gone new ((ps.filter old).map (·.1))

/-- The cluster that has to make room for a level: the first resident one of a lower level on the CUs of a unit that finds no
room even without the clusters already stopping (R117). A saved cluster has no CUs of its own: they are those of the rectangle it
could take if every cluster of a lower level left. -/
def State.victim (s : State) (p : Nat) : Option Nat :=
  let gone := (s.clusters.filter (fun e => e.2.place == .stopping && e.2.moveTo.isNone)).map (·.1)
  let lower := s.clusters.filter (fun e => e.2.place == .resident && decide (s.levelOf e.1 < p))
  (s.waitingUnits p).findSome? (fun ps =>
    if (s.roomFor p ps gone).isSome then none
    else
      let cus := s.placeCus ((s.roomFor p ps (gone ++ lower.map (·.1))).getD ps)
      match (lower.filter (fun e => e.2.cus.any (fun cu => cus.contains cu))).map (·.1) with
      | [] => none
      | c :: t => some (t.foldl (fun b d => if s.sooner d b then d else b) c))

/-- Rectangles that could take a cluster at once: free, and none of the CUs that pending clusters of higher levels are
reserved (R126). -/
def State.freeRects (s : State) (cl : Nat) : List (Nat × Nat) :=
  let c := s.cluster cl
  (rectsOf c.cw c.ch).filter (fun r => (r.1 != c.x || r.2 != c.y) && s.fits [(cl, r.1, r.2)] [] &&
    notReserved s.reserved (s.levelOf cl) (cusOf r.1 r.2 c.cw c.ch))

-- Stopping and settling (R127, steps 1 to 4) --------------------------------------------------------------------------------------

/-- Does a fibre wait in place to issue a `CP.MC`, as it does while its cluster stops (R127, R330)? -/
def Fibre.heldAtMc (f : Fibre) : Bool :=
  f.wait && (match f.clause.bind (fun c => c.instrAt f.idx) with | some (.cpMc ..) => true | _ => false)

/-- Has every fibre of a workgroup stopped: none runs inside a clause (R127)? One that is frozen or halted there, that was resumed
there and has not the slot, or that waits to issue a `CP.MC` has stopped. -/
def State.stopped (s : State) (wg : Nat) : Bool :=
  (s.live (s.wgRefs wg)).all (fun r => let f := s.fib r
    !(f.st == .ready && f.inside && (s.slot wg r.slot).cur == r.idx && f.dbg != .halted && !f.heldAtMc))

/-- Must an operation complete before a save or move (R127, R279, R330)? A store that waits for its write time is complete only
after it. -/
def Op.mustComplete (o : Op) : Bool :=
  match o.kind with
  | .load .. | .store | .atomic .. | .cas .. | .acust .. | .split .. => true
  | .gang _ p _ => o.st != .issued && p.op != 2
  | .copy c => c.kind == 3
  | .spgRow .. | .spgFlush .. => o.st == .running
  | _ => false

/-- Is a cluster stopped and settled: its multicast fills and its accesses complete, its steal requests answered (R127)? -/
def State.settled (s : State) (cl : Nat) : Bool :=
  let c := s.cluster cl
  c.wgs.all s.stopped && s.ops.all (fun o => !(c.wgs.contains o.who.wg && o.mustComplete)) && c.stages.all (fun e => e.2.victim.isNone)

/-- Takes a workgroup's operations out of its CU's queues: matrix operations at their committed step, copies at their committed
offset, row and flush operations at their start (R127, R279, R330). -/
def State.detach (s : State) (wg : Nat) : State :=
  let w := s.wg wg
  let mine := fun (id : Nat) => s.ops.any (fun o => o.id == id && o.who.wg == wg)
  let u := s.cu w.cu
  let runs := u.mxRuns.filter (fun r => mine r.op)
  let s1 := s.setCu w.cu { u with
    mxq := u.mxq.filter (fun n => !mine n), mxRuns := u.mxRuns.filter (fun r => !mine r.op),
    gseq := u.gseq.filter (fun n => !mine n), ceq := u.ceq.filter (fun n => !mine n), chans := u.chans.filter (fun e => !mine e.2) }
  { s1 with
    savedRuns := s1.savedRuns ++ runs
    ops := s1.ops.map (fun o =>
      if o.who.wg ≠ wg ∨ o.st = .settling then o
      else match o.kind with
        | .copy c => { o with st := .queued, kind := .copy (if c.seg then { c with off := 0, segver := none, first := none, held := none } else { c with held := none }) }
        | .spgRow .. => { o with st := .queued, argv := [] }
        | .spgFlush d x _ => { o with st := .queued, argv := [], kind := .spgFlush d x none }
        | _ => o) }

/-- Enters a workgroup's recorded operations into the queues of its CU (R131). -/
def State.attach (s : State) (wg : Nat) : State :=
  let cu := (s.wg wg).cu
  let s1 : State := { s with ops := s.ops.map (fun o => if o.who.wg = wg then { o with cu := cu } else o) }
  let ids := fun (p : OpKind → Bool) => (s1.ops.filter (fun o => o.who.wg == wg && o.st == .queued && p o.kind)).map (·.id)
  let runs := s1.savedRuns.filter (fun r => s1.ops.any (fun o => o.id == r.op && o.who.wg == wg))
  let u := s1.cu cu
  let s2 := s1.setCu cu { u with
    mxRuns := u.mxRuns ++ runs
    mxq := u.mxq ++ (ids (fun k => match k with | .gang .. => true | _ => false)).filter (fun n => !runs.any (fun r => r.op == n))
    gseq := u.gseq ++ ids (fun k => match k with | .spgRow .. | .spgFlush .. => true | _ => false)
    ceq := u.ceq ++ ids (fun k => match k with | .copy _ => true | _ => false) }
  { s2 with savedRuns := s2.savedRuns.filter (fun r => !runs.contains r) }

/-- A fibre whose slot's clause buffer is lost: it will fetch its clause again, and a ready one waits for that (R146). -/
def Fibre.unbuffered (f : Fibre) : Fibre :=
  if f.blk = .ending then f
  else if f.st = .ready then { f.refetch with st := .blocked, wait := false }
  else f.refetch

/-- Takes a workgroup off its CU: its banks are free, its clause buffers lost, its operations recorded. -/
def State.lift (s : State) (wg : Nat) : State :=
  let s2 := (s.detach wg).leaveBanks wg
  let s3 := (List.range (s.wg wg).nslots).foldl (fun (t : State) k => t.setSlot wg k { t.slot wg k with cbuf := [] }) s2
  (s3.live (s3.wgRefs wg)).foldl (fun (t : State) r => t.setFib r (t.fib r).unbuffered) s3

/-- Puts a workgroup that was taken off onto a CU: banks, slots, its operations, and the lease wait of R106. -/
def State.settleOn (s : State) (wg cu saveT : Nat) : State :=
  let w := s.wg wg
  let l := (s.grid w.grid).launch
  let ns := s.takeSlots cu w.nslots
  let bs := s.takeBanks cu l.banks
  let s1 := (((s.setWg wg { w with cu := cu, banks := bs, leaseWait := saveT + 4128, preempt := none }).passBanks cu bs).dropRecs cu w.ctx).dropRack cu w.ctx
  let s2 := (List.range w.nslots).foldl (fun (t : State) k => t.setSlot wg k { t.slot wg k with number := ns.getD k 0 }) s1
  s2.attach wg

-- Migration (R125, R126) ----------------------------------------------------------------------------------------------------------

/-- Moves a stopped cluster to a rectangle: each workgroup leaves a forwarding entry at its old CU for 64 µs (R125). -/
def State.moveCluster (s : State) (cl x y : Nat) : State :=
  let c := s.cluster cl
  let live := c.wgs.filter (fun g => (s.wg g).live)
  let t := (live.map (fun g => s.lease (s.wg g).cu)).foldl Nat.max 0
  let fws := live.zipIdx.map (fun e => ({ id := s.nextId + e.2, cu := (s.wg e.1).cu, wg := e.1, expires := s.now + 64000 } : Forward))
  let s1 : State := { s with nextId := s.nextId + live.length, forwards := s.forwards ++ fws }
  let s2 := live.foldl (fun (u : State) g => u.lift g) s1
  let s3 := s2.setCluster cl { c with x := x, y := y, place := .resident, moveTo := none, saveT := t }
  live.foldl (fun (u : State) g =>
    let r := (u.wg g).rank
    u.settleOn g ((y + r / c.cw) * 16 + x + r % c.cw) t) s3

/-- MIGRATION (R125, R126): the cluster that has to make room for a higher level begins to stop when the rectangle can take it
at once; when it has stopped and settled it moves. A pre-emption chosen for it wins. (Log 125 DESIGN CHOICE.) -/
def execMigration (cl x y : Nat) (s : State) : Host.Outcome State Fault Refusal :=
  let c := s.cluster cl
  if c.place = .resident ∧ c.wgs.all (fun g => (s.wg g).preempt.isNone) then
    if (List.range 8).any (fun p => s.victim p == some cl) && (s.freeRects cl).contains (x, y) then
      .next (s.setCluster cl { c with place := .stopping, moveTo := some (x, y) })
    else .next s
  else if c.place = .stopping ∧ c.moveTo = some (x, y) then
    if !s.settled cl then .next s
    else if s.fits [(cl, x, y)] [] then .next (s.moveCluster cl x y)
    else .next (s.setCluster cl { c with place := .resident, moveTo := none })
  else .next s

/-- FORWARDING_EXPIRY (R125): a forwarding entry goes after 64 µs. (Log 125 DESIGN CHOICE.) -/
def execForwardingExpiry (fwd : Nat) (s : State) : Host.Outcome State Fault Refusal :=
  .next { s with forwards := s.forwards.filter (fun f => !(f.id == fwd && decide (f.expires ≤ s.now))) }

-- Saving and loading (R128, R130, R131) -----------------------------------------------------------------------------------------

/-- The ranges that the records at an address name: the record, and the data it describes. -/
def State.recordSpans (s : State) (o : Op) (addr : DWord) : List (DWord × Nat) :=
  (addr, 192) :: (match s.readRecord o addr 0 with | .ok _ r _ => operandSpans r | _ => [])

/-- The arrays of a sparse matrix. -/
def State.sparseSpans (s : State) (o : Op) (d : Sparse) : List (DWord × Nat) :=
  let nnz := match s.engRead o.who.wg o.cu o.ctx (at4 d.rowptr d.nrows 4) 4 refuseGse with | .ok _ bs _ => leNat bs | _ => 0
  [(d.rowptr, 4 * (d.nrows + 1)), (d.colidx, 4 * nnz), (d.vals, d.vsize * nnz)]

/-- The ranges that a recorded operation names (R130). -/
def State.opSpans (s : State) (o : Op) : List (DWord × Nat) :=
  match o.kind with
  | .copy c =>
    let rows := fun (r : Option ShapeRec) => match r with
      | some x => (List.range (x.count / Nat.max 1 x.dim0)).map (fun i => (x.elemAt (i * x.dim0), x.dim0 * copySize x.fmt))
      | none => []
    if c.kind = 2 then [(c.dst, 192), (c.src, 192)] ++ rows c.recD ++ rows c.recS
    else if c.kind = 3 then [(c.src, c.len)]
    else [(c.dst, c.len), (c.src, c.len)]
  | .spgRow d .. =>
    (d, 128) :: (match s.engRead o.who.wg o.cu o.ctx d 128 refuseGse with
      | .ok _ bs _ => s.sparseSpans o (sparseOf bs) ++ s.sparseSpans o (sparseOf (bs.drop 64))
      | _ => [])
  | .spgFlush d w _ => [(d, 16 + 8 * fld w 32 16)]
  | .split _ a b _ => s.recordSpans o a ++ s.recordSpans o b
  | .gang _ p _ => if p.op = 3 then s.recordSpans o p.e else s.recordSpans o p.a ++ s.recordSpans o p.b
  | _ => []

/-- Does a recorded operation name physical register `n` of a slot: as an accumulator, or through the register window (R130)? -/
def State.namesReg (s : State) (wg k n : Nat) (o : Op) : Bool :=
  s.accOf wg k n o || (o.who.wg == wg && (s.opSpans o).any (fun e =>
    match s.winLoc wg e.1 with
    | some (.regw _ k' off) =>
      let w := (s.wg wg).warp * 4
      k' == k && decide (off < (n + 1) * w) && decide (n * w < off + e.2)
    | _ => false))

/-- The physical registers of a slot that a save keeps: all, or those that its fibres declare and that a recorded operation
names (R130). A slot without fibres keeps all. (Log 122 DEDUCED.) -/
def State.keeps (s : State) (wg k n : Nat) : Bool :=
  let fs := (s.live (slotRefs wg k)).map s.fib
  fs.isEmpty || fs.any (fun f => match f.live with
    | none => true
    | some m => decide (f.base.toNat ≤ n ∧ n ≤ f.base.toNat + m.toNat)) ||
  s.ops.any (s.namesReg wg k n)

/-- Writes the image of a workgroup (R128), and drops the registers that are not kept (R130).
(Log 122 DEDUCED, 123 DESIGN CHOICE.) -/
def State.saveWg (s : State) (wg : Nat) : State :=
  let w := s.wg wg
  let base := s.imgBase wg
  let s1 := s.imgWrite w.ctx base (layBytes s.imgFree 0 0x34000 (s.imgFields wg))
  let s2 := (List.range w.nslots).foldl (fun (t : State) k =>
    let kept := (s.slot wg k).v.filter (fun e => s.keeps wg k e.1)
    let t1 := t.setSlot wg k { t.slot wg k with v := kept }
    (List.range w.regs).foldl (fun (u : State) n =>
      if s.keeps wg k n then
        u.imgWrite w.ctx (base + BitVec.ofNat 64 (0x34000 + k * w.slotBytes + n * w.warp * 4))
          ((List.range w.warp).flatMap (fun l => leBytes ((s.vreg wg k n).lane l).toNat 4))
      else u) t1) s1
  let s3 := s2.imgWrite w.ctx (base + BitVec.ofNat 64 (s.padOff wg)) ((List.range w.ssize).map (s.pad wg))
  { s3.lift wg with freeCtr := s.freeCtr + 1 }

/-- Reads the image of a workgroup back: fibre records, pattern tables, kept registers and scratchpad (R131). What R128 gives no
place was kept beside it. (Log 122 DEDUCED, 123 DESIGN CHOICE.) -/
def State.loadWg (s : State) (wg : Nat) : State :=
  let w := s.wg wg
  let base := s.imgBase wg
  let s1 := (s.live (s.wgRefs wg)).foldl (fun (t : State) r =>
    t.setFib r ((t.fib r).ofRec (fun o n => leNat (s.imgRead w.ctx (base + BitVec.ofNat 64 (recOff r.slot r.idx + o)) n)))) s
  let s2 := (List.range w.nslots).foldl (fun (t : State) k =>
    t.setSlot wg k { t.slot wg k with v := (t.slot wg k).v.map (fun e =>
      (e.1, { e.2 with lanes := (List.range w.warp).map (fun l => BitVec.ofNat 32 (leNat
        (s.imgRead w.ctx (base + BitVec.ofNat 64 (0x34000 + k * w.slotBytes + (e.1 * w.warp + l) * 4)) 4))) })) }) s1
  let pad := ((s.imgRead w.ctx (base + BitVec.ofNat 64 (s.padOff wg)) w.ssize).zipIdx).filterMap (fun e =>
    if e.1 = 0 then none else some (e.2, e.1))
  let pts := ((s.imgRead w.ctx (base + 0x3C00) 1024).zipIdx).filterMap (fun e =>
    if e.1.toNat = e.2 % 64 then none else some (e.2, e.1.setWidth 6))
  s2.setWg wg { s2.wg wg with scratch := pad, pt := pts }

-- Pre-emption and restore (R127, R131) -----------------------------------------------------------------------------------------------

/-- The clusters that stop with a cluster: those of its grid if the grid is taken off whole (R127). -/
def State.group (s : State) (cl : Nat) : List Nat :=
  let g := (s.cluster cl).grid
  if s.wholeGrid g then (s.grid g).clusters.filter (fun c => (s.cluster c).place == .resident || (s.cluster c).place == .stopping) else [cl]

/-- Is a cluster, or one that stops with it, the one that has to make room for a level? -/
def State.chosen (s : State) (cl p : Nat) : Bool :=
  match s.victim p with
  | some v => v == cl || (s.group cl).contains v
  | none => false

/-- Sets or clears the pre-emption request of clusters (R137). (Log 121 DESIGN CHOICE.) -/
def State.request (s : State) (cs : List Nat) (l : Option Nat) : State :=
  (cs.flatMap (fun c => (s.cluster c).wgs)).foldl (fun (t : State) g => t.setWg g { t.wg g with preempt := l }) s

/-- Saves a stopped cluster. (Log 121 DESIGN CHOICE, 124 DEDUCED.) -/
def State.saveCluster (s : State) (cl : Nat) : State :=
  let c := s.cluster cl
  let live := c.wgs.filter (fun g => (s.wg g).live)
  let t := (live.map (fun g => s.lease (s.wg g).cu)).foldl Nat.max 0
  let s1 := live.foldl (fun (u : State) g => u.saveWg g) s
  (s1.setCluster cl { s1.cluster cl with place := .saved, moveTo := none, saveT := t, since := s.now, promoted := false }).request [cl] none

/-- PREEMPTION (R117, R127): a cluster that has to make room is asked first (R137), unless a move would do; then it stops, and
when all is settled it is saved. (Log 10 DESIGN CHOICE, 121 DESIGN CHOICE.) -/
def execPreemption (cl level : Nat) (s : State) : Host.Outcome State Fault Refusal :=
  let c := s.cluster cl
  let cs := s.group cl
  let asked := cs.any (fun d => (s.cluster d).wgs.any (fun g => (s.wg g).preempt.isSome))
  if c.place = .stopping ∧ c.moveTo.isNone then
    if cs.all s.settled then .next (cs.foldl (fun (t : State) d => t.saveCluster d) s) else .next s
  else if c.place = .resident then
    if !asked then
      if s.chosen cl level && (s.freeRects cl).isEmpty then .next (s.request cs (some level)) else .next s
    else if (List.range 8).any (s.chosen cl) then
      .next (cs.foldl (fun (t : State) d => t.setCluster d { t.cluster d with place := .stopping, moveTo := none }) s)
    else .next (s.request cs none)
  else .next s

/-- RESTORE (R131): when its turn in the order of R117 has come, a saved cluster is placed on an aligned rectangle with room, a grid that is placed whole with all its
clusters; images are read and operations restarted. -/
def execRestore (cl x y : Nat) (s : State) : Host.Outcome State Fault Refusal :=
  let c := s.cluster cl
  let p := s.levelOf cl
  if c.place ≠ .saved ∨ ¬ (rectsOf c.cw c.ch).contains (x, y) ∨ ¬ s.restoreTurn c.grid then .next s
  else
    let others := if s.wholeGrid c.grid then (s.clustersIn c.grid .saved).filter (· ≠ cl) else []
    if !(s.fits [(cl, x, y)] [] && notReserved s.reserved p (cusOf x y c.cw c.ch)) then .next s
    else match s.findPlaces p [] [(cl, x, y)] others with
      | none => .next s
      | some ps =>
        .next (ps.foldl (fun (t : State) q =>
          let k := t.cluster q.1
          let live := k.wgs.filter (fun g => (t.wg g).live)
          let t1 : State := { t.setCluster q.1 { k with x := q.2.1, y := q.2.2, place := .resident, placedAt := t.nextId } with
            nextId := t.nextId + 1, lastPlaced := Tbl.set t.lastPlaced p k.grid }
          live.foldl (fun (u : State) g =>
            let r := (u.wg g).rank
            (u.loadWg g).settleOn g ((q.2.2 + r / k.cw) * 16 + q.2.1 + r % k.cw) k.saveT) t1) s)

end Sys2Proof.Machine
end

