-- ==== Sys2Proof/Machine/Oe.lean ====
section
/-!
DEFINITION. The observation engine: event counters, trace marks, breakpoints, and the debugger's commands (R370-R381, R382).
-/
namespace Sys2Proof.Machine

-- Event counters (R376-R378) ------------------------------------------------------------------------------------------------

/-- Does a counter's owner register name the running fibre's context? -/
def State.ownsCounter (s : State) (n : Nat) : Bool :=
  let e := Tbl.get (s.cu s.myWg.cu).ev n EvCnt.zero
  e.owner.getLsbD 12 && e.owner.setWidth 12 == s.myWg.ctx

/-- `EVREAD` (R378). -/
def execEvread (n : BitVec 4) (d : SReg) (s : State) : Host.Outcome State Fault Refusal :=
  issue (.evread n d) s (fun s =>
    if !s.ownsCounter n.toNat then s.take 0x70 1
    else
      let e := Tbl.get (s.cu s.myWg.cu).ev n.toNat EvCnt.zero
      (s.setS d.toNat (BitVec.ofNat 64 (e.count.toNat + (if e.ovf then 2 ^ 63 else 0)))).retire)

/-- `EVCTL` (R378). -/
def execEvctl (n : BitVec 4) (c : SReg) (s : State) : Host.Outcome State Fault Refusal :=
  issue (.evctl n c) s (fun s =>
    let w := s.sreg c.toNat
    if !s.ownsCounter n.toNat then s.take 0x70 1
    else if 0x12 < fld w 0 8 ∨ fld w 11 53 ≠ 0 ∨ (¬ w.getLsbD 10 ∧ ¬ s.myCtx.priv) then s.take 0x70 2
    else
      let e := Tbl.get (s.cu s.myWg.cu).ev n.toNat EvCnt.zero
      let e1 := { e with
        event := w.setWidth 8, en := w.getLsbD 8, ctxonly := w.getLsbD 10
        count := if w.getLsbD 9 then 0 else e.count, ovf := if w.getLsbD 9 then false else e.ovf }
      -- the instruction's own issue unit is not counted (R378)
      let s1 := s.endUnit
      let u := s1.cu s.myWg.cu
      (s1.setCu s.myWg.cu { u with ev := Tbl.set u.ev n.toNat e1 }).goOn)

-- Trace marks (R379) --------------------------------------------------------------------------------------------------------

/-- The trace record but for its SEQ (R379). -/
def State.traceRecord (s : State) (v : DWord) : List Byte :=
  let w := s.myWg
  let h := s.actor.idx == 8
  leBytes (s.lease w.cu) 8 ++ leBytes s.me.unitPc.toNat 8 ++ leBytes v.toNat 8 ++
  leBytes (w.num + (if h then s.me.serves % 8 else s.actor.idx) * 2 ^ 32 + (if h then 2 ^ 35 else 0) + s.mySlot.number * 2 ^ 36 +
    w.cu % 16 * 2 ^ 41 + w.cu / 16 * 2 ^ 45) 8 ++ List.replicate 24 0

/-- Bytes of local HBM from a trace address, if a write there is allowed: what fails is dropped (R379). (Log 127 DEDUCED.) -/
def State.tracePa (s : State) (va : DWord) : Option Nat :=
  match s.accessOp s.actor.wg s.myWg.cu s.myWg.ctx va .write with
  | .at (.mem pa) _ => if inHbm pa && va.toNat % 8 == 0 then some pa else none
  | _ => none

/-- Writes a trace record: it claims a head, writes the record but for SEQ, and SEQ follows when that write's time has passed.
(Log 127 DEDUCED.) -/
def State.trace (s : State) (v : DWord) : State :=
  let c := s.myCtx
  let n := fld c.trctl 1 5
  if ¬ c.trctl.getLsbD 0 ∨ n < 4 ∨ 20 < n then s
  else match s.tracePa c.trbase with
    | none => s
    | some hp =>
      let h := s.hbm64 hp
      let s1 := (s.writeHbm s.myWg.ctx hp (leBytes (h + 1).toNat 8) .clear).1
      match s1.tracePa (c.trbase + 64 + BitVec.ofNat 64 (64 * (h.toNat % 2 ^ n))) with
      | none => s1
      | some pa =>
        let (s2, g) := s1.writeSpan s.myWg.ctx (pa + 8) (s.traceRecord v) .clear
        s2.addOp { s2.newOp (.trace (c.trbase + 64 + BitVec.ofNat 64 (64 * (h.toNat % 2 ^ n))) pa (h + 1)) none 0 0 .device with st := .settling, gwct := g, holders := [], counts := [] }

/-- `TMARK` (R379). (Log 127 DEDUCED.) -/
def execTmark (v : SReg) (s : State) : Host.Outcome State Fault Refusal :=
  issue (.tmark v) s (fun s => ((s.countEv s.myWg.cu 0x10 1 (some s.myWg.ctx)).trace (s.sreg v.toNat)).retire)

-- Breakpoints (R372) ----------------------------------------------------------------------------------------------------------

/-- The breakpoint that stops the running fibre before the unit it is about to issue. -/
def State.breakpoint (s : State) : Option Nat :=
  let c := s.myCtx
  let f := s.me
  if !c.dbgctl.getLsbD 0 || f.idx != f.unit0 then none
  else (List.range 4).find? (fun n =>
    let a := Tbl.get c.bpa n 0
    let l := Tbl.get c.bpl n 0
    a.getLsbD 0 && (a &&& ~~~ 3#64) == f.wordPc && !f.bpSeen.contains (n, f.wordPc) && (l == 0 || (l &&& f.mask) != 0))

/-- A fibre's halt at a breakpoint: taken before decode, and not again when it resumes there. -/
def State.breakHere (s : State) (n : Nat) : State :=
  let s1 := s.halt s.actor 0x71 n s.me.wordPc
  s1.setMe { s1.me with bpSeen := (n, s.me.wordPc) :: s1.me.bpSeen }

-- The debugger's commands (R370, R373, R374, R382) ------------------------------------------------------------------------------

/-- Replies to a command (R382). (Log 107 DESIGN CHOICE.) -/
def State.reply (s : State) (status : BitVec 8) (data : List Byte) : State := s.send (.reply status data)

/-- A reply to a command that names a fibre it cannot act on: R382 gives it no status, so that it is free.
(Log 128 DESIGN CHOICE.) -/
def State.replyOpen (s : State) : State :=
  { s.send (.reply ((Config.freeWord s.freeCtr).setWidth 8) []) with freeCtr := s.freeCtr + 1 }

/-- Does the port execute commands: the module is neither frozen nor booting, and the Ocush link carries flits, or retrains and will
(R341, R382, R385, R394)? (Log 107 DESIGN CHOICE.) -/
def State.portUp (s : State) : Bool := s.ctl.phase == .ready && (s.port 255).open'

/-- Stops one fibre for the debugger: a blocked one where it stands, a ready one at its next clause boundary, or with INSN at its
next unit (R374). -/
def State.stopFibre (s : State) (r : FRef) : State :=
  let f := s.fib r
  let c := s.ctx (s.wg r.wg).ctx
  if f.st = .absent ∨ f.st = .frozen ∨ f.dbg = .halted then s
  else if f.st = .blocked ∨ ¬ f.inside ∨ (c.dbgctl.getLsbD 2 ∧ f.idx = f.unit0) then s.haltOne r 0x73 0 f.unitPc
  else s.setFib r { f with dbg := if c.dbgctl.getLsbD 2 then .stopUnit else .stopClause }

/-- DBG_HALT (R370, R374): one fibre, or in all-stop mode every fibre of its workgroup. (Log 128 DESIGN CHOICE, 130 DEDUCED.) -/
def execDbgHalt (r : FRef) (s : State) : Host.Outcome State Fault Refusal :=
  if !s.portUp then .next s
  else if (s.fib r).st = .absent then .next s.replyOpen
  else
    let all := (s.ctx (s.wg r.wg).ctx).dbgctl.getLsbD 1
    .next (((if all then s.live (s.wgRefs r.wg) else [r]).foldl (fun (t : State) q => t.stopFibre q) s).reply 0 [])

/-- Releases a halted fibre. (Log 131 DEDUCED.) -/
def State.release (s : State) (r : FRef) (d : Dbg) : State :=
  s.setFib r { s.fib r with dbg := d }

/-- DBG_RESUME (R374): a halted fibre, or with it every fibre of the workgroup that halted with cause 0x73 or is to.
(Log 128 DESIGN CHOICE, 131 DEDUCED.) -/
def execDbgResume (r : FRef) (wholeGroup : Bool) (s : State) : Host.Outcome State Fault Refusal :=
  if !s.portUp then .next s
  else
    let hit := if wholeGroup then (s.live (s.wgRefs r.wg)).filter (fun q =>
        let f := s.fib q
        (f.dbg == .halted && (q == r || (match f.fault with | some x => x.cause == 0x73 | none => false))) ||
        f.dbg == .stopClause || f.dbg == .stopUnit)
      else if (s.fib r).dbg = .halted then [r] else []
    if hit.isEmpty then .next s.replyOpen
    else .next ((hit.foldl (fun (t : State) q => t.release q .run) s).reply 0 [])

/-- DBG_STEP (R373): a halted fibre runs for one clause, or with INSN for one issue unit. (Log 128 DESIGN CHOICE.) -/
def execDbgStep (r : FRef) (s : State) : Host.Outcome State Fault Refusal :=
  if !s.portUp then .next s
  else if (s.fib r).dbg ≠ .halted then .next s.replyOpen
  else .next ((s.release r (if (s.ctx (s.wg r.wg).ctx).dbgctl.getLsbD 2 then .stepUnit else .stepClause)).reply 0 [])

/-- A byte of a workgroup's state by its place in the save image (R128). (Log 123 DESIGN CHOICE, 129 DESIGN CHOICE.) -/
def State.imgByte (s : State) (wg off : Nat) : Byte :=
  let w := s.wg wg
  if 0x34000 ≤ off ∧ off < 0x34000 + w.nslots * w.slotBytes then
    s.regByte wg ((off - 0x34000) / w.slotBytes) ((off - 0x34000) % w.slotBytes)
  else if s.padOff wg ≤ off ∧ off < s.padOff wg + w.ssize then s.pad wg (off - s.padOff wg)
  else s.imgLow wg off

/-- Writes a byte of a halted fibre's state by its place in the save image: the items of its record, registers of its slot, the scratchpad. A place for which R128 names no field takes nothing.
(Log 129 DESIGN CHOICE.) -/
def State.setImgByte (s : State) (r : FRef) (off : Nat) (b : Byte) : State :=
  let w := s.wg r.wg
  let lo := 0x34000 + r.slot * w.slotBytes
  let at' := recOff r.slot r.idx
  if at' ≤ off ∧ off < at' + 0x800 then
    let f := (s.fib r).ofRec (fun o n => leNat ((List.range n).map (fun i => if at' + o + i = off then b else s.imgLow r.wg (at' + o + i))))
    s.setFib r { f with p := f.p.map (fun e => (e.1, e.2 &&& fullMask w.warp)) }
  else if lo ≤ off ∧ off < lo + w.slotBytes then s.setRegByte r.wg r.slot (off - lo) b
  else if s.padOff r.wg ≤ off ∧ off < s.padOff r.wg + w.ssize then s.setPad r.wg (off - s.padOff r.wg) b
  else s

/-- DBG_READ (R382): eight bytes of a halted fibre's state by their place in its save image. (Log 129 DESIGN CHOICE.) -/
def execDbgRead (r : FRef) (off : Nat) (s : State) : Host.Outcome State Fault Refusal :=
  if !s.portUp then .next s
  else if (s.fib r).dbg ≠ .halted then .next s.replyOpen
  else .next { s.reply 0 ((List.range 8).map (fun i => s.imgByte r.wg (off + i))) with freeCtr := s.freeCtr + 1 }

/-- DBG_WRITE (R382): the same for a write; the image of a saved workgroup is written as well, since a restore reads it.
(Log 129 DESIGN CHOICE.) -/
def execDbgWrite (r : FRef) (off : Nat) (v : DWord) (s : State) : Host.Outcome State Fault Refusal :=
  if !s.portUp then .next s
  else if (s.fib r).dbg ≠ .halted then .next s.replyOpen
  else
    let bs := leBytes v.toNat 8
    let s1 := (bs.zipIdx).foldl (fun (t : State) e => t.setImgByte r (off + e.2) e.1) s
    let s2 := if s.isSaved r.wg then
        s1.imgWrite (s.wg r.wg).ctx (s.imgBase r.wg + BitVec.ofNat 64 off) ((List.range 8).map (fun i => s1.imgByte r.wg (off + i)))
      else s1
    .next (s2.reply 0 [])

end Sys2Proof.Machine
end

