-- ==== Sys2Proof/Machine/Ctl.lean ====
section
/-!
DEFINITION. The control node's commands, the MMIO writes, errors and the scrubber, freeze, reset and boot, clocks and power, and
the management port (R28, R29, R375, R376, R382-R394).
-/
namespace Sys2Proof.Machine

-- Killing a context (R29, R388) -------------------------------------------------------------------------------------------

/-- What a context leaves in the caches that name it ends with it: rack lines and shape records (R304). (Log 53 DEDUCED.) -/
def State.dropCaches (s : State) (asid : BitVec 16) : State :=
  { s with cus := s.cus.map (fun e => (e.1, { e.2 with
      rack := e.2.rack.filter (fun x => x.asid != asid), recs := e.2.recs.filter (fun x => x.1 != asid) })) }

/-- Discards a context's outstanding operations with everything that they hold (R29, R368). -/
def State.dropOps (s : State) (c : BitVec 12) : State :=
  let mine := fun (id : Nat) => s.ops.any (fun o => o.id == id && o.ctx == c)
  let ofCtx := fun (r : FRef) => (s.wg r.wg).ctx == c
  let fids := (s.fibres.filter (fun e => ofCtx e.1)).map (·.2.fid)
  let cu := fun (u : Cu) => { u with
    mxq := u.mxq.filter (fun n => !mine n), mxRuns := u.mxRuns.filter (fun r => !mine r.op)
    gseq := u.gseq.filter (fun n => !mine n), ceq := u.ceq.filter (fun n => !mine n), chans := u.chans.filter (fun e => !mine e.2)
    coal := (u.coal.map (fun x => { x with waiters := x.waiters.filter (fun w => !ofCtx w.1) })).filter (fun x => !x.waiters.isEmpty) }
  { s with
    ops := s.ops.filter (fun o => o.ctx != c)
    cus := s.cus.map (fun e => (e.1, cu e.2))
    mons := s.mons.filter (fun m => !mine m.op)
    savedRuns := s.savedRuns.filter (fun r => !mine r.op)
    ase := s.ase.filter (fun e => match e.2.2 with
      | .op id _ => !mine id | .test q => (s.queue q).ctx != some c | .packet _ => true)
    invs := s.invs.filter (fun v => v.reply.isSome || !fids.contains v.fid)
    fe := { s.fe with
      tx := s.fe.tx.filter (fun t => t.pkt.sctx != c)
      owed := s.fe.owed.map (fun o => if mine o.op then { o with op := 0 } else o)
      resync := s.fe.resync.filter (fun e => !ofCtx e.2.1)
      queues := s.fe.queues.filter (fun e => e.2.ctx != c) } }

/-- Ends every grid of a context on every CU; each launched one that is not complete has STATUS 0x0012 (R112).
(Log 134 DEDUCED.) -/
def State.dropGrids (s : State) (c : BitVec 12) : State :=
  let gs := (s.grids.filter (fun e => e.2.ctx == c && !e.2.done)).map (·.1)
  let ws := (s.wgs.filter (fun e => e.2.ctx == c && e.2.live)).map (·.1)
  let s1 := ws.foldl (fun (t : State) g => t.endWg g) s
  let s2 : State := { s1 with
    fibres := s1.fibres.filter (fun e => (s.wg e.1.wg).ctx != c), slots := s1.slots.filter (fun e => (s.wg e.1.1).ctx != c)
    forwards := s1.forwards.filter (fun f => (s.wg f.wg).ctx != c) }
  gs.foldl (fun (t : State) g =>
    let x := t.grid g
    let t1 := x.clusters.foldl (fun (u : State) k => u.setCluster k { u.cluster k with place := .ended, moveTo := none }) t
    let t2 := t1.setGrid g { x with done := true }
    match t2.frontPlace c (x.block + 0x38) .write with
    | .ok l => (t2.writeLoc c l (leBytes 0x0012 4) .clear).1
    | .error _ => t2) s2

/-- The record of a kill (R388). -/
def killNote (c : BitVec 12) (reason unit pa count time : Nat) : Msg :=
  .note 0x83 [BitVec.ofNat 64 (c.toNat + reason * 2 ^ 12 + unit * 2 ^ 16 + count * 2 ^ 18), BitVec.ofNat 64 pa, BitVec.ofNat 64 time]

/-- A kill record of context `c` with one error more, saturating (R388); other messages as they are. (Log 133 DEDUCED.) -/
def Msg.moreErrors (c : BitVec 12) : Msg → Msg
  | .note 0x83 (w :: r) =>
    if w.toNat % 2 ^ 12 = c.toNat ∧ bitsN w.toNat 18 14 < 16383 then .note 0x83 (BitVec.ofNat 64 (w.toNat + 2 ^ 18) :: r)
    else .note 0x83 (w :: r)
  | m => m

/-- An error of a context that is already killed raises the count of its kill record while that waits to be sent (R388).
(Log 133 DEDUCED.) -/
def State.countError (s : State) (c : BitVec 12) : State :=
  { s with out := s.out.take s.said ++ (s.out.drop s.said).map (fun m => m.moreErrors c) }

/-- The fault notifications of a context that wait to be sent are dropped (R385). -/
def State.dropNotes (s : State) (c : BitVec 12) : State :=
  { s with out := s.out.take s.said ++ (s.out.drop s.said).filter (fun m =>
      match m with | .note 0x81 (w :: _) => (s.wg w.toNat).ctx != c | _ => true) }

/-- Kills a context (R29): its grids end, its operations are discarded, its launch queues stop at their current blocks, and one
kill record is said (R388), whose count later errors raise until it is sent. The context stays registered (R351).
(Log 33 DESIGN CHOICE, 133 DEDUCED, 134 DEDUCED.) -/
def State.kill (s : State) (c : BitVec 12) (reason unit pa count : Nat) : State :=
  let x := s.ctx c
  if c = 0 then s
  else if ¬ x.live then (if count = 0 then s else s.countError c)
  else
    let s1 := ((s.dropOps c).dropGrids c).dropCaches x.asid
    let s2 : State := { s1 with queues := s1.queues.map (fun e =>
      if e.2.ctx = some c then (e.1, { e.2 with st := .stopped, fifo := [], held := [], watch := none }) else e) }
    (s2.setCtx c { x with live := false }).send (killNote c reason unit pa count s.frontTime)

-- Contexts and queues (R382, R383) -----------------------------------------------------------------------------------------

/-- Is a 16-bit operand a context id that a command may name (R382 status 9)? -/
def ctxOperand (c : BitVec 16) : Bool := c != 0 && decide (c.toNat ≤ 4095)

/-- Is there a context with an id? -/
def State.hasCtx (s : State) (c : BitVec 12) : Bool := Tbl.has s.ctxs c

/-- Refuses a command. -/
def State.refuse (s : State) (status : BitVec 8) : Host.Outcome State Fault Refusal := .next (s.reply status [])

/-- The recorded translations of a save area: page and frame, if every page is mapped to local memory and PINNED (R208, R383).
(Log 132 DEDUCED.) -/
def State.recordSave (s : State) (c : Ctx) : Option (List (Nat × Nat)) :=
  let lo := c.save.toNat / 4096
  let n := (c.size + 4095) / 4096
  if c.save.toNat % 65536 ≠ 0 ∨ ¬ s.pinned c c.save c.size then none
  else some ((List.range n).filterMap (fun i =>
    match s.walk c (BitVec.ofNat 64 ((lo + i) * 4096)) with
    | .leaf l => some (lo + i, l.pa (BitVec.ofNat 64 ((lo + i) * 4096)))
    | .fail _ => none))

/-- CTX_CREATE (R382, R383). (Log 132 DEDUCED.) -/
def execCtxCreate (ctxid asid : BitVec 16) (root : DWord) (priv : Bool) (save size : DWord) (share : List (BitVec 16)) (s : State) :
    Host.Outcome State Fault Refusal :=
  let id : BitVec 12 := ctxid.setWidth 12
  let c : Ctx := { Ctx.absent with
    live := true, asid := asid, root := root.toNat, priv := priv, save := save, size := size.toNat, share := share }
  if !s.portUp then .next s
  else if 4095 < ctxid.toNat then s.refuse 9
  else if ctxid = 0 ∨ s.hasCtx id then s.refuse 1
  else if s.ctxs.any (fun e => e.2.asid == asid) then s.refuse 2
  else match s.recordSave c with
    | none => s.refuse 3
    | some r => if 64 < share.length then s.refuse 4 else .next ((s.setCtx id { c with rec' := r }).reply 0 [])

/-- Has a context a grid placed or pending, or a device-fed launch pending (R382, R385)? -/
def State.gridsRemain (s : State) (c : BitVec 12) : Bool :=
  s.grids.any (fun e => e.2.ctx == c && !e.2.done) ||
  s.queues.any (fun e => e.2.ctx == some c && e.2.deviceFed && (!e.2.fifo.isEmpty || (e.2.block != 0 && e.2.st != .stopped)))

/-- CTX_DESTROY (R382): the context's queues, bindings, handlers and regions are free. -/
def execCtxDestroy (ctxid : BitVec 16) (s : State) : Host.Outcome State Fault Refusal :=
  let id : BitVec 12 := ctxid.setWidth 12
  if !s.portUp then .next s
  else if !ctxOperand ctxid then s.refuse 9
  else if !s.hasCtx id then s.refuse 10
  else if s.gridsRemain id then s.refuse 5
  else
    let s1 := (s.dropOps id).dropCaches (s.ctx id).asid
    let s2 : State := { s1 with
      ctxs := Tbl.del s1.ctxs id
      queues := s1.queues.map (fun (e : Nat × LQueue) => if e.2.ctx = some id then (e.1, LQueue.unbound) else e) }
    .next (s2.reply 0 [])

/-- CTX_KILL (R382). (Log 133 DEDUCED, 134 DEDUCED.) -/
def execCtxKill (ctxid : BitVec 16) (s : State) : Host.Outcome State Fault Refusal :=
  let id : BitVec 12 := ctxid.setWidth 12
  if !s.portUp then .next s
  else if !ctxOperand ctxid then s.refuse 9
  else if !s.hasCtx id then s.refuse 10
  else .next (((s.dropNotes id).kill id 3 3 0 0).reply 0 [])

/-- QUEUE_BIND (R382, R108). -/
def execQueueBind (q : Nat) (ctxid : BitVec 16) (deviceFed : Bool) (s : State) : Host.Outcome State Fault Refusal :=
  let id : BitVec 12 := ctxid.setWidth 12
  if !s.portUp then .next s
  else if 63 < q ∨ ¬ ctxOperand ctxid then s.refuse 9
  else if !s.hasCtx id then s.refuse 10
  else if (s.queue q).ctx.isSome then s.refuse 6
  else .next ((s.setQueue q { LQueue.unbound with ctx := some id, deviceFed := deviceFed }).reply 0 [])

/-- QUEUE_UNBIND (R382). -/
def execQueueUnbind (q : Nat) (s : State) : Host.Outcome State Fault Refusal :=
  if !s.portUp then .next s
  else if 63 < q then s.refuse 9
  else if (s.queue q).ctx.isNone then s.refuse 11
  else if (s.queue q).block ≠ 0 then s.refuse 7
  else .next ((s.setQueue q LQueue.unbound).reply 0 [])

-- Memory and registers (R103, R382, R386, R387) -----------------------------------------------------------------------------

/-- The context whose access a command's address is: none for a physical address. -/
def ocCtx : OcAddr → BitVec 12
  | .phys _ => 0
  | .virt c _ => c.setWidth 12

/-- The places of `n` bytes that a command names, or the cause that fails. (Log 138 DESIGN CHOICE, 139 DEDUCED.) -/
def State.ocPlaces (s : State) (a : OcAddr) (n : Nat) (need : Need) : Except (BitVec 8) (List (Loc × Nat × Nat)) :=
  match a with
  | .phys pa =>
    (pieces pa n).foldl (fun acc p =>
      match acc with
      | .ok ls => if outsideMap (pa + p.1) then .error 0x20 else .ok (ls ++ [(Loc.mem (pa + p.1), p.1, p.2)])
      | e => e) (.ok [])
  | .virt c va =>
    (pieces va.toNat n).foldl (fun acc p =>
      match acc with
      | .ok ls => (match s.frontPlace (c.setWidth 12) (va + BitVec.ofNat 64 p.1) need with
          | .ok l => .ok (ls ++ [(l, p.1, p.2)])
          | .error (k, _) => .error k)
      | e => e) (.ok [])

/-- The first refusal of a memory command (R382). -/
def State.ocRefuses (s : State) (a : OcAddr) (n : Nat) : Option (BitVec 8) :=
  if decide (n < 8) || decide (256 < n) || (match a with | .virt c _ => !ctxOperand c | .phys _ => false) then some 9
  else match a with
    | .virt c _ => if s.hasCtx (c.setWidth 12) then none else some 10
    | .phys _ => none

/-- SCRUB_POISONED_LINE (R388): a poisoned line is rewritten with zeros and owner tag 0. (Log 137 DESIGN CHOICE.) -/
def State.rewrite (s : State) (pa : Nat) : State :=
  if s.poisoned pa then
    let s1 : State := { s with poison := s.poison.filter (fun e => e.1 != blockOf pa) }
    (s1.writeLoc 0 (.mem (blockOf pa)) (List.replicate 128 0) .clear).1
  else s

/-- SCRUB_POISONED_LINE (R388). -/
def execScrubPoisonedLine (pa : Nat) (s : State) : Host.Outcome State Fault Refusal := .next (s.rewrite pa)

/-- MEM_RD (R382): a poisoned line in its way is rewritten first. (Log 137 DESIGN CHOICE, 138 DESIGN CHOICE.) -/
def execMemRd (a : OcAddr) (n : Nat) (s : State) : Host.Outcome State Fault Refusal :=
  if !s.portUp then .next s
  else match s.ocRefuses a n with
    | some st => s.refuse st
    | none =>
      match s.ocPlaces a n .read with
      | .error k => .next (s.reply 8 [k])
      | .ok ls =>
        let s0 := ls.foldl (fun (t : State) l => t.rewrite l.1.pa) s
        let (s1, bs) := ls.foldl (fun (acc : State × List Byte) l =>
          let (t, b, _) := acc.1.readLoc l.1 l.2.2
          (t, acc.2 ++ b)) (s0, [])
        .next (s1.reply 0 bs)

/-- MEM_WR (R382, R103): the reply follows the write's GWCT. (Log 138 DESIGN CHOICE.) -/
def execMemWr (a : OcAddr) (data : List Byte) (s : State) : Host.Outcome State Fault Refusal :=
  if !s.portUp then .next s
  else match s.ocRefuses a data.length with
    | some st => s.refuse st
    | none =>
      match s.ocPlaces a data.length .write with
      | .error k => .next (s.reply 8 [k])
      | .ok ls =>
        let (s1, g) := ls.foldl (fun (acc : State × Nat) l =>
          let (t, g) := acc.1.writeLoc (ocCtx a) l.1 ((data.drop l.2.1).take l.2.2) .clear
          (t, Nat.max acc.2 g)) (s, 0)
        .next (s1.answerAfter { Owed.none with gwct := g, say := some (.reply 0 []) })

/-- REG_RD (R382, R386): a 64-bit MMIO register; elsewhere zero. (Log 140 DEDUCED.) -/
def execRegRd (pa : Nat) (s : State) : Host.Outcome State Fault Refusal :=
  if !s.portUp then .next s
  else .next { s.reply 0 (leBytes (if inMmio pa then (s.mmioRead pa).toNat else 0) 8) with freeCtr := s.freeCtr + 1 }

/-- REG_WR (R382, R386). (Log 140 DEDUCED.) -/
def execRegWr (pa : Nat) (v : DWord) (s : State) : Host.Outcome State Fault Refusal :=
  if !s.portUp then .next s else .next ((if inMmio pa then s.mmioWrite pa v else s).reply 0 [])

/-- UNKNOWN_COMMAND (R382). -/
def execUnknownCommand (code : BitVec 8) (s : State) : Host.Outcome State Fault Refusal :=
  if !s.portUp then .next s else s.refuse 0xFF

/-- DOORBELL_WRITE (R387). -/
def execDoorbellWrite (q : Nat) (v : DWord) (s : State) : Host.Outcome State Fault Refusal := .next (s.doorbell q v)

/-- FERTIMER_WRITE (R386). -/
def execFertimerWrite (v : DWord) (s : State) : Host.Outcome State Fault Refusal := .next (s.setFertimer v)

/-- MMIO_REGISTER_WRITE (R386): the register whose bytes the address lies in is written whole. -/
def execMmioRegisterWrite (pa : Nat) (v : DWord) (s : State) : Host.Outcome State Fault Refusal :=
  .next (if inMmio pa then s.mmioWrite pa v else s)

/-- EVOWN_WRITE (R376). -/
def execEvownWrite (cu : Nat) (n : BitVec 4) (v : DWord) (s : State) : Host.Outcome State Fault Refusal :=
  .next (s.setOwner cu n.toNat v)

-- Errors and the scrubber (R388, R389) ----------------------------------------------------------------------------------------

/-- The code of a unit in a kill record (R388). -/
def unitCode : ErrUnit → Nat
  | .cellar => 0 | .l2 => 1 | .hbm => 2

/-- The owner tag of a line (R28): of a cellar bank, the context of the workgroup that holds it; of a line of an L1 bank, that of the
access that filled it. (Log 75 DEDUCED, 148 DEDUCED.) -/
def State.lineOwner (s : State) (pa : Nat) : BitVec 12 :=
  if inChip pa then
    match s.bankHolder (chipCu pa) (chipOff pa / 32768) with
    | some (g, _) => (s.wg g).ctx
    | none => match s.l1At (chipCu pa) (chipOff pa) with | some x => x.owner | none => 0
  else Tbl.get s.owners (blockOf pa) 0

/-- Is a context being saved: its clusters have stopped and settled, and are not yet off their CUs (R127)? (Log 135 DEDUCED.) -/
def State.savingCtx (s : State) (c : BitVec 12) : Bool :=
  s.clusters.any (fun e => (s.grid e.2.grid).ctx == c && e.2.place == .stopping && e.2.moveTo.isNone && s.settled e.1)

/-- A read packet that meets an error is refused with reason 4 (R351): it is the one that arrives at this moment.
(Log 136 DESIGN CHOICE.) -/
def State.refuseRead (s : State) (pa : Nat) : State :=
  match s.agenda with
  | .packet p g st :: rest =>
    if p.dst == s.fe.devid && (p.ty == 1 || p.ty == 6 || p.ty == 7) && decide (blockOf (readAt p) ≤ pa) &&
        decide (pa < readAt p + readLen p) then
      let s1 : State := { s with agenda := rest }
      match s1.receive p [p.ty.toNat] with
      | .drop s2 => s2
      | .dup => s1.launchPacket (refusalOf p 4) 1
      | .fresh => (s1.markSeq p).launchPacket (refusalOf p 4) 1
    else { s with agenda := .packet p g st :: rest }
  | _ => s

/-- An uncorrectable error in a line (R388): it kills the owner, or is logged, and the line is poisoned.
(Log 75 DEDUCED, 135 DEDUCED.) -/
def State.lineError (s : State) (u : ErrUnit) (pa : Nat) : State :=
  let c := s.lineOwner pa
  let reason := if s.savingCtx c then 1 else 0
  let s1 : State := (s.refuseRead pa).kill c reason (unitCode u) pa 1
  { s1 with
    poison := if s1.poisoned pa then s1.poison else s1.poison ++ [(blockOf pa, c)]
    ctl := { s1.ctl with errors := s1.ctl.errors + 1 } }

/-- UNCORRECTABLE_ERROR (R388). (Log 136 DESIGN CHOICE.) -/
def execUncorrectableError (u : ErrUnit) (pa : Nat) (s : State) : Host.Outcome State Fault Refusal := .next (s.lineError u pa)

/-- SCRUB (R389): a line is read; a correctable error is corrected in place and counted, the 1,025th of a pass is reported. A pass
begins at address 0. (Log 33 DESIGN CHOICE, 141 DESIGN CHOICE.) -/
def execScrub (pa : Nat) (h : LineHealth) (s : State) : Host.Outcome State Fault Refusal :=
  let n := if pa < 128 then 0 else s.ctl.corrected
  let put := fun (k : Nat) => ({ s with ctl := { s.ctl with corrected := k } } : State)
  let fixed := fun (t : State) => ({ t with ctl := { t.ctl with fixed := t.ctl.fixed + 1 } } : State)
  match h with
  | .clean => .next (put n)
  | .correctable => .next (if n + 1 = 1025 then (fixed (put (n + 1))).send (.note 0x86 []) else fixed (put (n + 1)))
  | .uncorrectable l2 => .next ((put n).lineError (if inHbm pa then (if l2 then .l2 else .hbm) else .cellar) pa)

/-- Has a context an operation in a part of a CU? -/
def State.usesPart (s : State) (cu : Nat) (part : EnginePart) (c : BitVec 12) : Bool :=
  let u := s.cu cu
  s.ops.any (fun o => o.ctx == c && (match part with
    | .mx => u.mxq.contains o.id || u.mxRuns.any (fun r => r.op == o.id)
    | .ce => u.ceq.contains o.id || u.chans.any (fun e => e.2 == o.id)
    | .fe => o.cu == cu && (match o.kind with | .xfer _ | .tsend .. | .msend .. | .cntwait .. => true | _ => false)))

/-- ENGINE_RESET (R388): every context with an operation in the part is killed, with reason 2. -/
def execEngineReset (cu : Nat) (part : EnginePart) (s : State) : Host.Outcome State Fault Refusal :=
  .next ((s.ctxs.map (·.1)).foldl (fun (t : State) c => if t.usesPart cu part c then t.kill c 2 3 0 0 else t) s)

-- Freeze, reset and boot (R375, R393, R394) -------------------------------------------------------------------------------------

/-- Freezes the module (R375): the clocks stop and every link goes down. -/
def State.freezeAll (s : State) : State :=
  { s with
    ctl := { s.ctl with phase := .frozen }
    ports := s.ports.map (fun e => (e.1, { e.2 with st := .down }))
    locals := s.locals.map (fun e => (e.1, LocalPort.down)), said := s.out.length }

/-- FREEZE (R375): the pin held low for at least 1 µs. -/
def execFreeze (lowNs : Nat) (s : State) : Host.Outcome State Fault Refusal := .next (if 1000 ≤ lowNs then s.freezeAll else s)

/-- A module reset (R393): the main side at its reset values, the bytes of memory as they were until boot zeroes them; the
management side, its fuses and DEVID survive. (Log 7 DESIGN CHOICE, 9 DESIGN CHOICE.) -/
def State.resetAll (s : State) : State :=
  { State.reset with
    nextId := s.nextId, freeCtr := s.freeCtr, agenda := s.agenda, mem := s.mem, out := s.out, said := s.out.length
    fe := { Fe.reset with devid := s.fe.devid }
    ctl := { s.ctl with
      phase := .boot, aclk := 940, capped := false, thermal := false, droop := false, short := false, capw := 4200, droopAt := 0
      power := [], spacing := 0, loaded := none, corrected := 0, errors := 0, fixed := 0 } }

/-- MODULE_RESET (R393): the pin held low for at least 10 µs. -/
def execModuleReset (lowNs : Nat) (s : State) : Host.Outcome State Fault Refusal := .next (if 10000 ≤ lowNs then s.resetAll else s)

/-- Does an image verify (R394 step 3)? (Log 14 DESIGN CHOICE.) -/
def Ctl.verifies (c : Ctl) (i : Sys2Proof.Image) : Bool :=
  let d := Config.sha384 i.bytes
  Config.ecdsaOk d i.ecdsaSig && Config.lmsOk d i.lmsSig && decide (c.secCounter ≤ i.secVersion)

/-- BOOT (R394): the image in the management flash is verified and loaded, HBM is zeroed with owner and guard tags 0, and the
firmware brings up the links; when the Ocush link is up it reports ready on it. Without an image that verifies the main side is in
recovery. (Log 6 DESIGN CHOICE, 7 DESIGN CHOICE, 13 DEDUCED, 14 DESIGN CHOICE.) -/
def execBoot (s : State) : Host.Outcome State Fault Refusal :=
  match s.ctl.phase with
  | .boot =>
    (match s.ctl.flash.filter s.ctl.verifies with
     | some i => .next { s with
        ctl := { s.ctl with phase := .links, loaded := some i }, mem := [], sects := [], guards := [], owners := [], poison := [] }
     | none => .next { s with ctl := { s.ctl with phase := .recovery } })
  | .links =>
    .next (if (s.port 255).st = .up then ({ s with ctl := { s.ctl with phase := .ready } } : State).send .ready else s)
  | _ => .next s

-- Clocks and power (R390, R391) -----------------------------------------------------------------------------------------------

/-- DROOP_STRETCH (R390): the DROOP bit, and event 0x12 of a CU whose aclk is stretched; the detector of an L2 column, `none`, stretches
bclk. -/
def execDroopStretch (cu : Option Nat) (s : State) : Host.Outcome State Fault Refusal :=
  let s1 := match cu with | some c => s.countEv c 0x12 1 none | none => s
  .next { s1 with ctl := { s1.ctl with droop := true, droopAt := s.now } }

/-- The highest aclk that the temperature allows (R391). -/
def Ctl.top (c : Ctl) : Nat := if c.thermal then 470 else 940

/-- The power controller's step after a measurement (R391): over the cap in the mean of the last ten it lowers aclk by 5 MHz, and
at 235 MHz it spaces kiln issue and says SHORT; otherwise it gives back what it took, one step. (Log 142 DESIGN CHOICE.) -/
def Ctl.control (c : Ctl) (milliwatts : Nat) : Ctl :=
  let p := (milliwatts :: c.power).take 10
  let overs := decide (c.capw * 1000 * p.length < p.sum)
  if overs then
    if 240 ≤ c.aclk then { c with power := p, aclk := c.aclk - 5, capped := true }
    else { c with power := p, aclk := 235, capped := true, short := true, spacing := c.spacing + 1 }
  else if 0 < c.spacing then { c with power := p, short := false, spacing := c.spacing - 1 }
  else
    let a := Nat.min (c.aclk + 5) c.top
    { c with power := p, short := false, aclk := a, capped := c.capped && decide (a < c.top) }

/-- POWER_CONTROL (R391). (Log 142 DESIGN CHOICE.) -/
def execPowerControl (milliwatts : Nat) (s : State) : Host.Outcome State Fault Refusal :=
  .next { s with ctl := s.ctl.control milliwatts }

/-- THERMAL_LIMIT (R391): at 110 °C aclk is held at 470 MHz or less, at 120 °C the module is frozen. (Log 142 DESIGN CHOICE.) -/
def execThermalLimit (celsius : Nat) (s : State) : Host.Outcome State Fault Refusal :=
  let c : Ctl := { s.ctl with
    celsius := celsius, thermal := decide (110 ≤ celsius), aclk := if 110 ≤ celsius then Nat.min s.ctl.aclk 470 else s.ctl.aclk }
  let s1 : State := { s with ctl := c }
  .next (if 120 ≤ celsius then s1.freezeAll else s1)

-- The management port (R392) ----------------------------------------------------------------------------------------------------

/-- Answers on the management port. (Log 144 DESIGN CHOICE.) -/
def State.manage (s : State) (bs : List Byte) : Host.Outcome State Fault Refusal := .next (s.send (.mgmt bs))

/-- SET_DEVID (R367, R392). -/
def execSetDevid (id : BitVec 16) (s : State) : Host.Outcome State Fault Refusal :=
  ({ s with fe := { s.fe with devid := id } } : State).manage [0]

/-- SET_POWER_CAP (R391): 1,200 to 4,200 W; another value is refused. -/
def execSetPowerCap (watts : Nat) (s : State) : Host.Outcome State Fault Refusal :=
  if 1200 ≤ watts ∧ watts ≤ 4200 then ({ s with ctl := { s.ctl with capw := watts } } : State).manage [0] else s.manage [1]

/-- MANAGEMENT_FREEZE (R375). -/
def execManagementFreeze (s : State) : Host.Outcome State Fault Refusal := .next s.freezeAll

/-- MANAGEMENT_RESET (R393). -/
def execManagementReset (s : State) : Host.Outcome State Fault Refusal := .next s.resetAll

/-- PLDM_MONITORING (R392): temperature in °C, power in mW, CLKSTAT, or the count of errors that could not be corrected or could.
(Log 144 DESIGN CHOICE.) -/
def execPldmMonitoring (r : Reading) (s : State) : Host.Outcome State Fault Refusal :=
  match r with
  | .temperature => s.manage (leBytes s.ctl.celsius 8)
  | .power => s.manage (leBytes (s.ctl.power.headD 0) 8)
  | .clkstat => s.manage (leBytes s.ctl.clkstat.toNat 8)
  | .errors => s.manage (leBytes s.ctl.errors 8)
  | .corrected => s.manage (leBytes s.ctl.fixed 8)

/-- PLDM_FIRMWARE_UPDATE (R392, R394): the image goes to the flash; in recovery boot tries again with it. (Log 13 DEDUCED.) -/
def execPldmFirmwareUpdate (img : Sys2Proof.Image) (s : State) : Host.Outcome State Fault Refusal :=
  let c : Ctl := { s.ctl with flash := some img, phase := if s.ctl.phase = .recovery then .boot else s.ctl.phase }
  ({ s with ctl := c } : State).manage [0]

/-- An SPDM 1.3 message of a code: the version byte, the code, its two parameters, what it carries. (Log 143 PRESUMED.) -/
def spdm (code p1 p2 : Byte) (bs : List Byte) : List Byte := [0x13, code, p1, p2] ++ bs

/-- The SPDM error of a request that comes out of its order, or cannot be served. (Log 143 PRESUMED.) -/
def spdmError (why : Byte) : List Byte := spdm 0x7F why 0 []

/-- GET_VERSION (R392): it begins the exchange; one version, 1.3. The message itself is of version 1.0. (Log 143 PRESUMED.) -/
def execGetVersion (s : State) : Host.Outcome State Fault Refusal :=
  ({ s with ctl := { s.ctl with spdmVersion := true, spdmCaps := false, spdmAlgs := false } } : State).manage
    [0x10, 0x04, 0, 0, 0, 1, 0, 0x13]

/-- GET_CAPABILITIES (R392): certificates, challenge, measurements with signature; no key exchange and no secure session. The sizes
and the timing exponent are the implementation's. (Log 143 PRESUMED.) -/
def execGetCapabilities (s : State) : Host.Outcome State Fault Refusal :=
  if s.ctl.spdmVersion then
    ({ s with ctl := { s.ctl with spdmCaps := true } } : State).manage
      (spdm 0x61 0 0 ([0, Config.spdmSize 0, 0, 0] ++ leBytes 0x16 4 ++ (List.range 8).map (fun i => Config.spdmSize (1 + i))))
  else s.manage (spdmError 4)

/-- NEGOTIATE_ALGORITHMS (R392): ECDSA P-384 and SHA-384 only. (Log 143 PRESUMED.) -/
def execNegotiateAlgorithms (ecdsaP384 sha384 : Bool) (s : State) : Host.Outcome State Fault Refusal :=
  if !s.ctl.spdmCaps then s.manage (spdmError 4)
  else if ecdsaP384 && sha384 then
    ({ s with ctl := { s.ctl with spdmAlgs := true } } : State).manage
      (spdm 0x63 0 0 (leBytes 36 2 ++ [1, 0] ++ leBytes 4 4 ++ leBytes 0x80 4 ++ leBytes 2 4 ++ List.replicate 16 0))
  else s.manage (spdmError 1)

/-- Answers an SPDM request that needs the negotiation. -/
def State.negotiated (s : State) (bs : List Byte) : Host.Outcome State Fault Refusal :=
  s.manage (if s.ctl.spdmAlgs then bs else spdmError 4)

/-- GET_DIGESTS (R392). (Log 143 PRESUMED.) -/
def execGetDigests (s : State) : Host.Outcome State Fault Refusal :=
  s.negotiated (spdm 0x01 1 1 (Config.sha384 Config.certificate))

/-- GET_CERTIFICATE (R392): slot 0. (Log 143 PRESUMED.) -/
def execGetCertificate (slot : Nat) (s : State) : Host.Outcome State Fault Refusal :=
  s.negotiated (if slot = 0 then spdm 0x02 0 0 (leBytes Config.certificate.length 2 ++ [0, 0] ++ Config.certificate) else spdmError 1)

/-- A nonce of the responder: 32 free bytes. -/
def State.nonce (s : State) : List Byte := (List.range 4).flatMap (fun i => leBytes (Config.freeWord (s.freeCtr + i)).toNat 8)

/-- CHALLENGE (R392): the digest of the certificate chain, a nonce, the requester's context, and the signature over them with the
requester's nonce. (Log 143 PRESUMED.) -/
def execChallenge (nonce : List Byte) (s : State) : Host.Outcome State Fault Refusal :=
  let m := spdm 0x03 0 1
    (Config.sha384 Config.certificate ++ s.nonce ++ [0, 0] ++ ((nonce.drop 32) ++ List.replicate 8 0).take 8)
  ({ s with freeCtr := s.freeCtr + 4 } : State).negotiated (m ++ Config.spdmSign (nonce ++ m))

/-- The boot state as a byte of the measurements. -/
def Phase.code : Phase → Byte
  | .boot | .links => 0 | .ready => 1 | .recovery => 2 | .frozen => 3

/-- A measurement block: its index, the DMTF specification, its type, its value. -/
def measure (index type : Byte) (v : List Byte) : List Byte :=
  [index, 1] ++ leBytes (v.length + 3) 2 ++ [type] ++ leBytes v.length 2 ++ v

/-- GET_MEASUREMENTS (R392): the firmware image digest, the fuse state and the boot state.
(Log 143 PRESUMED, 144 DESIGN CHOICE.) -/
def execGetMeasurements (s : State) : Host.Outcome State Fault Refusal :=
  let d := match s.ctl.loaded with | some i => Config.sha384 i.bytes | none => []
  let ms := measure 1 0x01 d ++ measure 2 0x82 (leBytes s.ctl.secCounter 8) ++ measure 3 0x83 [s.ctl.phase.code]
  ({ s with freeCtr := s.freeCtr + 4 } : State).negotiated
    (spdm 0x60 0 0 ([3] ++ leBytes ms.length 3 ++ ms ++ s.nonce ++ List.replicate 10 0))

end Sys2Proof.Machine
end

