-- ==== Sys2Proof/Machine/Pipe.lean ====
section
/-!
DEFINITION. Pipelines: packing items into slots, the balancer, stealing, the end of a pipeline grid (R120-R124).
-/
namespace Sys2Proof.Machine

-- Packing (R121) ------------------------------------------------------------------------------------------------------------

/-- Is a slot of a running pipeline workgroup free? -/
def State.slotFree (s : State) (wg k : Nat) : Bool :=
  s.wgRuns wg && (s.launchOf wg).pipe && decide (k < (s.wg wg).nslots) && (s.live (slotRefs wg k)).isEmpty

/-- The registers of a slot that a packed fibre starts with: the items' words in `v0` to `v3`, tagged U32 (R121). -/
def itemRegs (items : List (BitVec 128)) : Tbl Nat VVal :=
  (List.range 4).map (fun k => (k, { tag := 2, lanes := items.map (fun (x : BitVec 128) => (x >>> (32 * k)).setWidth 32) }))

/-- STAGE_PACKING (R121): a free slot assigned to a stage takes up to W items when W wait or the head is due.
(Log 116 DEDUCED.) -/
def execStagePacking (wg slot : Nat) (s : State) : Host.Outcome State Fault Refusal :=
  let t := s.slot wg slot
  let w := s.wg wg
  match t.stage with
  | none => .next s
  | some st =>
    let q := (s.cluster w.cluster).stageQ st
    if !s.slotFree wg slot || q.items.isEmpty || !(decide (w.warp ≤ q.items.length) || q.headDue) then .next s
    else
      let n := Nat.min w.warp q.items.length
      let lanes := fullMask n
      let f := Fibre.initial s.nextId 0 (s.stageOf w.cluster st).entry lanes 0
        [(0, (s.launchOf wg).args), (1, BitVec.ofNat 64 n), (2, BitVec.ofNat 64 st)] (s.grid w.grid).ot
      let s1 := s.setSlot wg slot { Slot.empty with
        number := t.number, v := itemRegs (s.ringItems w.cluster st 0 n), stage := some st, runs := some st, items := lanes }
      let s2 := s1.setStageQ w.cluster st { q with items := q.items.drop n, claimed := q.claimed + n, headDue := false }
      .next ((s2.setFib { wg := wg, slot := slot, idx := 0 } f).bump)

/-- PACK_HEAD_TIMEOUT (R121): the head item has waited 256 aclk. (Log 10 DESIGN CHOICE.) -/
def execPackHeadTimeout (cl st : Nat) (s : State) : Host.Outcome State Fault Refusal :=
  let q := (s.cluster cl).stageQ st
  if q.items.isEmpty || (s.cluster cl).place != .resident then .next s
  else .next (s.setStageQ cl st { q with headDue := true })

-- The balancer (R123) ---------------------------------------------------------------------------------------------------------

/-- The stages that may receive slots: those with items whose downstream queue is at most 7/8 full. -/
def State.openStages (s : State) (cl : Nat) : List Nat :=
  let n := (s.grid (s.cluster cl).grid).stages.length
  let occ := fun (st : Nat) => ((s.cluster cl).stageQ st).occ
  (List.range n).filter (fun st => decide (0 < occ st) &&
    (decide (n ≤ st + 1) || decide (8 * occ (st + 1) ≤ 7 * (s.stageOf cl (st + 1)).depth)))

/-- Stages in descending remainder, the lower first on a tie. -/
def insertRem (e : Nat × Nat) : List (Nat × Nat) → List (Nat × Nat)
  | [] => [e]
  | h :: t => if h.2 < e.2 then e :: h :: t else h :: insertRem e t

/-- A split of `n` slots by largest remainder over stages with their occupancies: how many each stage receives.
(Log 163 DESIGN CHOICE.) -/
def largestRemainder (n : Nat) (occ : List (Nat × Nat)) : Tbl Nat Nat :=
  let total := (occ.map (·.2)).sum
  let floors := occ.map (fun e => (e.1, n * e.2 / total))
  let left := n - (floors.map (·.2)).sum
  let order := (occ.foldl (fun l e => insertRem (e.1, n * e.2 % total) l) []).map (·.1)
  floors.map (fun e => (e.1, e.2 + (if (order.take left).contains e.1 then 1 else 0)))

/-- SLOT_REBALANCE (R123): the free slots of a pipeline workgroup are assigned anew, the lowest-numbered to the starved
stages first. (Log 10 DESIGN CHOICE, 118 DEDUCED, 163 DESIGN CHOICE.) -/
def execSlotRebalance (wg : Nat) (s : State) : Host.Outcome State Fault Refusal :=
  let w := s.wg wg
  let cl := w.cluster
  let free := (List.range w.nslots).filter (s.slotFree wg)
  let e := s.openStages cl
  if free.isEmpty || e.isEmpty then .next s
  else
    let starved := fun (st : Nat) => Tbl.get ((s.cluster cl).stageQ st).starved w.rank 0
    let first := (e.filter (fun st => decide (4 ≤ starved st))).take free.length
    let rest := largestRemainder (free.length - first.length) (e.map (fun st => (st, ((s.cluster cl).stageQ st).occ)))
    let given := first ++ rest.flatMap (fun x => List.replicate x.2 x.1)
    let s1 := (free.zip (given.map some)).foldl (fun (t : State) x => t.setSlot wg x.1 { t.slot wg x.1 with stage := x.2 }) s
    .next ((List.range (s.grid w.grid).stages.length).foldl (fun (t : State) st =>
      let q := (t.cluster cl).stageQ st
      t.setStageQ cl st { q with starved := Tbl.set q.starved w.rank (if given.contains st then 0 else starved st + 1) }) s1)

-- Stealing (R124) ---------------------------------------------------------------------------------------------------------------

/-- One step of the LFSR x^16 + x^14 + x^13 + x^11 + 1: the feedback bit enters at the top of a right shift.
(Log 117 DEDUCED, 164 DESIGN CHOICE.) -/
def lfsrStep (x : BitVec 16) : BitVec 16 :=
  let b := x.getLsbD 0 ^^ x.getLsbD 2 ^^ x.getLsbD 3 ^^ x.getLsbD 5
  (x >>> 1) ||| (if b then 0x8000 else 0)

/-- The cluster of a grid with number `c` (R120). -/
def State.clusterNo (s : State) (g c : Nat) : Option Nat := (s.grid g).clusters.find? (fun x => (s.cluster x).c == c)

/-- STEAL_REQUEST (R124): an empty queue of a STEALABLE stage with a free slot assigned to it asks a victim.
The LFSR is stepped before its value is used. (Log 117 DEDUCED, 164 DESIGN CHOICE.) -/
def execStealRequest (cl st : Nat) (s : State) : Host.Outcome State Fault Refusal :=
  let k := s.cluster cl
  let q := k.stageQ st
  let total := (s.grid k.grid).clusters.length
  let slot := k.wgs.any (fun g => (List.range (s.wg g).nslots).any (fun i => s.slotFree g i && (s.slot g i).stage == some st))
  if k.place ≠ .resident ∨ ¬ (s.stageOf cl st).stealable ∨ total ≤ 1 ∨ ¬ q.items.isEmpty ∨ q.victim.isSome ∨ q.backoff ∨ ¬ slot then .next s
  else
    let l := lfsrStep q.lfsr
    let v := l.toNat % (total - 1)
    .next (s.setStageQ cl st { q with lfsr := l, victim := some (if k.c ≤ v then v + 1 else v) })

/-- STEAL_ANSWER (R124): the victim of an outstanding request gives half of its waiting items, up to 64, from its tail; one that is
not resident and running gives none. The move stays within the requester's depth (R120). (Log 116 DEDUCED, 118 DEDUCED.) -/
def execStealAnswer (cl st : Nat) (s : State) : Host.Outcome State Fault Refusal :=
  let k := s.cluster cl
  let q := k.stageQ st
  match q.victim with
  | none => .next s
  | some v =>
    let none' := s.setStageQ cl st { q with victim := none, backoff := true }
    match s.clusterNo k.grid v with
    | none => .next none'
    | some c =>
      let d := s.cluster c
      let x := d.stageQ st
      let m := if d.place = .resident then Nat.min 64 (x.items.length / 2) else 0
      let n := Nat.min m ((s.stageOf cl st).depth - q.occ)
      if n = 0 then .next none'
      else
        let s1 := (s.setStageQ c st { x with items := x.items.take (x.items.length - n), tail := x.tail - n }).setStageQ cl st
          { q with victim := none }
        .next (s1.appendItems cl st (s.ringItems c st (x.items.length - n) n))

/-- STEAL_RETRY (R124): 256 aclk after an empty answer the next request may go. -/
def execStealRetry (cl st : Nat) (s : State) : Host.Outcome State Fault Refusal :=
  let q := (s.cluster cl).stageQ st
  .next (if q.backoff then s.setStageQ cl st { q with backoff := false } else s)

-- The end (R122) ------------------------------------------------------------------------------------------------------------------

/-- PIPELINE_END (R122): every queue empty, no item claimed, no spawn outstanding, every slot free: the workgroups of the grid end
together. -/
def execPipelineEnd (g : Nat) (s : State) : Host.Outcome State Fault Refusal :=
  let x := s.grid g
  let wgs := x.clusters.flatMap (fun c => (s.cluster c).wgs)
  let idle := x.clusters.all (fun c => let k := s.cluster c
    (k.place == .resident || k.place == .stopping) && k.stages.all (fun e => e.2.occ == 0 && e.2.victim.isNone))
  let spawns := s.ops.any (fun o => wgs.contains o.who.wg && (match o.kind with | .spawn .. => true | _ => false))
  if x.launch.pipe && idle && !spawns && (s.live (wgs.flatMap s.wgRefs)).isEmpty && wgs.any (fun w => (s.wg w).live) then
    .next (wgs.foldl (fun (t : State) w => t.endWg w) s)
  else .next s

end Sys2Proof.Machine
end

