-- ==== Sys2Proof/Machine/Dispatch.lean ====
section
/-! DEFINITION. The dispatch: each constructor's meaning. -/
namespace Sys2Proof.Machine

/-- The meaning of an instruction of the actor, or of a hardware step. -/
def exec (i : Instr) (s : State) : Host.Outcome State Fault Refusal :=
  match i with
  | .bra o => Sys2Proof.Machine.execBra o s
  | .braZ sr o => Sys2Proof.Machine.execBraZ sr o s
  | .braNz sr o => Sys2Proof.Machine.execBraNz sr o s
  | .braLt sr o => Sys2Proof.Machine.execBraLt sr o s
  | .braGe sr o => Sys2Proof.Machine.execBraGe sr o s
  | .braAll p o => Sys2Proof.Machine.execBraAll p o s
  | .braAny p o => Sys2Proof.Machine.execBraAny p o s
  | .brp n p o => Sys2Proof.Machine.execBrp n p o s
  | .call l o => Sys2Proof.Machine.execCall l o s
  | .brx t o => Sys2Proof.Machine.execBrx t o s
  | .ret r => Sys2Proof.Machine.execRet r s
  | .jset j => Sys2Proof.Machine.execJset j s
  | .join j => Sys2Proof.Machine.execJoin j s
  | .waitj j => Sys2Proof.Machine.execWaitj j s
  | .fork d t w p => Sys2Proof.Machine.execFork d t w p s
  | .fend => Sys2Proof.Machine.execFend s
  | .fyield => Sys2Proof.Machine.execFyield s
  | .fsync a => Sys2Proof.Machine.execFsync a s
  | .fsyncM a => Sys2Proof.Machine.execFsyncM a s
  | .fresume k => Sys2Proof.Machine.execFresume k s
  | .fresumePc k p => Sys2Proof.Machine.execFresumePc k p s
  | .fresumeEnd k => Sys2Proof.Machine.execFresumeEnd k s
  | .fstatMask d k => Sys2Proof.Machine.execFstatMask d k s
  | .fstatPc d k => Sys2Proof.Machine.execFstatPc d k s
  | .fstatInfo d k => Sys2Proof.Machine.execFstatInfo d k s
  | .barWg => Sys2Proof.Machine.execBarWg s
  | .barCa => Sys2Proof.Machine.execBarCa s
  | .barCw => Sys2Proof.Machine.execBarCw s
  | .barGrid => Sys2Proof.Machine.execBarGrid s
  | .waitf m => Sys2Proof.Machine.execWaitf m s
  | .setf m => Sys2Proof.Machine.execSetf m s
  | .clrf m => Sys2Proof.Machine.execClrf m s
  | .trap c => Sys2Proof.Machine.execTrap c s
  | .brk c => Sys2Proof.Machine.execBrk c s
  | .sysr sr r => Sys2Proof.Machine.execSysr sr r s
  | .sysw sr r => Sys2Proof.Machine.execSysw sr r s
  | .icinv a b => Sys2Proof.Machine.execIcinv a b s
  | .icinvD a b => Sys2Proof.Machine.execIcinvD a b s
  | .isync => Sys2Proof.Machine.execIsync s
  | .pand d a b => Sys2Proof.Machine.execPand d a b s
  | .por d a b => Sys2Proof.Machine.execPor d a b s
  | .pxor d a b => Sys2Proof.Machine.execPxor d a b s
  | .pnot d a => Sys2Proof.Machine.execPnot d a s
  | .pmov d a => Sys2Proof.Machine.execPmov d a s
  | .pmovFs d sr => Sys2Proof.Machine.execPmovFs d sr s
  | .pmovTs a sr => Sys2Proof.Machine.execPmovTs a sr s
  | .nop => Sys2Proof.Machine.execNop s
  | .exit => Sys2Proof.Machine.execExit s
  | .vadd d a x b y => Sys2Proof.Machine.execVadd d a x b y s
  | .vsub d a x b y => Sys2Proof.Machine.execVsub d a x b y s
  | .vmul d a x b y => Sys2Proof.Machine.execVmul d a x b y s
  | .vmulh d a x b y => Sys2Proof.Machine.execVmulh d a x b y s
  | .vfma d a x b y => Sys2Proof.Machine.execVfma d a x b y s
  | .vfms d a x b y => Sys2Proof.Machine.execVfms d a x b y s
  | .vmadi d a x b y => Sys2Proof.Machine.execVmadi d a x b y s
  | .vmin d a x b y => Sys2Proof.Machine.execVmin d a x b y s
  | .vmax d a x b y => Sys2Proof.Machine.execVmax d a x b y s
  | .vand d a x b y => Sys2Proof.Machine.execVand d a x b y s
  | .vor d a x b y => Sys2Proof.Machine.execVor d a x b y s
  | .vxor d a x b y => Sys2Proof.Machine.execVxor d a x b y s
  | .vshl d a x b y => Sys2Proof.Machine.execVshl d a x b y s
  | .vshr d a x b y => Sys2Proof.Machine.execVshr d a x b y s
  | .vsra d a x b y => Sys2Proof.Machine.execVsra d a x b y s
  | .vscale d a x b y => Sys2Proof.Machine.execVscale d a x b y s
  | .vdot4 d a x b y => Sys2Proof.Machine.execVdot4 d a x b y s
  | .vpack d a x b y => Sys2Proof.Machine.execVpack d a x b y s
  | .vperm d a x b y => Sys2Proof.Machine.execVperm d a x b y s
  | .vcmp p c a x b y => Sys2Proof.Machine.execVcmp p c a x b y s
  | .vsel d a x p n => Sys2Proof.Machine.execVsel d a x p n s
  | .vmovi d t v => Sys2Proof.Machine.execVmovi d t v s
  | .vmov d a x => Sys2Proof.Machine.execVmov d a x s
  | .vabs d a x => Sys2Proof.Machine.execVabs d a x s
  | .vneg d a x => Sys2Proof.Machine.execVneg d a x s
  | .vnot d a x => Sys2Proof.Machine.execVnot d a x s
  | .vclass d a x => Sys2Proof.Machine.execVclass d a x s
  | .vclz d a x => Sys2Proof.Machine.execVclz d a x s
  | .vffs d a x => Sys2Proof.Machine.execVffs d a x s
  | .vpopc d a x => Sys2Proof.Machine.execVpopc d a x s
  | .vbrev d a x => Sys2Proof.Machine.execVbrev d a x s
  | .vtag d a => Sys2Proof.Machine.execVtag d a s
  | .vlaneid d => Sys2Proof.Machine.execVlaneid d s
  | .vexp2 d a x => Sys2Proof.Machine.execVexp2 d a x s
  | .vlog2 d a x => Sys2Proof.Machine.execVlog2 d a x s
  | .vrcp d a x => Sys2Proof.Machine.execVrcp d a x s
  | .vrsq d a x => Sys2Proof.Machine.execVrsq d a x s
  | .vsin d a x => Sys2Proof.Machine.execVsin d a x s
  | .vcos d a x => Sys2Proof.Machine.execVcos d a x s
  | .vunpk d a x e => Sys2Proof.Machine.execVunpk d a x e s
  | .vcvt d a x t => Sys2Proof.Machine.execVcvt d a x t s
  | .vretag d a x t => Sys2Proof.Machine.execVretag d a x t s
  | .vreduce a x sr o => Sys2Proof.Machine.execVreduce a x sr o s
  | .vscan d a x sr o => Sys2Proof.Machine.execVscan d a x sr o s
  | .route q k p => Sys2Proof.Machine.execRoute q k p s
  | .routeS q k sr => Sys2Proof.Machine.execRouteS q k sr s
  | .ptld t a x => Sys2Proof.Machine.execPtld t a x s
  | .vballot sr p => Sys2Proof.Machine.execVballot sr p s
  | .vvoteAny sr d p => Sys2Proof.Machine.execVvoteAny sr d p s
  | .vvoteAll sr d p => Sys2Proof.Machine.execVvoteAll sr d p s
  | .vvoteEq sr d p => Sys2Proof.Machine.execVvoteEq sr d p s
  | .sadd d a b => Sys2Proof.Machine.execSadd d a b s
  | .ssub d a b => Sys2Proof.Machine.execSsub d a b s
  | .smul d a b => Sys2Proof.Machine.execSmul d a b s
  | .smulh d a b => Sys2Proof.Machine.execSmulh d a b s
  | .smulhU d a b => Sys2Proof.Machine.execSmulhU d a b s
  | .sdiv d a b => Sys2Proof.Machine.execSdiv d a b s
  | .sdivU d a b => Sys2Proof.Machine.execSdivU d a b s
  | .srem d a b => Sys2Proof.Machine.execSrem d a b s
  | .sremU d a b => Sys2Proof.Machine.execSremU d a b s
  | .sand d a b => Sys2Proof.Machine.execSand d a b s
  | .sor d a b => Sys2Proof.Machine.execSor d a b s
  | .sxor d a b => Sys2Proof.Machine.execSxor d a b s
  | .sshl d a b => Sys2Proof.Machine.execSshl d a b s
  | .sshr d a b => Sys2Proof.Machine.execSshr d a b s
  | .ssra d a b => Sys2Proof.Machine.execSsra d a b s
  | .smin d a b => Sys2Proof.Machine.execSmin d a b s
  | .sminU d a b => Sys2Proof.Machine.execSminU d a b s
  | .smax d a b => Sys2Proof.Machine.execSmax d a b s
  | .smaxU d a b => Sys2Proof.Machine.execSmaxU d a b s
  | .smov d b => Sys2Proof.Machine.execSmov d b s
  | .sclz d a => Sys2Proof.Machine.execSclz d a s
  | .sffs d a => Sys2Proof.Machine.execSffs d a s
  | .spopc d a => Sys2Proof.Machine.execSpopc d a s
  | .ssel d a b => Sys2Proof.Machine.execSsel d a b s
  | .scmp d a b r => Sys2Proof.Machine.execScmp d a b r s
  | .saddImm d a v => Sys2Proof.Machine.execSaddImm d a v s
  | .sandImm d a v => Sys2Proof.Machine.execSandImm d a v s
  | .sorImm d a v => Sys2Proof.Machine.execSorImm d a v s
  | .sxorImm d a v => Sys2Proof.Machine.execSxorImm d a v s
  | .sshlImm d a n => Sys2Proof.Machine.execSshlImm d a n s
  | .sshrImm d a n => Sys2Proof.Machine.execSshrImm d a n s
  | .ssraImm d a n => Sys2Proof.Machine.execSsraImm d a n s
  | .sli d v => Sys2Proof.Machine.execSli d v s
  | .sliHi d => Sys2Proof.Machine.execSliHi d s
  | .smadd d a b c => Sys2Proof.Machine.execSmadd d a b c s
  | .sbfx d a p l x => Sys2Proof.Machine.execSbfx d a p l x s
  | .sbfi d a p l => Sys2Proof.Machine.execSbfi d a p l s
  | .ld32 d a b t f => Sys2Proof.Machine.execLd32 d a b t f s
  | .ld64 d a b t f => Sys2Proof.Machine.execLd64 d a b t f s
  | .ld128 d a b t f => Sys2Proof.Machine.execLd128 d a b t f s
  | .ldN d a b n f => Sys2Proof.Machine.execLdN d a b n f s
  | .st32 d a b f => Sys2Proof.Machine.execSt32 d a b f s
  | .st64 d a b f => Sys2Proof.Machine.execSt64 d a b f s
  | .st128 d a b f => Sys2Proof.Machine.execSt128 d a b f s
  | .stN d a b n f => Sys2Proof.Machine.execStN d a b n f s
  | .lds d b n f v => Sys2Proof.Machine.execLds d b n f v s
  | .sts d b n f v => Sys2Proof.Machine.execSts d b n f v s
  | .ldb d b t f => Sys2Proof.Machine.execLdb d b t f s
  | .pref a b n => Sys2Proof.Machine.execPref a b n s
  | .fence p sr c => Sys2Proof.Machine.execFence p sr c s
  | .waitc a v o z f => Sys2Proof.Machine.execWaitc a v o z f s
  | .decantBind d a b => Sys2Proof.Machine.execDecantBind d a b s
  | .decantUnbind d a => Sys2Proof.Machine.execDecantUnbind d a s
  | .ldw d b f => Sys2Proof.Machine.execLdw d b f s
  | .stw d b f => Sys2Proof.Machine.execStw d b f s
  | .clst d a b n f => Sys2Proof.Machine.execClst d a b n f s
  | .amo d a b o r f => Sys2Proof.Machine.execAmo d a b o r f s
  | .amor d a b o r f => Sys2Proof.Machine.execAmor d a b o r f s
  | .cas d a b sr r f => Sys2Proof.Machine.execCas d a b sr r f s
  | .acust d a b h r f => Sys2Proof.Machine.execAcust d a b h r f s
  | .asinst h a b => Sys2Proof.Machine.execAsinst h a b s
  | .tlbinvVaDev a b => Sys2Proof.Machine.execTlbinvVaDev a b s
  | .tlbinvVaSys a b => Sys2Proof.Machine.execTlbinvVaSys a b s
  | .tlbinvAsidDev a => Sys2Proof.Machine.execTlbinvAsidDev a s
  | .tlbinvAsidSys a => Sys2Proof.Machine.execTlbinvAsidSys a s
  | .tlbinvAllDev => Sys2Proof.Machine.execTlbinvAllDev s
  | .tlbinvAllSys => Sys2Proof.Machine.execTlbinvAllSys s
  | .tlbsyncDev => Sys2Proof.Machine.execTlbsyncDev s
  | .tlbsyncSys => Sys2Proof.Machine.execTlbsyncSys s
  | .atrans d a n => Sys2Proof.Machine.execAtrans d a n s
  | .mbind a g n => Sys2Proof.Machine.execMbind a g n s
  | .mready => Sys2Proof.Machine.execMready s
  | .msign a g f => Sys2Proof.Machine.execMsign a g f s
  | .mma c a g => Sys2Proof.Machine.execMma c a g s
  | .mtile c a g => Sys2Proof.Machine.execMtile c a g s
  | .mepi c g m => Sys2Proof.Machine.execMepi c g m s
  | .splitEnc a b f => Sys2Proof.Machine.execSplitEnc a b f s
  | .splitDec a b f => Sys2Proof.Machine.execSplitDec a b f s
  | .mstat v d g => Sys2Proof.Machine.execMstat v d g s
  | .mrfence => Sys2Proof.Machine.execMrfence s
  | .spgRow a b f => Sys2Proof.Machine.execSpgRow a b f s
  | .spgFlush a b f => Sys2Proof.Machine.execSpgFlush a b f s
  | .rackHint a b => Sys2Proof.Machine.execRackHint a b s
  | .rackInv a b => Sys2Proof.Machine.execRackInv a b s
  | .cp l a b f => Sys2Proof.Machine.execCp l a b f s
  | .cpG l a b f => Sys2Proof.Machine.execCpG l a b f s
  | .cpT a b f => Sys2Proof.Machine.execCpT a b f s
  | .cpMc l a b f => Sys2Proof.Machine.execCpMc l a b f s
  | .cpStat v d => Sys2Proof.Machine.execCpStat v d s
  | .put l a b f => Sys2Proof.Machine.execPut l a b f s
  | .putG l a b f => Sys2Proof.Machine.execPutG l a b f s
  | .get l a b f => Sys2Proof.Machine.execGet l a b f s
  | .getG l a b f => Sys2Proof.Machine.execGetG l a b f s
  | .tsend p a b f => Sys2Proof.Machine.execTsend p a b f s
  | .cntRd d c => Sys2Proof.Machine.execCntRd d c s
  | .cntSet l a c => Sys2Proof.Machine.execCntSet l a c s
  | .cntAdd v c => Sys2Proof.Machine.execCntAdd v c s
  | .cntwait v c f => Sys2Proof.Machine.execCntwait v c f s
  | .qpost q a => Sys2Proof.Machine.execQpost q a s
  | .msend l t sr f => Sys2Proof.Machine.execMsend l t sr f s
  | .qpop r d q => Sys2Proof.Machine.execQpop r d q s
  | .peerStat d v => Sys2Proof.Machine.execPeerStat d v s
  | .peerClr v => Sys2Proof.Machine.execPeerClr v s
  | .spawn t a b f => Sys2Proof.Machine.execSpawn t a b f s
  | .spawnv d t f => Sys2Proof.Machine.execSpawnv d t f s
  | .itemdone => Sys2Proof.Machine.execItemdone s
  | .launch a b f => Sys2Proof.Machine.execLaunch a b f s
  | .preemptPt n a => Sys2Proof.Machine.execPreemptPt n a s
  | .evread n d => Sys2Proof.Machine.execEvread n d s
  | .evctl n c => Sys2Proof.Machine.execEvctl n c s
  | .tmark v => Sys2Proof.Machine.execTmark v s
  | .mod m sr c o l t => Sys2Proof.Machine.execMod m sr c o l t s
  | .limm imm => Sys2Proof.Machine.execLimm imm s
  | .clauseFetch f => Sys2Proof.Machine.execClauseFetch f s
  | .fibreSwitch wg slot => Sys2Proof.Machine.execFibreSwitch wg slot s
  | .headerWaitSatisfied f => Sys2Proof.Machine.execHeaderWaitSatisfied f s
  | .fibreEndComplete f => Sys2Proof.Machine.execFibreEndComplete f s
  | .barrierRelease k id => Sys2Proof.Machine.execBarrierRelease k id s
  | .rejoinRelease wg slot j => Sys2Proof.Machine.execRejoinRelease wg slot j s
  | .fsyncRelease wg slot set => Sys2Proof.Machine.execFsyncRelease wg slot set s
  | .asyncFaultFreeze f => Sys2Proof.Machine.execAsyncFaultFreeze f s
  | .handlerFibreStart wg slot => Sys2Proof.Machine.execHandlerFibreStart wg slot s
  | .loadSplit f => Sys2Proof.Machine.execLoadSplit f s
  | .writeThrough op part => Sys2Proof.Machine.execWriteThrough op part s
  | .homeRead op part => Sys2Proof.Machine.execHomeRead op part s
  | .sectorFill op part => Sys2Proof.Machine.execSectorFill op part s
  | .gwctReply op part => Sys2Proof.Machine.execGwctReply op part s
  | .monitorArm op => Sys2Proof.Machine.execMonitorArm op s
  | .monitorComplete op => Sys2Proof.Machine.execMonitorComplete op s
  | .fenceComplete f => Sys2Proof.Machine.execFenceComplete f s
  | .pageWalk cu asid page => Sys2Proof.Machine.execPageWalk cu asid page s
  | .invalidationApply inv => Sys2Proof.Machine.execInvalidationApply inv s
  | .atomicServiceSlot group => Sys2Proof.Machine.execAtomicServiceSlot group s
  | .atomicReply op part => Sys2Proof.Machine.execAtomicReply op part s
  | .mxQueueEntry cu => Sys2Proof.Machine.execMxQueueEntry cu s
  | .matrixStep cu => Sys2Proof.Machine.execMatrixStep cu s
  | .mxOperationComplete cu => Sys2Proof.Machine.execMxOperationComplete cu s
  | .gseOperation cu => Sys2Proof.Machine.execGseOperation cu s
  | .copyStart cu chan => Sys2Proof.Machine.execCopyStart cu chan s
  | .copyComplete op => Sys2Proof.Machine.execCopyComplete op s
  | .spawnAppend op => Sys2Proof.Machine.execSpawnAppend op s
  | .launchAppend op => Sys2Proof.Machine.execLaunchAppend op s
  | .launchBlockProcess q => Sys2Proof.Machine.execLaunchBlockProcess q s
  | .launchTestRetest q => Sys2Proof.Machine.execLaunchTestRetest q s
  | .placement => Sys2Proof.Machine.execPlacement s
  | .agePromotion grid => Sys2Proof.Machine.execAgePromotion grid s
  | .gridComplete grid => Sys2Proof.Machine.execGridComplete grid s
  | .stagePacking wg slot => Sys2Proof.Machine.execStagePacking wg slot s
  | .packHeadTimeout cluster stage => Sys2Proof.Machine.execPackHeadTimeout cluster stage s
  | .slotRebalance wg => Sys2Proof.Machine.execSlotRebalance wg s
  | .stealRequest cluster stage => Sys2Proof.Machine.execStealRequest cluster stage s
  | .stealAnswer cluster stage => Sys2Proof.Machine.execStealAnswer cluster stage s
  | .stealRetry cluster stage => Sys2Proof.Machine.execStealRetry cluster stage s
  | .pipelineEnd grid => Sys2Proof.Machine.execPipelineEnd grid s
  | .migration cluster x y => Sys2Proof.Machine.execMigration cluster x y s
  | .forwardingExpiry fwd => Sys2Proof.Machine.execForwardingExpiry fwd s
  | .preemption cluster level => Sys2Proof.Machine.execPreemption cluster level s
  | .restore cluster x y => Sys2Proof.Machine.execRestore cluster x y s
  | .tsendFire op => Sys2Proof.Machine.execTsendFire op s
  | .cntwaitComplete op => Sys2Proof.Machine.execCntwaitComplete op s
  | .packetSend tx => Sys2Proof.Machine.execPacketSend tx s
  | .packetForward p arrivedGlobal stage => Sys2Proof.Machine.execPacketForward p arrivedGlobal stage s
  | .readPacket p => Sys2Proof.Machine.execReadPacket p s
  | .writePacket p => Sys2Proof.Machine.execWritePacket p s
  | .atomicPacket p => Sys2Proof.Machine.execAtomicPacket p s
  | .putPacket p => Sys2Proof.Machine.execPutPacket p s
  | .putgPacket p => Sys2Proof.Machine.execPutgPacket p s
  | .getPacket p => Sys2Proof.Machine.execGetPacket p s
  | .getgPacket p => Sys2Proof.Machine.execGetgPacket p s
  | .msgPacket p => Sys2Proof.Machine.execMsgPacket p s
  | .ctrlInvalidation p => Sys2Proof.Machine.execCtrlInvalidation p s
  | .ctrlResync p => Sys2Proof.Machine.execCtrlResync p s
  | .rdata p => Sys2Proof.Machine.execRdata p s
  | .ack p => Sys2Proof.Machine.execAck p s
  | .aresult p => Sys2Proof.Machine.execAresult p s
  | .getdata p => Sys2Proof.Machine.execGetdata p s
  | .busy p => Sys2Proof.Machine.execBusy p s
  | .grant p => Sys2Proof.Machine.execGrant p s
  | .refused p => Sys2Proof.Machine.execRefused p s
  | .msgBackoffResend tx => Sys2Proof.Machine.execMsgBackoffResend tx s
  | .grantLapse queue => Sys2Proof.Machine.execGrantLapse queue s
  | .feReplayTimer tx => Sys2Proof.Machine.execFeReplayTimer tx s
  | .eolDataFlit port fl => Sys2Proof.Machine.execEolDataFlit port fl s
  | .eolNak port fl => Sys2Proof.Machine.execEolNak port fl s
  | .eolReplayTimeout port => Sys2Proof.Machine.execEolReplayTimeout port s
  | .ts1 port fl => Sys2Proof.Machine.execTs1 port fl s
  | .ts1Timer port => Sys2Proof.Machine.execTs1Timer port s
  | .ts2 port fl => Sys2Proof.Machine.execTs2 port fl s
  | .creditInit port fl => Sys2Proof.Machine.execCreditInit port fl s
  | .trainTimeout port => Sys2Proof.Machine.execTrainTimeout port s
  | .fecLockLoss port => Sys2Proof.Machine.execFecLockLoss port s
  | .localPortRetrain port ev => Sys2Proof.Machine.execLocalPortRetrain port ev s
  | .ctxCreate ctxid asid root priv save size share => Sys2Proof.Machine.execCtxCreate ctxid asid root priv save size share s
  | .ctxDestroy ctxid => Sys2Proof.Machine.execCtxDestroy ctxid s
  | .ctxKill ctxid => Sys2Proof.Machine.execCtxKill ctxid s
  | .queueBind q ctxid deviceFed => Sys2Proof.Machine.execQueueBind q ctxid deviceFed s
  | .queueUnbind q => Sys2Proof.Machine.execQueueUnbind q s
  | .memRd a n => Sys2Proof.Machine.execMemRd a n s
  | .memWr a data => Sys2Proof.Machine.execMemWr a data s
  | .regRd pa => Sys2Proof.Machine.execRegRd pa s
  | .regWr pa v => Sys2Proof.Machine.execRegWr pa v s
  | .dbgHalt f => Sys2Proof.Machine.execDbgHalt f s
  | .dbgResume f wholeGroup => Sys2Proof.Machine.execDbgResume f wholeGroup s
  | .dbgStep f => Sys2Proof.Machine.execDbgStep f s
  | .dbgRead f off => Sys2Proof.Machine.execDbgRead f off s
  | .dbgWrite f off v => Sys2Proof.Machine.execDbgWrite f off v s
  | .unknownCommand code => Sys2Proof.Machine.execUnknownCommand code s
  | .doorbellWrite q v => Sys2Proof.Machine.execDoorbellWrite q v s
  | .fertimerWrite v => Sys2Proof.Machine.execFertimerWrite v s
  | .mmioRegisterWrite pa v => Sys2Proof.Machine.execMmioRegisterWrite pa v s
  | .evownWrite cu n v => Sys2Proof.Machine.execEvownWrite cu n v s
  | .freeze lowNs => Sys2Proof.Machine.execFreeze lowNs s
  | .moduleReset lowNs => Sys2Proof.Machine.execModuleReset lowNs s
  | .boot => Sys2Proof.Machine.execBoot s
  | .uncorrectableError u pa => Sys2Proof.Machine.execUncorrectableError u pa s
  | .scrub pa h => Sys2Proof.Machine.execScrub pa h s
  | .scrubPoisonedLine pa => Sys2Proof.Machine.execScrubPoisonedLine pa s
  | .engineReset cu part => Sys2Proof.Machine.execEngineReset cu part s
  | .droopStretch cu => Sys2Proof.Machine.execDroopStretch cu s
  | .powerControl milliwatts => Sys2Proof.Machine.execPowerControl milliwatts s
  | .thermalLimit celsius => Sys2Proof.Machine.execThermalLimit celsius s
  | .setDevid id => Sys2Proof.Machine.execSetDevid id s
  | .setPowerCap watts => Sys2Proof.Machine.execSetPowerCap watts s
  | .managementFreeze => Sys2Proof.Machine.execManagementFreeze s
  | .managementReset => Sys2Proof.Machine.execManagementReset s
  | .pldmMonitoring r => Sys2Proof.Machine.execPldmMonitoring r s
  | .pldmFirmwareUpdate img => Sys2Proof.Machine.execPldmFirmwareUpdate img s
  | .getVersion => Sys2Proof.Machine.execGetVersion s
  | .getCapabilities => Sys2Proof.Machine.execGetCapabilities s
  | .negotiateAlgorithms ecdsaP384 sha384 => Sys2Proof.Machine.execNegotiateAlgorithms ecdsaP384 sha384 s
  | .getDigests => Sys2Proof.Machine.execGetDigests s
  | .getCertificate slot => Sys2Proof.Machine.execGetCertificate slot s
  | .challenge nonce => Sys2Proof.Machine.execChallenge nonce s
  | .getMeasurements => Sys2Proof.Machine.execGetMeasurements s
  | .codeword port wave msg => Sys2Proof.Machine.execCodeword port wave msg s
  | .idleFlit port fl => Sys2Proof.Machine.execIdleFlit port fl s
  | .gwctWaitEnd op => Sys2Proof.Machine.execGwctWaitEnd op s

end Sys2Proof.Machine
end

