-- ==== Sys2Proof/Machine/Sched.lean ====
section
/-!
DEFINITION. Which agent moves: the head of the agenda, and with an empty agenda the model's own choice among the agents that the
state holds, in rotation (R10, R31). Lease time advances here (R80). The run of an instruction is an argument, so that this file
does not depend on the dispatch.
-/
namespace Sys2Proof.Machine

/-- Something an agent does. -/
abbrev Act := State → Host.Outcome State Fault Refusal

-- Lease time (R80) ----------------------------------------------------------------------------------------------------

/-- A copy of lease time may take a lag when it stays within 8 ns of the master and does not go back from where it stood (R80).
(Log 11 DESIGN CHOICE.) -/
def takeLag (n : Nat) (old lags : Tbl Nat Nat) (e : Nat × Nat) : Tbl Nat Nat :=
  if e.2 ≤ 8 ∧ e.2 ≤ Tbl.get old e.1 0 + n then Tbl.set lags e.1 e.2 else lags

/-- Whole aclk cycles that begin in the `n` ns from `t`, at `mhz` (R376 event 0x01).
(Log 10 DESIGN CHOICE, 183 DESIGN CHOICE.) -/
def aclkIn (mhz t n : Nat) : Nat := (t + n) * mhz / 1000 - t * mhz / 1000

/-- What `k` aclk cycles add to the event counts of a CU: the cycles, those of its quarters in which no unit issued, those with no
sector-miss entry free, those in which a matrix operation runs (R376). (Log 183 DESIGN CHOICE.) -/
def State.tickCu (s : State) (c k : Nat) : State :=
  let u := s.cu c
  let s1 := (s.setCu c { u with units := u.units - 4 * k }).countEv c 1 k none
  let s2 := s1.countEv c 5 (4 * k - u.units) none
  let holder := fun (p : Op → Bool) => ((s.ops.filter (fun o => o.cu == c && p o)).head?).map (·.ctx)
  let s3 := if s.missUsed c < 4096 then s2 else s2.countEv c 8 k (holder (fun o => o.parts.any (fun q => q.holdsMiss || q.holdsAtomic)))
  match u.mxRuns with
  | [] => s3
  | r :: _ => s3.countEv c 9 k (holder (fun o => o.id == r.op))

/-- What the scan interface reads (R375). (Log 182 DESIGN CHOICE.) -/
def State.scanRead (s : State) : Scan → List Byte
  | .bytes pa => (List.range 8).map (fun i => s.physByte (pa + i))
  | .image wg off => (List.range 8).map (fun i => s.imgByte wg (off + i))
  | .flag r n => leBytes (s.flagval r.wg r.slot n (s.fib r).mask) 8
  | .register r n => leBytes (({ s with actor := r } : State).sysRead n).toNat 8
  | .queue n => leBytes (s.queue n).block.toNat 8 ++ (s.queue n).fifo.flatMap (fun e => leBytes e.1.toNat 8)

/-- Lease time advances by `n` ns, and the ports' codewords with it (R340); in a frozen module the clocks stand (R375).
(Log 10 DESIGN CHOICE, 11 DESIGN CHOICE, 12 DESIGN CHOICE.) -/
def State.tick (s : State) (n : Nat) (lags : List (Nat × Nat)) : State :=
  if s.ctl.phase = .frozen then s else
  let k := aclkIn s.ctl.aclk s.now n
  let s1 : State := { s.sendLines s.now n with now := s.now + n, lags := lags.foldl (takeLag n s.lags) s.lags }
  let s2 := (s.cus.map (·.1)).foldl (fun (t : State) c => t.tickCu c k) s1
  { s2 with ctl := { s2.ctl with droop := s2.ctl.droop && decide (s.now + n < s2.ctl.droopAt + 1000000) } }

-- A fibre's turn (R141) -------------------------------------------------------------------------------------------------

/-- The warp slot issues the next word of its current fibre: a breakpoint halts it first (R372), a word that is no instruction
faults (R36). (Log 10 DESIGN CHOICE, 169 DESIGN CHOICE.) -/
def State.fibreTurn (run : Instr → Act) (wg slot : Nat) (s : State) : Host.Outcome State Fault Refusal :=
  let r : FRef := { wg := wg, slot := slot, idx := (s.slot wg slot).cur }
  let s1 : State := { s with actor := r }
  if s.isSaved wg || !(s.wg wg).live || !s1.issuing then .next s1
  else match s1.breakpoint with
    | some n => .next (s1.breakHere n)
    | none =>
      match (s1.me.clause.bind (fun c => c.instrAt s1.me.idx)) with
      | some i => run i s1
      | none => .next (s1.take 1 0)

-- What arrives from outside ------------------------------------------------------------------------------------------------

/-- Does an event act: a hardware step or command of the running module, the pins and boot in every phase, a link while boot brings
it up (R375, R393, R394)? An instruction of a fibre is no event, and a request to the management controller comes over its port.
(Log 2 DESIGN CHOICE, 12 DESIGN CHOICE.) -/
def State.admits (s : State) (i : Instr) : Bool :=
  (encode i).isEmpty && (match i with
    | .moduleReset _ | .freeze _ | .boot | .thermalLimit _ => true
    | .codeword .. | .localPortRetrain .. => s.ctl.phase == .ready || s.ctl.phase == .links
    | .setDevid _ | .setPowerCap _ | .managementFreeze | .managementReset | .pldmMonitoring _ | .pldmFirmwareUpdate _ | .getVersion
    | .getCapabilities | .negotiateAlgorithms .. | .getDigests | .getCertificate _ | .challenge _ | .getMeasurements => false
    | _ => s.ctl.phase == .ready)

/-- Is an event a command or request of the management port (R392)? -/
def onManagement (i : Instr) : Bool :=
  match i with
  | .setDevid _ | .setPowerCap _ | .managementFreeze | .managementReset | .pldmMonitoring _ | .pldmFirmwareUpdate _ | .getVersion
  | .getCapabilities | .negotiateAlgorithms .. | .getDigests | .getCertificate _ | .challenge _ | .getMeasurements => true
  | _ => false

/-- Is an event a command of the control node, of the table of R382? -/
def onOcush (i : Instr) : Bool :=
  match i with
  | .ctxCreate .. | .ctxDestroy _ | .ctxKill _ | .queueBind .. | .queueUnbind _ | .memRd .. | .memWr .. | .regRd _ | .regWr ..
  | .dbgHalt .. | .dbgResume .. | .dbgStep _ | .dbgRead .. | .dbgWrite .. => true
  | _ => false

-- The model's own choice -----------------------------------------------------------------------------------------------------

/-- What a fibre may do by itself. -/
def fibreActs (r : FRef) : List Act :=
  [execAsyncFaultFreeze r, execClauseFetch r, execHeaderWaitSatisfied r, execFenceComplete r, execFibreEndComplete r, execLoadSplit r]

/-- The sets that fibres of a slot wait at (R160). -/
def State.fsyncSets (s : State) (wg k : Nat) : List (BitVec 8) :=
  ((slotRefs wg k).filterMap (fun r => match (s.fib r).blk with | .fsync q _ _ => some q | _ => none)).eraseDups

/-- What a warp slot may do. -/
def State.slotActs (run : Instr → Act) (s : State) (wg k : Nat) : List Act :=
  [fun t => t.fibreTurn run wg k, execFibreSwitch wg k, execHandlerFibreStart wg k, execStagePacking wg k] ++
  (s.fsyncSets wg k).map (fun q => execFsyncRelease wg k q) ++
  (s.slot wg k).j.map (fun e => execRejoinRelease wg k (BitVec.ofNat 4 e.1))

/-- What the clusters, grids and stage queues may do. -/
def State.workActs (s : State) : List Act :=
  (s.wgs.filter (·.2.live)).flatMap (fun e => [execBarrierRelease .workgroup e.1, execSlotRebalance e.1]) ++
  (s.clusters.filter (fun e => e.2.place != .ended)).flatMap (fun e =>
    [execBarrierRelease .cluster e.1] ++ (List.range 8).map (fun p => execPreemption e.1 p) ++
    (match e.2.moveTo with
     | some (x, y) => [execMigration e.1 x y]
     | none => (s.freeRects e.1).map (fun x => execMigration e.1 x.1 x.2)) ++
    (if e.2.place = .saved then (rectsOf e.2.cw e.2.ch).map (fun x => execRestore e.1 x.1 x.2) else []) ++
    (List.range (s.grid e.2.grid).stages.length).flatMap (fun st =>
      [execPackHeadTimeout e.1 st, execStealRequest e.1 st, execStealAnswer e.1 st, execStealRetry e.1 st])) ++
  (s.grids.filter (fun e => !e.2.done)).flatMap (fun e =>
    [execBarrierRelease .grid e.1, execPipelineEnd e.1, execAgePromotion e.1, execGridComplete e.1]) ++
  s.forwards.map (fun f => execForwardingExpiry f.id) ++ [execPlacement] ++
  s.queues.flatMap (fun e => [execLaunchBlockProcess e.1, execLaunchTestRetest e.1])

/-- What the operations in flight may do. -/
def State.opActs (s : State) : List Act :=
  s.ops.flatMap (fun o =>
    (List.range o.parts.length).flatMap (fun p =>
      [execHomeRead o.id p, execSectorFill o.id p, execWriteThrough o.id p, execGwctReply o.id p, execAtomicReply o.id p]) ++
    [execMonitorArm o.id, execMonitorComplete o.id, execCopyComplete o.id, execSpawnAppend o.id, execLaunchAppend o.id,
     execTsendFire o.id, execCntwaitComplete o.id, execGwctWaitEnd o.id])

/-- What the engines may do. -/
def State.engineActs (s : State) : List Act :=
  s.cus.flatMap (fun e =>
    e.2.coal.map (fun c => execPageWalk e.1 c.asid c.page) ++
    [execMxQueueEntry e.1, execMatrixStep e.1, execMxOperationComplete e.1, execGseOperation e.1] ++
    (List.range 4).map (fun n => execCopyStart e.1 n)) ++
  s.invs.map (fun v => execInvalidationApply v.id) ++
  (s.ase.map (·.1)).eraseDups.map (fun g => execAtomicServiceSlot g)

/-- The first DOWN port, in order of its number, whose microsecond has passed sends TS1 (R341). -/
def State.ts1Due (s : State) : Host.Outcome State Fault Refusal :=
  match eolPorts.find? (fun n => (s.port n).st == LinkSt.down && decide ((s.port n).lastTs1 + 1000 ≤ s.now)) with
  | some n => execTs1Timer n s
  | none => .next s

/-- What the ports may do. -/
def State.linkActs (s : State) : List Act :=
  [State.ts1Due, fun t => .next t.ocushSend] ++
  s.ports.flatMap (fun e => [execTrainTimeout e.1, execFecLockLoss e.1, execEolReplayTimeout e.1]) ++
  s.locals.map (fun e => execLocalPortRetrain e.1 .timeout)

/-- What the fabric engine, the ports and the scrubber may do. -/
def State.fabricActs (s : State) : List Act :=
  s.fe.tx.flatMap (fun t => [execPacketSend t.id, execMsgBackoffResend t.id, execFeReplayTimer t.id]) ++
  s.fe.owed.map (fun o => execGwctWaitEnd o.id) ++ s.fe.queues.map (fun e => execGrantLapse e.1) ++
  s.linkActs ++ s.poison.map (fun e => execScrubPoisonedLine e.1)

/-- Everything that an agent of the running module may do now, time last. (Log 1 DESIGN CHOICE.) -/
def State.acts (run : Instr → Act) (s : State) : List Act :=
  (s.fibres.filter (fun e => e.2.st != .absent)).flatMap (fun e => fibreActs e.1) ++
  (s.wgs.filter (·.2.live)).flatMap (fun e => (List.range e.2.nslots).flatMap (fun k => s.slotActs run e.1 k)) ++
  s.workActs ++ s.opActs ++ s.engineActs ++ s.fabricActs ++ [fun t => .next (t.tick 1 [])]

/-- The act whose turn it is in a rotation. -/
def rotate (l : List Act) (s : State) : Host.Outcome State Fault Refusal :=
  match l[(s.rr - 1) % l.length]? with
  | some a => a s
  | none => .next s

/-- With an empty agenda the agents move in rotation; before the module is ready only boot does, at its end with the links.
(Log 1 DESIGN CHOICE.) -/
def State.ownTurn (run : Instr → Act) (s : State) : Host.Outcome State Fault Refusal :=
  let s1 : State := { s with rr := s.rr + 1 }
  match s.ctl.phase with
  | .ready => rotate (s.acts run) s1
  | .links => rotate (s.linkActs ++ [execBoot, fun t => .next (t.tick 1 [])]) s1
  | .boot => execBoot s1
  | _ => .next s1

/-- One step: the head of the agenda, or the model's own choice. (Log 1 DESIGN CHOICE, 2 DESIGN CHOICE, 12 DESIGN CHOICE.) -/
def State.turn (run : Instr → Act) (s : State) : Host.Outcome State Fault Refusal :=
  match s.agenda with
  | [] => s.ownTurn run
  | .fibre wg k :: rest => ({ s with agenda := rest } : State).fibreTurn run wg k
  | .event i :: rest => if s.admits i then run i { s with agenda := rest } else .next { s with agenda := rest }
  | .packet p g st :: rest =>
    if s.ctl.phase = .ready then ({ s with agenda := rest } : State).packetArrives p g st else .next { s with agenda := rest }
  | .flit port f :: rest =>
    if s.ctl.phase = .ready ∨ s.ctl.phase = .links then ({ s with agenda := rest } : State).flitArrives port f
    else .next { s with agenda := rest }
  | .frame n c ok p st :: rest =>
    let s1 : State := { s with agenda := rest }
    if s.ctl.phase = .ready ∧ s.frameOk n c ok p then s1.packetArrives p false st
    else if s.ctl.phase = .ready ∧ (s.localPort n).up ∧ ok then
      .next (s1.setLocal n { s.localPort n with other := (s.localPort n).other + 1 })
    else .next (if s.ctl.phase = .ready then s1.frameBad n else s1)
  | .frameReply n k again :: rest =>
    .next (if s.ctl.phase = .ready then ({ s with agenda := rest } : State).frameReply n k again else { s with agenda := rest })
  | .record bs :: rest =>
    let s1 : State := { s with agenda := rest }
    match Config.commandOf bs with
    | some i => if onOcush i then run i s1 else if s1.portUp then s1.refuse 0xFF else .next s1
    | none => if s1.portUp then s1.refuse 0xFF else .next s1
  | .management to' i :: rest =>
    if to' = 0x2E ∧ onManagement i then run i { s with agenda := rest } else .next { s with agenda := rest }
  | .resume r h :: rest =>
    .next (if s.ctl.phase = .ready then ({ s with agenda := rest } : State).runtimeResume r h else { s with agenda := rest })
  | .debug c n v :: rest =>
    .next (if s.ctl.phase = .ready ∧ (s.ctx c).live then ({ s with agenda := rest } : State).debugWrite c n v else { s with agenda := rest })
  | .scan x :: rest =>
    .next (if s.ctl.phase = .frozen then ({ s with agenda := rest } : State).send (.scan (s.scanRead x)) else { s with agenda := rest })
  | .tick n lags :: rest => .next (({ s with agenda := rest } : State).tick n lags)

end Sys2Proof.Machine
end

