-- ==== Sys2Proof/Machine/Step.lean ====
section
/-!
DEFINITION. The step of the machine, and a state whose next step runs a given instruction word.
-/
namespace Sys2Proof.Machine

/-- One step: what the head of the agenda names, or with an empty agenda what the model chooses. -/
def step (s : State) : Host.Outcome State Fault Refusal := s.turn exec

/-- The words of a table row's instruction: two for `LIMM`, else one. -/
def rowWords (nbits w : Nat) : List Word :=
  match decode (tableWords nbits w) with
  | .ok (_, n) => (tableWords nbits w).take n
  | .error _ => (tableWords nbits w).take 1

/-- The machine with a clause that holds the instruction, in the clause buffer of warp slot 0 of workgroup 0 (R145): its fibre 0
has passed the header, and its turn is next. The module is ready; context 1 owns the workgroup. (Log 6 DESIGN CHOICE.) -/
def State.withFetchWord (s : State) (nbits w : Nat) : State :=
  let ws := rowWords nbits w
  let c : Clause := { addr := 0, header := 0xFE000000#32 ||| BitVec.ofNat 32 (2 * (ws.length - 1)), ext := none, words := ws }
  let f : Fibre := { Fibre.absent with st := .ready, fid := s.nextId, clause := some c, inside := true, mask := fullMask 16 }
  let g : Wg := { Wg.unplaced with live := true, ctx := 1, nslots := 1, regs := 128 }
  let r : FRef := { wg := 0, slot := 0, idx := 0 }
  { s with
    ctl := { s.ctl with phase := .ready }
    agenda := .fibre 0 0 :: s.agenda
    nextId := s.nextId + 1
    ctxs := Tbl.set s.ctxs 1 { Ctx.absent with live := true, asid := 1, priv := true }
    grids := Tbl.set s.grids 0 { Grid.blank with ctx := 1, clusters := [0], done := false }
    clusters := Tbl.set s.clusters 0 { Cluster.blank with place := .resident, wgs := [0] }
    wgs := Tbl.set s.wgs 0 g
    slots := Tbl.set s.slots (0, 0) { Slot.empty with cbuf := [{ asid := 1, clause := c, used := 0, dead := false }] }
    fibres := Tbl.set s.fibres r f }

end Sys2Proof.Machine
end

