-- ==== Sys2Proof/Safety.lean ====
section
/-!
DEFINITION. The terms the statements use: an instruction that issues and completes, what the instructions that write only
registers leave alone, and the invariants of the machine.
-/
namespace Sys2Proof.Machine

/-- The fibre `actor` issues `i`, and none of the checks and interlocks of R47, R89 and R90 stops or delays it. -/
def State.goes (s : State) (i : Instr) : Prop := s.issuing = true ∧ s.verdict i = .go

/-- The instruction answers a next state, and that state is as `P` says. -/
def Completes (i : Instr) (s : State) (P : State → Prop) : Prop := ∃ t, exec i s = .next t ∧ P t

/-- The registers of a fibre that its instructions name (R12): scalar, predicate and route registers, lane mask, window base,
FSTICKY, FSEL, FSPLIT. -/
structure Regs where
  s : Tbl Nat DWord
  p : Tbl Nat DWord
  q : Tbl Nat RouteReg
  mask : DWord
  base : BitVec 10
  sticky : BitVec 9
  fsel : BitVec 4
  fsplit : DWord
deriving DecidableEq, Repr

/-- The registers of a fibre record. -/
def Fibre.regs (f : Fibre) : Regs :=
  { s := f.s, p := f.p, q := f.q, mask := f.mask, base := f.base, sticky := f.sticky, fsel := f.fsel, fsplit := f.fsplit }

/-- Nothing outside the fibres' own records changes in memory: every byte of HBM with its guard tag, every scratchpad byte, every
vector register, the fabric, the links, the control node and lease time. -/
structure Still (s t : State) : Prop where
  mem : ∀ a, t.hbm a = s.hbm a
  tags : ∀ a, t.guardTag a = s.guardTag a
  pads : ∀ g o, t.pad g o = s.pad g o
  vregs : ∀ g k n, t.vreg g k n = s.vreg g k n
  fabric : t.fe = s.fe ∧ t.ports = s.ports ∧ t.locals = s.locals ∧ t.ctl = s.ctl
  time : t.now = s.now ∧ t.lags = s.lags

/-- What an instruction that writes only registers of its own fibre leaves alone: all of `Still`, the workgroups with their
gangs and counters, the clusters, grids, queues and contexts, the operations in flight, and the registers of every other
fibre. -/
structure Quiet (s t : State) : Prop extends Still s t where
  work : t.wgs = s.wgs ∧ t.clusters = s.clusters ∧ t.grids = s.grids ∧ t.queues = s.queues ∧ t.ctxs = s.ctxs
  ops : t.ops = s.ops ∧ t.mons = s.mons ∧ t.ase = s.ase ∧ t.invs = s.invs
  others : ∀ r, r ≠ s.actor → (t.fib r).regs = (s.fib r).regs

/-- The fibre stands at header `h` with its temporaries and hint words gone, its clause still to be loaded (R37, R42); unless it
is ending, it is blocked for the reason `b`. -/
def State.standsAt (t : State) (r : FRef) (h : DWord) (b : Blk) : Prop :=
  (t.fib r).st = .blocked ∧ (t.fib r).pc = h ∧ (t.fib r).clause = none ∧ (t.fib r).inside = false ∧ (t.fib r).t = [] ∧
  (t.fib r).hMod = none ∧ (t.fib r).hLimm = none ∧ ((t.fib r).doomed = false → (t.fib r).blk = b)

/-- A new fibre is ready at header `h`, its clause still to be loaded (R149, R155). -/
def State.startsAt (t : State) (r : FRef) (h : DWord) : Prop :=
  (t.fib r).st = .ready ∧ (t.fib r).blk = .header ∧ (t.fib r).pc = h ∧ (t.fib r).clause = none ∧ (t.fib r).inside = false ∧
  (t.fib r).t = [] ∧ (t.fib r).hMod = none ∧ (t.fib r).hLimm = none

/-- From `s` to `t` the running fibre's issue unit ended: it is before the next word of its clause with the hint words used up,
or at the next header (R42, R44). -/
def State.advanced (s t : State) : Prop :=
  ∀ c, s.me.clause = some c →
    (s.me.idx + 1 < c.words.length →
      (t.fib s.actor).st = s.me.st ∧ (t.fib s.actor).clause = some c ∧ (t.fib s.actor).idx = s.me.idx + 1 ∧
      (t.fib s.actor).unit0 = s.me.idx + 1 ∧ (t.fib s.actor).hMod = none ∧ (t.fib s.actor).hLimm = none) ∧
    (c.words.length ≤ s.me.idx + 1 → t.standsAt s.actor c.next .header)

/-- The fibre is frozen before or after a unit, as a fault record says. -/
def State.frozenWith (t : State) (r : FRef) (cause : BitVec 8) (detail : Nat) (pc : DWord) : Prop :=
  (t.fib r).st = .frozen ∧ ∃ fr, (t.fib r).fault = some fr ∧ fr.cause = cause ∧ fr.detail = BitVec.ofNat 47 detail ∧ fr.pc = pc

/-- The instruction, when it issues, writes scalar register `d` of its fibre with `v`, and leaves everything else alone. -/
def WritesScalar (i : Instr) (s : State) (d : SReg) (v : DWord) : Prop :=
  s.goes i → Completes i s (fun t =>
    Quiet s t ∧ (t.fib s.actor).regs = { s.me.regs with s := Tbl.set s.me.s d.toNat v })

/-- The instruction, when it issues, writes predicate `d` of its fibre with the bits of `v` below W, and leaves everything else
alone. -/
def WritesPredicate (i : Instr) (s : State) (d : PReg) (v : DWord) : Prop :=
  s.goes i → Completes i s (fun t =>
    Quiet s t ∧ (t.fib s.actor).regs = { s.me.regs with p := Tbl.set s.me.p d.toNat (v &&& fullMask s.width) })

/-- A branch, when it issues: taken where `c` holds, to `tgt`, else to the next header; the fibre's registers become `g`, and
nothing else changes. A target that is not 4-aligned faults at the branch (R40, R157). -/
def Branches (i : Instr) (s : State) (c : Bool) (tgt : DWord) (g : Regs) : Prop :=
  s.goes i →
    ((c = true → tgt.toNat % 4 = 0) → Completes i s (fun t =>
      Quiet s t ∧ (t.fib s.actor).regs = g ∧ t.standsAt s.actor (if c then tgt else s.nextHeader) .header)) ∧
    (c = true → tgt.toNat % 4 ≠ 0 → exec i s = .next (s.takeAt 0x03 tgt.toNat tgt 0 none))

/-- No byte of HBM, no byte of a scratchpad and no register of a fibre changed. -/
structure Kept (s t : State) : Prop where
  mem : ∀ a, t.hbm a = s.hbm a
  pads : ∀ g o, t.pad g o = s.pad g o
  regs : ∀ r, (t.fib r).regs = (s.fib r).regs

/-- Below 63, so that one more operation may count in the flag (R26). -/
def State.flagFree (s : State) (flag : Option Nat) : Prop :=
  ∀ n, flag = some n → s.flagval s.actor.wg s.actor.slot n s.me.mask < 63

/-- The running fibre posted an operation and its unit ended: the operation counts in its flag for its lanes, and no register
value and no byte changed yet (R25, R27). -/
def State.posted (s t : State) (k : OpKind) (flag : Option Nat) (parts : List Part) : Prop :=
  Kept s t ∧ s.advanced t ∧ (∀ g w n, (t.vreg g w n).lanes = (s.vreg g w n).lanes) ∧
  ∃ o, o ∈ t.ops ∧ o.id = s.nextId ∧ o.kind = k ∧ o.who = s.actor ∧ o.fid = s.me.fid ∧ o.flag = flag ∧ o.lanes = s.me.mask ∧
    o.parts = parts

/-- The tags of `l` stand in the registers from `d` of the running fibre's window, and every other register keeps its own. -/
def State.tagged (s t : State) (d : Nat) (l : List Tag) : Prop :=
  let b := s.me.base.toNat + d
  ∀ g w n, (t.vreg g w n).tag =
    if g = s.actor.wg ∧ w = s.actor.slot ∧ b ≤ n ∧ n < b + l.length then l.getD (n - b) 0 else (s.vreg g w n).tag

/-- Sector-miss entries for the requests of a unit are free in its CU (R220). -/
def State.missRoom (s : State) (parts : List Part) : Prop :=
  s.missUsed s.myWg.cu + (parts.filter Part.holdsMiss).length ≤ 4096

/-- Write-through entries for the requests of a unit are free in its CU (R220). -/
def State.writeRoom (s : State) (parts : List Part) : Prop :=
  s.writeUsed s.myWg.cu + (parts.filter Part.holdsWrite).length ≤ 1024

/-- Entries for the requests of an atomic are free in its CU: sector-miss entries where it returns a value, else write-through
entries (R251, R255). -/
def State.atomRoom (s : State) (ret : Bool) (parts : List Part) : Prop :=
  let n := (parts.filter Part.holdsAtomic).length
  if ret then s.missUsed s.myWg.cu + n ≤ 4096 else s.writeUsed s.myWg.cu + n ≤ 1024

/-- The operation has nothing left to wait for when it completes: it wrote nothing that its scope waits for (R93). -/
def State.settles (s : State) (o : Op) : Prop := o.scope.code ≤ 3 ∨ o.cls &&& clsWrites = 0 ∨ o.gwct ≤ s.lease o.cu

/-- The operation is over, and the fault that ended it is pending in its fibre, if that goes on (R29, R169); a gang's fault goes to its
signers instead (R273). -/
def State.failed (s t : State) (o : Op) (cause : BitVec 8) (detail : Nat) : Prop :=
  (∀ q, q ∈ t.ops → q.id ≠ o.id) ∧
  ((s.fib o.who).st ≠ .absent → (s.fib o.who).st ≠ .frozen → (s.fib o.who).dbg ≠ .halted → (s.fib o.who).fid = o.fid →
    (s.fib o.who).doomed = false → (∀ g p l, o.kind ≠ .gang g p l) → ∃ e, e ∈ (t.fib o.who).pend ∧ e.flag = o.flag ∧
      e.rec'.cause = cause ∧ e.rec'.detail = BitVec.ofNat 47 detail ∧ e.rec'.async = true ∧ e.rec'.ipc = o.ipc)

/-- A transfer, an armed send or a message: its packets that wait to be sent go with it when it fails. -/
def Op.drops (o : Op) : Bool := match o.kind with | .xfer _ | .tsend .. | .msend .. => true | _ => false

/-- Something of the operation is under way beside the packet `x`, if one is named, and its request `part`: a packet that is sent or will
be, a write whose time is still to pass, a request (R88, R93). -/
def State.underWay (s : State) (o : Op) (x : Option Nat) (part : Nat) : Prop :=
  (∃ z, z ∈ s.fe.tx ∧ some z.id ≠ x ∧ z.op = o.id ∧ (z.st ≠ .waiting ∨ o.drops = false)) ∨ (∃ y, y ∈ s.fe.owed ∧ y.op = o.id) ∨
  ∃ j q, (j ≠ part ∨ o.drops = true) ∧ o.parts[j]? = some q ∧ q.st ≠ .done

/-- The operation fails: it is over at once, or, where something of it is under way, it goes on with its fault until that is not
(R29, R93). -/
def State.fails (s t : State) (way : Prop) (o : Op) (cause : BitVec 8) (detail : Nat) : Prop :=
  (¬way → s.settles o → s.failed t o cause detail) ∧
  (way → ∃ q fr, t.op o.id = some q ∧ q.fault = some fr ∧ fr.cause = cause ∧ fr.detail = BitVec.ofNat 47 detail ∧ fr.async = true)

/-- The float formats of R57. -/
def floatFormats : List Fmt := [fmtF32, fmtBF16, fmtF16, fmtE5M2, fmtE4M3, fmtE3M2, fmtE2M3, fmtE2M1]

/-- The value of a sign and `m × 2^e` in units of `2^at'`, where `at'` is at most `e`. -/
def scaled (at' : Int) (neg : Bool) (m : Nat) (e : Int) : Int := sgnm neg (m * 2 ^ (e - at').toNat)

/-- The machine has no context, no work and no operation in flight (R6, R393). -/
def State.empty (s : State) : Prop :=
  s.fibres = [] ∧ s.slots = [] ∧ s.wgs = [] ∧ s.clusters = [] ∧ s.grids = [] ∧ s.queues = [] ∧ s.ctxs = [] ∧ s.ops = []

/-- Memory is in its canonical form. -/
def State.memOk (s : State) : Prop := Mem.wf s.mem = true

end Sys2Proof.Machine
end

