-- ==== Sys2Proof/Certificates/Slice0/Obligations.lean ====
section
/-!
DEFINITION. The statements for the provers. Those about an instruction start from a state in which it issues
(`State.goes`: the checks of R47 pass and no interlock holds it); the statements about the checks say what happens otherwise.
-/
open Sys2Proof Sys2Proof.Machine

-- Scalar unit and predicates ----------------------------------------------------------------------------------------------

/-- R163: every register form of the scalar unit writes its result to one scalar register and nothing else; a reserved minor or field
is illegal. A count is said by what its result means: `SCLZ` and `SFFS` name the highest and the lowest set bit, `SPOPC` counts the
set bits. -/
def Obligations.ScalarRegisterForms : Prop :=
  (∀ (s : State) (d a b : SReg) (r : BitVec 4),
    let x := s.sreg a.toNat
    let y := s.sB b
    WritesScalar (.sadd d a b) s d (x + y) ∧
    WritesScalar (.ssub d a b) s d (x - y) ∧
    WritesScalar (.smul d a b) s d (x * y) ∧
    WritesScalar (.smulh d a b) s d (BitVec.ofInt 64 (x.toInt * y.toInt / 2 ^ 64)) ∧
    WritesScalar (.smulhU d a b) s d (BitVec.ofNat 64 (x.toNat * y.toNat / 2 ^ 64)) ∧
    WritesScalar (.sdiv d a b) s d (if y = 0 then BitVec.allOnes 64 else BitVec.ofInt 64 (Int.tdiv x.toInt y.toInt)) ∧
    WritesScalar (.sdivU d a b) s d (if y = 0 then BitVec.allOnes 64 else BitVec.ofNat 64 (x.toNat / y.toNat)) ∧
    WritesScalar (.srem d a b) s d (if y = 0 then x else BitVec.ofInt 64 (Int.tmod x.toInt y.toInt)) ∧
    WritesScalar (.sremU d a b) s d (if y = 0 then x else BitVec.ofNat 64 (x.toNat % y.toNat)) ∧
    WritesScalar (.sand d a b) s d (x &&& y) ∧
    WritesScalar (.sor d a b) s d (x ||| y) ∧
    WritesScalar (.sxor d a b) s d (x ^^^ y) ∧
    WritesScalar (.sshl d a b) s d (BitVec.ofNat 64 (x.toNat * 2 ^ (y.toNat % 64))) ∧
    WritesScalar (.sshr d a b) s d (BitVec.ofNat 64 (x.toNat / 2 ^ (y.toNat % 64))) ∧
    WritesScalar (.ssra d a b) s d (BitVec.ofInt 64 (x.toInt / 2 ^ (y.toNat % 64))) ∧
    WritesScalar (.smin d a b) s d (if x.toInt < y.toInt then x else y) ∧
    WritesScalar (.sminU d a b) s d (if x.toNat < y.toNat then x else y) ∧
    WritesScalar (.smax d a b) s d (if x.toInt < y.toInt then y else x) ∧
    WritesScalar (.smaxU d a b) s d (if x.toNat < y.toNat then y else x) ∧
    WritesScalar (.smov d b) s d y ∧
    WritesScalar (.ssel d a b) s d (if s.sreg d.toNat ≠ 0 then x else y) ∧
    (∃ n, WritesScalar (.sclz d a) s d (BitVec.ofNat 64 n) ∧ (x = 0 → n = 64) ∧
      (x ≠ 0 → n < 64 ∧ 2 ^ (63 - n) ≤ x.toNat ∧ x.toNat < 2 ^ (64 - n))) ∧
    (∃ n, WritesScalar (.sffs d a) s d (BitVec.ofNat 64 n) ∧ (x = 0 → n = 0) ∧
      (x ≠ 0 → 0 < n ∧ x.toNat.testBit (n - 1) = true ∧ ∀ k, k < n - 1 → x.toNat.testBit k = false)) ∧
    WritesScalar (.spopc d a) s d (BitVec.ofNat 64 ((List.range 64).countP (fun k => x.toNat.testBit k))) ∧
    (∀ holds : Bool,
      (holds = true ↔ match r.toNat with
        | 0 => x = y | 1 => x ≠ y | 2 => x.toInt < y.toInt | 3 => x.toInt ≤ y.toInt | 4 => y.toInt < x.toInt
        | 5 => y.toInt ≤ x.toInt | 6 => x.toNat < y.toNat | 7 => x.toNat ≤ y.toNat | 8 => y.toNat < x.toNat
        | _ => y.toNat ≤ x.toNat) →
      WritesScalar (.scmp d a b r) s d (if holds then 1 else 0)) ∧
    (s.issuing = true →
      (9 < r.toNat → exec (.scmp d a b r) s = .next (s.take 0x01 0)) ∧
      (s.me.hLimm.isSome → exec (.sclz d a) s = .next (s.take 0x01 0) ∧ exec (.sffs d a) s = .next (s.take 0x01 0) ∧
        exec (.spopc d a) s = .next (s.take 0x01 0)))) ∧
  (∀ (w : Word) (rest : List Word),
    let n := w.toNat % 2 ^ 7
    w.toNat / 2 ^ 25 = 0x30 →
    (0x18 ≤ n ∧ n < 0x20) ∨ 0x30 ≤ n ∨ (n = 0x13 ∧ w.toNat / 2 ^ 13 % 2 ^ 6 ≠ 0) ∨
      (0x14 ≤ n ∧ n ≤ 0x16 ∧ w.toNat / 2 ^ 7 % 2 ^ 6 ≠ 0) → ∃ e, decode (w :: rest) = .error e) ∧
  decode [0x60182100] = .ok (.sadd 3 1 2, 1) ∧ decode [0x60282122] = .ok (.scmp 5 1 2 2, 1)

/-- R164: division never traps. -/
def Obligations.DivisionNeverTraps : Prop :=
  ∀ (s : State) (d a b : SReg),
    let x := s.sreg a.toNat
    let y := s.sB b
    (y = 0 → WritesScalar (.sdiv d a b) s d (BitVec.ofInt 64 (-1)) ∧ WritesScalar (.sdivU d a b) s d (BitVec.ofNat 64 (2 ^ 64 - 1)) ∧
      WritesScalar (.srem d a b) s d x ∧ WritesScalar (.sremU d a b) s d x) ∧
    (x = BitVec.ofInt 64 (-2 ^ 63) → y = BitVec.ofInt 64 (-1) →
      WritesScalar (.sdiv d a b) s d x ∧ WritesScalar (.srem d a b) s d 0)

/-- R165: the immediate and special forms; a field that must be zero, a `LIMM` that is not taken or missing, and a bit field that
ends above bit 63 are illegal. -/
def Obligations.ScalarImmediateForms : Prop :=
  (∀ (s : State) (d a b c n p l : SReg) (i : BitVec 13) (sx : BitVec 1),
    let x := s.sreg a.toNat
    let y := match s.me.hLimm with | some w => w.signExtend 64 | none => i.signExtend 64
    WritesScalar (.saddImm d a i) s d (x + y) ∧
    WritesScalar (.sandImm d a i) s d (x &&& y) ∧
    WritesScalar (.sorImm d a i) s d (x ||| y) ∧
    WritesScalar (.sxorImm d a i) s d (x ^^^ y) ∧
    WritesScalar (.sshlImm d a n) s d (BitVec.ofNat 64 (x.toNat * 2 ^ n.toNat)) ∧
    WritesScalar (.sshrImm d a n) s d (BitVec.ofNat 64 (x.toNat / 2 ^ n.toNat)) ∧
    WritesScalar (.ssraImm d a n) s d (BitVec.ofInt 64 (x.toInt / 2 ^ n.toNat)) ∧
    WritesScalar (.sli d i) s d y ∧
    (∀ w, s.me.hLimm = some w →
      WritesScalar (.sliHi d) s d (BitVec.ofNat 64 (w.toNat * 2 ^ 32 + (s.sreg d.toNat).toNat % 2 ^ 32))) ∧
    WritesScalar (.smadd d a b c) s d (x * s.sreg b.toNat + s.sreg c.toNat) ∧
    (sx = 0 → WritesScalar (.sbfx d a p l sx) s d (BitVec.ofNat 64 (x.toNat / 2 ^ p.toNat % 2 ^ (l.toNat + 1)))) ∧
    (sx = 1 → ∃ v : Int, WritesScalar (.sbfx d a p l sx) s d (BitVec.ofInt 64 v) ∧
      -(2 ^ l.toNat) ≤ v ∧ v < 2 ^ l.toNat ∧
      (2 ^ (l.toNat + 1) : Int) ∣ v - ((x.toNat / 2 ^ p.toNat % 2 ^ (l.toNat + 1) : Nat) : Int)) ∧
    (∃ v : DWord, WritesScalar (.sbfi d a p l) s d v ∧
      ∀ k, k < 64 → p.toNat + l.toNat < 64 →
        v.getLsbD k = if p.toNat ≤ k ∧ k ≤ p.toNat + l.toNat then x.getLsbD (k - p.toNat) else (s.sreg d.toNat).getLsbD k) ∧
    (s.issuing = true →
      let illegal := fun (j : Instr) => exec j s = .next (s.take 0x01 0)
      (64 ≤ p.toNat + l.toNat → illegal (.sbfx d a p l sx) ∧ illegal (.sbfi d a p l)) ∧
      (s.me.hLimm = none → illegal (.sliHi d)) ∧
      (s.me.hLimm.isSome → illegal (.sshlImm d a n) ∧ illegal (.sshrImm d a n) ∧ illegal (.ssraImm d a n) ∧
        illegal (.sbfx d a p l sx) ∧ illegal (.sbfi d a p l)))) ∧
  (∀ (w : Word) (rest : List Word),
    let m := w.toNat / 2 ^ 25
    (0x35 ≤ m ∧ m ≤ 0x37 ∧ w.toNat / 2 ^ 6 % 2 ^ 7 ≠ 0) ∨ (m = 0x38 ∧ w.toNat / 2 ^ 13 % 2 ^ 6 ≠ 0) ∨
      (m = 0x39 ∧ w.toNat % 2 ^ 19 ≠ 0) ∨ (m = 0x3C ∧ w.toNat % 2 ≠ 0) → ∃ e, decode (w :: rest) = .error e) ∧
  decode [0x700800F0] = .ok (.sli 1 0xF0, 1) ∧ decode [0x76202417] = .ok (.sbfx 4 1 8 11 1, 1)

/-- R166, R202: the predicate operations, lane by lane below W; `PMOV.TS` and `VBALLOT` write a scalar register; the votes give 1 or 0
to a scalar register and to the active lanes' bits of a predicate.
The model's choice in it: log 29. -/
def Obligations.PredicateOperations : Prop :=
  ∀ (s : State) (d a b : PReg) (r : SReg),
    WritesPredicate (.pand d a b) s d (s.preg a.toNat &&& s.preg b.toNat) ∧
    WritesPredicate (.por d a b) s d (s.preg a.toNat ||| s.preg b.toNat) ∧
    WritesPredicate (.pxor d a b) s d (s.preg a.toNat ^^^ s.preg b.toNat) ∧
    WritesPredicate (.pnot d a) s d (~~~(s.preg a.toNat)) ∧
    WritesPredicate (.pmov d a) s d (s.preg a.toNat) ∧
    WritesPredicate (.pmovFs d r) s d (s.sreg r.toNat) ∧
    WritesScalar (.pmovTs a r) s r (s.preg a.toNat) ∧
    WritesScalar (.vballot r a) s r (s.preg a.toNat &&& s.me.mask) ∧
    (∀ (sd : SReg) (p : PReg),
      let a := s.preg p.toNat &&& s.me.mask
      let vote := fun (i : Instr) (yes : Prop) => s.goes i → ∀ r : Bool, (r = true ↔ yes) → Completes i s (fun t =>
        Quiet s t ∧
        (t.fib s.actor).regs = { s.me.regs with
          s := Tbl.set s.me.s sd.toNat (if r then 1 else 0)
          p := Tbl.set s.me.p d.toNat
            (((s.preg d.toNat &&& ~~~s.me.mask) ||| (if r then s.me.mask else 0)) &&& fullMask s.width) })
      vote (.vvoteAny sd d p) (a ≠ 0) ∧
      vote (.vvoteAll sd d p) (a = s.me.mask) ∧
      vote (.vvoteEq sd d p) (a = 0 ∨ a = s.me.mask))

-- Issue units, hint words, branches --------------------------------------------------------------------------------------

/-- R42-R45: ending an issue unit moves the fibre to the next word or the next header, and changes no register and nothing else.
A `MOD` or `LIMM` word is held for the instruction after it and does nothing else; a second one is illegal.
The model's choice in it: log 4. -/
def Obligations.UnitEndsAndHintWords : Prop :=
  (∀ s : State, Quiet s s.retire ∧ (∀ r, (s.retire.fib r).regs = (s.fib r).regs) ∧ s.advanced s.retire ∧
    (∀ c, s.me.clause = some c → s.me.idx + 1 < c.words.length → (s.retire.fib s.actor).t = s.me.t) ∧
    (s.goes .nop → exec .nop s = .next s.retire)) ∧
  (∀ (s : State) (m : BitVec 3) (st : BitVec 2) (c o l t : BitVec 3) (w : Word), s.issuing = true →
    (wellFormed (.mod m st c o l t) = true → s.me.hMod = none → s.me.hLimm = none →
      exec (.mod m st c o l t) s = .next (s.setMe { s.me with
        hMod := (encode (.mod m st c o l t)).head?, idx := s.me.idx + 1, wait := false })) ∧
    (s.me.hLimm = none →
      exec (.limm w) s = .next (s.setMe { s.me with hLimm := some w, idx := s.me.idx + 2, wait := false })) ∧
    (wellFormed (.mod m st c o l t) = false ∨ s.me.hMod.isSome ∨ s.me.hLimm.isSome →
      exec (.mod m st c o l t) s = .next (s.take 0x01 0)) ∧
    (s.me.hLimm.isSome → exec (.limm w) s = .next (s.take 0x01 0)))

/-- R157: branches and calls. The offset counts words from the branch and is the sign-extended field or the `LIMM` word.
The model's choice in it: log 26. -/
def Obligations.BranchesAndCalls : Prop :=
  ∀ (s : State) (r : SReg) (p : PReg) (o : BitVec 16),
    let off : DWord := (match s.me.hLimm with | some w => w.signExtend 64 | none => o.signExtend 64) * 4
    let pc := s.me.wordPc
    let x := s.sreg r.toNat
    let g := s.me.regs
    Branches (.bra o) s true (pc + off) g ∧
    Branches (.braZ r o) s (decide (x = 0)) (pc + off) g ∧
    Branches (.braNz r o) s (decide (x ≠ 0)) (pc + off) g ∧
    Branches (.braLt r o) s (decide (x.toInt < 0)) (pc + off) g ∧
    Branches (.braGe r o) s (decide (0 ≤ x.toInt)) (pc + off) g ∧
    Branches (.braAll p o) s (decide (s.preg p.toNat &&& s.me.mask = s.me.mask)) (pc + off) g ∧
    Branches (.braAny p o) s (decide (s.preg p.toNat &&& s.me.mask ≠ 0)) (pc + off) g ∧
    Branches (.call r o) s true (pc + off) { g with s := Tbl.set g.s r.toNat (pc + 4) } ∧
    Branches (.brx r o) s true (x + off) g ∧
    Branches (.ret r) s true x g

-- Fibres ------------------------------------------------------------------------------------------------------------------

/-- R155: the lanes of the fibre whose predicate (or its negation) is set go to the target as a new fibre with the same
registers, the others to the next header; with every lane or no lane selected the fibre moves whole. -/
def Obligations.DivergenceSplitsLanes : Prop :=
  ∀ (s : State) (n : BitVec 1) (p : PReg) (o : BitVec 16), s.goes (.brp n p o) →
    let q := if n = 0 then s.preg p.toNat else ~~~(s.preg p.toNat)
    let t1 := s.me.mask &&& q
    let tgt := s.me.wordPc + s.offset o
    (t1 = s.me.mask → tgt.toNat % 4 = 0 → Completes (.brp n p o) s (fun t =>
      Quiet s t ∧ (t.fib s.actor).regs = s.me.regs ∧ t.standsAt s.actor tgt .header)) ∧
    (t1 = 0 → t1 ≠ s.me.mask → Completes (.brp n p o) s (fun t =>
      Quiet s t ∧ (t.fib s.actor).regs = s.me.regs ∧ t.standsAt s.actor s.nextHeader .header)) ∧
    (∀ k, t1 ≠ 0 → t1 ≠ s.me.mask → tgt.toNat % 4 = 0 → s.freeRecord s.actor.wg s.actor.slot = some k →
      Completes (.brp n p o) s (fun t =>
        Still s t ∧ (t.fib s.actor).regs = { s.me.regs with mask := s.me.mask &&& ~~~t1 } ∧
        t.standsAt s.actor s.nextHeader .header ∧
        (t.fib { s.actor with idx := k }).regs = { s.me.regs with mask := t1, fsel := BitVec.ofNat 4 k } ∧
        t.startsAt { s.actor with idx := k } tgt)) ∧
    (t1 ≠ 0 → t1 ≠ s.me.mask → tgt.toNat % 4 = 0 → s.freeRecord s.actor.wg s.actor.slot = none →
      exec (.brp n p o) s = .next (s.take 0x07 0))

/-- R149: `FORK` makes a fibre in the lowest absent record, with the lanes of a predicate and a window base of its own; both
fibres learn of each other in s[SD]. -/
def Obligations.ForkMakesAFibre : Prop :=
  ∀ (s : State) (d t w : SReg) (p : PReg), s.goes (.fork d t w p) →
    let m := s.preg p.toNat
    let b := (s.sreg w.toNat).toNat
    let a := s.sreg t.toNat
    (∀ k, m ≠ 0 → b < s.myWg.regs → a.toNat % 4 = 0 → s.freeRecord s.actor.wg s.actor.slot = some k →
      Completes (.fork d t w p) s (fun u =>
        Still s u ∧ (u.fib s.actor).regs = { s.me.regs with s := Tbl.set s.me.s d.toNat (BitVec.ofNat 64 k) } ∧
        s.advanced u ∧
        (u.fib { s.actor with idx := k }).regs = { s.me.regs with
          s := Tbl.set s.me.s d.toNat (BitVec.ofNat 64 (2 ^ 63 + s.actor.idx)), mask := m, base := BitVec.ofNat 10 b
          sticky := 0, fsel := BitVec.ofNat 4 k, fsplit := 0 } ∧
        u.startsAt { s.actor with idx := k } a)) ∧
    (m = 0 ∨ s.myWg.regs ≤ b ∨ a.toNat % 4 ≠ 0 → exec (.fork d t w p) s = .next (s.take 0x09 0)) ∧
    (m ≠ 0 → b < s.myWg.regs → a.toNat % 4 = 0 → s.freeRecord s.actor.wg s.actor.slot = none →
      exec (.fork d t w p) s = .next (s.take 0x07 0))

/-- R156: `JSET` readies an idle rejoin register; the register gathers the lanes it expects; `JOIN` ends the fibre, `WAITJ` blocks it
until every expected lane is there, and then it goes on with all of them, unless a debugger halted it. A busy register, another window, lanes that are not expected and
a second waiter raise cause 0x08 with the register's number.
The model's choice in it: log 25. -/
def Obligations.RejoinGathersLanes : Prop :=
  ∀ (s : State) (j : BitVec 4),
    let x := s.rejoin s.actor.wg s.actor.slot j.toNat
    let may := s.me.base = x.base ∧ s.me.mask &&& ~~~(x.expected &&& ~~~x.arrived) = 0
    (s.goes (.jset j) → x.arrived = 0 → x.waiter = none → Completes (.jset j) s (fun t =>
      Still s t ∧ s.advanced t ∧ (t.fib s.actor).regs = s.me.regs ∧
      t.rejoin s.actor.wg s.actor.slot j.toNat = { Rejoin.idle with expected := s.me.mask, base := s.me.base })) ∧
    (s.goes (.jset j) → x.arrived ≠ 0 ∨ x.waiter.isSome → exec (.jset j) s = .next (s.take 0x08 j.toNat)) ∧
    (s.goes (.join j) → may →
      let all := ∃ i, i ≠ s.actor.idx ∧ x.waiter = some i ∧ (s.fib { s.actor with idx := i }).blk = .waitj j.toNat ∧
        (s.fib { s.actor with idx := i }).dbg ≠ .halted ∧ x.arrived ||| s.me.mask = x.expected
      (¬all → x.waiter ≠ some s.actor.idx → Completes (.join j) s (fun t =>
        (∀ a, t.hbm a = s.hbm a) ∧ (t.fib s.actor).st = .absent ∧
        (t.rejoin s.actor.wg s.actor.slot j.toNat).arrived = x.arrived ||| s.me.mask ∧
        (t.rejoin s.actor.wg s.actor.slot j.toNat).waiter = x.waiter ∧
        (t.rejoin s.actor.wg s.actor.slot j.toNat).sticky = x.sticky ||| s.me.sticky)) ∧
      (all → Completes (.join j) s (fun t =>
        (∀ a, t.hbm a = s.hbm a) ∧ (t.fib s.actor).st = .absent ∧
        (t.rejoin s.actor.wg s.actor.slot j.toNat).arrived = 0 ∧ (t.rejoin s.actor.wg s.actor.slot j.toNat).waiter = none ∧
        ∀ i, x.waiter = some i → (t.fib { s.actor with idx := i }).blk = .header ∧
          (t.fib { s.actor with idx := i }).mask = x.expected ∧
          (t.fib { s.actor with idx := i }).sticky = (s.fib { s.actor with idx := i }).sticky ||| (x.sticky ||| s.me.sticky)))) ∧
    (s.goes (.join j) → ¬may → exec (.join j) s = .next (s.take 0x08 j.toNat)) ∧
    (s.goes (.waitj j) → ¬may ∨ x.waiter.isSome → exec (.waitj j) s = .next (s.take 0x08 j.toNat)) ∧
    (s.goes (.waitj j) → may → x.waiter = none → s.me.doomed = false → x.arrived ||| s.me.mask ≠ x.expected →
      Completes (.waitj j) s (fun t =>
        Still s t ∧ t.standsAt s.actor s.nextHeader (.waitj j.toNat) ∧ (t.fib s.actor).regs = s.me.regs ∧
        (t.rejoin s.actor.wg s.actor.slot j.toNat).waiter = some s.actor.idx ∧
        (t.rejoin s.actor.wg s.actor.slot j.toNat).arrived = x.arrived ||| s.me.mask)) ∧
    (s.goes (.waitj j) → may → x.waiter = none → s.me.doomed = false → x.arrived ||| s.me.mask = x.expected →
      Completes (.waitj j) s (fun t =>
        Still s t ∧ t.standsAt s.actor s.nextHeader .header ∧ (t.fib s.actor).mask = x.expected ∧
        (t.fib s.actor).sticky = s.me.sticky ||| (x.sticky ||| s.me.sticky) ∧
        (t.rejoin s.actor.wg s.actor.slot j.toNat).arrived = 0 ∧ (t.rejoin s.actor.wg s.actor.slot j.toNat).waiter = none)) ∧
    (∀ (g k i : Nat),
      let y := s.rejoin g k j.toNat
      s.isSaved g = false → y.waiter = some i → y.arrived = y.expected →
      (s.fib { wg := g, slot := k, idx := i }).blk = .waitj j.toNat →
      ((s.fib { wg := g, slot := k, idx := i }).dbg = .halted → exec (.rejoinRelease g k j) s = .next s) ∧
      ((s.fib { wg := g, slot := k, idx := i }).dbg ≠ .halted → Completes (.rejoinRelease g k j) s (fun t =>
        Still s t ∧ (t.fib { wg := g, slot := k, idx := i }).blk = .header ∧
        (t.fib { wg := g, slot := k, idx := i }).mask = y.expected ∧
        (t.rejoin g k j.toNat).arrived = 0 ∧ (t.rejoin g k j.toNat).waiter = none)))

/-- R150, R151, R169: `FEND` blocks the fibre to end. `EXIT` ends every fibre of its slot: the issuing one as by `FEND`, one inside a
clause at its next boundary, any other where it stands. A fibre with an asynchronous fault pending freezes at either instead, before
the instruction. With its flags zero an ending fibre leaves the expected lanes of its slot's rejoin registers, its record becomes
absent, and with the slot's last record the slot is free. R152: `FYIELD` ends the clause and marks the fibre to yield at the header.
R153: `FSTAT` reads the lane mask, the PC or the state word of a fibre of the slot, and 0 for an absent record.
The model's choice in it: log 25, 28. -/
def Obligations.FibresEndYieldAndAreRead : Prop :=
  (∀ s : State,
    let ends := fun (t : State) (r : FRef) => (t.fib r).st = .blocked ∧ (t.fib r).blk = .ending
    let same := fun (t : State) => (∀ a, t.hbm a = s.hbm a) ∧ (∀ g o, t.pad g o = s.pad g o) ∧
      (∀ g k n, t.vreg g k n = s.vreg g k n) ∧ ∀ r, { (t.fib r).regs with sticky := 0 } = { (s.fib r).regs with sticky := 0 }
    let stops := fun (t : State) => same t ∧ (t.fib s.actor).st = .frozen ∧ ∃ fr e, (t.fib s.actor).fault = some fr ∧
      e ∈ s.me.pend ∧ fr.async = true ∧ fr.cause = e.rec'.cause ∧ fr.pc = s.me.unitPc
    (s.goes .fend → (s.me.pend = [] → Completes .fend s (fun t => same t ∧ ends t s.actor)) ∧
      (s.me.pend ≠ [] → Completes .fend s stops)) ∧
    (s.goes .exit →
      (s.me.pend = [] → Completes .exit s (fun t => same t ∧ ends t s.actor ∧
        ∀ r, r ∈ slotRefs s.actor.wg s.actor.slot → r ≠ s.actor → (s.fib r).st ≠ .absent → (t.fib r).doomed = true ∧
          ((s.fib r).st = .ready ∧ (s.fib r).inside = true ∧ (s.fib r).dbg ≠ .halted → (t.fib r).st = .ready) ∧
          (¬((s.fib r).st = .ready ∧ (s.fib r).inside = true ∧ (s.fib r).dbg ≠ .halted) → ends t r))) ∧
      (s.me.pend ≠ [] → Completes .exit s stops)) ∧
    (∀ c, s.goes .nop → s.me.doomed = true → s.me.clause = some c → c.words.length ≤ s.me.idx + 1 →
      Completes .nop s (fun t => same t ∧ ends t s.actor)) ∧
    (s.goes .fyield → Completes .fyield s (fun t =>
      Quiet s t ∧ (t.fib s.actor).regs = s.me.regs ∧ (t.fib s.actor).yield = true ∧
      t.standsAt s.actor s.nextHeader .header)) ∧
    (∀ r : FRef, s.isSaved r.wg = false → ends s r → (s.fib r).doomed = true ∨ (s.fib r).pend = [] →
      (s.fib r).dbg ≠ .halted → s.flagsZero r = true →
      Completes (.fibreEndComplete r) s (fun t => (∀ a, t.hbm a = s.hbm a) ∧ (t.fib r).st = .absent ∧ (t.fib r).sticky = 0 ∧
        (∀ j, let x := s.rejoin r.wg r.slot j
          x.waiter = none ∨ x.waiter = some r.idx → (t.rejoin r.wg r.slot j).expected =
            x.expected &&& ~~~((s.fib r).mask &&& x.expected &&& ~~~x.arrived)) ∧
        ((∀ q, q ∈ slotRefs r.wg r.slot → q ≠ r → (s.fib q).st = .absent) → (t.slot r.wg r.slot).freed = true)))) ∧
  (∀ (s : State) (d k : SReg),
    let n := (s.sreg k.toNat).toNat
    let r : FRef := { s.actor with idx := n }
    let f := s.fib r
    (8 < n ∨ f.st = .absent →
      WritesScalar (.fstatMask d k) s d 0 ∧ WritesScalar (.fstatPc d k) s d 0 ∧ WritesScalar (.fstatInfo d k) s d 0) ∧
    (n ≤ 8 → f.st ≠ .absent →
      WritesScalar (.fstatMask d k) s d f.mask ∧
      (∀ fr, f.st = .frozen ∨ f.dbg = .halted → f.fault = some fr → WritesScalar (.fstatPc d k) s d fr.pc) ∧
      (f.st ≠ .frozen → f.dbg ≠ .halted → WritesScalar (.fstatPc d k) s d
        (if f.inside = true then (match f.clause with
          | some c => c.wordAddr f.unit0 | none => f.pc + BitVec.ofNat 64 (4 * (f.lead + f.unit0))) else f.pc)) ∧
      (∀ code : Nat,
        (f.st = .frozen ∨ f.dbg = .halted → code = 3) →
        (f.st ≠ .frozen → f.dbg ≠ .halted →
          (r = s.actor → code = 4) ∧
          (r ≠ s.actor → f.st = .blocked ∨ f.wait = true → code = 2) ∧
          (r ≠ s.actor → f.st ≠ .blocked → f.wait = false → code = if s.mySlot.cur = n then 4 else 1)) →
        WritesScalar (.fstatInfo d k) s d (BitVec.ofNat 64 (code + f.base.toNat * 2 ^ 16 +
          (match f.fault with | some x => x.cause.toNat | none => 0) * 2 ^ 32)))))

/-- R160: `FSYNC` and `FSYNC.M` block the fibre with the set; a set without the fibre, or with a bit above 7, raises cause 0x09, and
one that differs from a waiting fibre's set cause 0x06. With every fibre of the set waiting, none of them halted, the release lets them all go: a fibre of
`FSYNC` as it is, those of `FSYNC.M` merged, without losing a lane or a sticky flag, the survivors keeping their registers. Two of
`FSYNC.M` merge where they stand at one word with one window base and disjoint lanes.
The model's choice in it: log 25, 31. -/
def Obligations.FibreSynchronisation : Prop :=
  ∀ s : State,
    (∀ (a : SReg),
      let w := s.sreg a.toNat
      let set : BitVec 8 := w.setWidth 8
      let ok := s.actor.idx < 8 ∧ set.getLsbD s.actor.idx = true ∧ w.toNat < 256
      let same := ∀ k, k < 8 → set.getLsbD k = true → ∀ q m v, (s.fib { s.actor with idx := k }).blk = .fsync q m v → q = set
      (s.goes (.fsync a) → ok → same → Completes (.fsync a) s (fun t =>
        Quiet s t ∧ (t.fib s.actor).regs = s.me.regs ∧
        t.standsAt s.actor s.nextHeader (.fsync set false s.me.wordPc))) ∧
      (s.goes (.fsyncM a) → ok → same → Completes (.fsyncM a) s (fun t =>
        Quiet s t ∧ (t.fib s.actor).regs = s.me.regs ∧
        t.standsAt s.actor s.nextHeader (.fsync set true s.me.wordPc))) ∧
      (s.goes (.fsync a) → ¬ok → exec (.fsync a) s = .next (s.take 0x09 0)) ∧
      (s.goes (.fsync a) → ok → ¬same → exec (.fsync a) s = .next (s.take 0x06 3)) ∧
      (s.goes (.fsyncM a) → ¬ok → exec (.fsyncM a) s = .next (s.take 0x09 0)) ∧
      (s.goes (.fsyncM a) → ok → ¬same → exec (.fsyncM a) s = .next (s.take 0x06 3))) ∧
    (∀ (g k : Nat) (set : BitVec 8),
      let mem := fun (r : FRef) => r.wg = g ∧ r.slot = k ∧ r.idx < 8 ∧ set.getLsbD r.idx = true
      s.isSaved g = false → (∃ r, mem r ∧ (s.fib r).st ≠ .absent) →
      (∀ r, mem r → (s.fib r).st ≠ .absent →
        (∃ m w, (s.fib r).blk = .fsync set m w) ∧ s.earlierDone r (s.fib r).mark 0xFF .slot false = true) →
      ((∃ r, mem r ∧ (s.fib r).st ≠ .absent ∧ ((s.fib r).st = .frozen ∨ (s.fib r).dbg = .halted)) →
        exec (.fsyncRelease g k set) s = .next s) ∧
      ((∀ r, mem r → (s.fib r).st ≠ .frozen ∧ (s.fib r).dbg ≠ .halted) → Completes (.fsyncRelease g k set) s (fun t =>
        (∀ a, t.hbm a = s.hbm a) ∧
        (∀ r, mem r → (s.fib r).st ≠ .absent → (t.fib r).blk = .header ∨ (t.fib r).st = .absent) ∧
        (∀ r w, mem r → (s.fib r).st ≠ .absent → (s.fib r).blk = .fsync set false w →
          (t.fib r).blk = .header ∧ (t.fib r).mask = (s.fib r).mask) ∧
        (∀ r, mem r → (t.fib r).st ≠ .absent →
          (t.fib r).s = (s.fib r).s ∧ (t.fib r).p = (s.fib r).p ∧ (t.fib r).q = (s.fib r).q ∧ (t.fib r).base = (s.fib r).base) ∧
        (∀ l : Nat, (∃ r, mem r ∧ (s.fib r).st ≠ .absent ∧ (s.fib r).mask.getLsbD l = true) ↔
          (∃ r, mem r ∧ (t.fib r).st ≠ .absent ∧ (t.fib r).mask.getLsbD l = true)) ∧
        (∀ (r : FRef) (l : Nat), mem r → (s.fib r).st ≠ .absent → (s.fib r).sticky.getLsbD l = true →
          ∃ q, mem q ∧ (t.fib q).st ≠ .absent ∧ (t.fib q).sticky.getLsbD l = true) ∧
        (∀ r q u w, mem r → mem q → r.idx < q.idx → (∀ z, mem z → (s.fib z).st ≠ .absent → z = r ∨ z = q) →
          (s.fib r).st ≠ .absent → (s.fib q).st ≠ .absent →
          (s.fib r).blk = .fsync set true u → (s.fib q).blk = .fsync set true w →
          let one := u = w ∧ (s.fib r).base = (s.fib q).base ∧ (s.fib r).mask &&& (s.fib q).mask = 0
          (one → (t.fib r).mask = (s.fib r).mask ||| (s.fib q).mask ∧ (t.fib q).st = .absent) ∧
          (¬one → (t.fib r).mask = (s.fib r).mask ∧ (t.fib q).mask = (s.fib q).mask ∧ (t.fib q).blk = .header)))))

/-- R172: the forms of `FRESUME` make a frozen fibre of the slot ready where its fault record says, with its temporaries where it froze
inside a clause, ready at another header without them, or end it, once the issuing fibre's earlier accesses are performed at its slot; a
number that names no frozen fibre, and a PC that is not 4-aligned, raise cause 0x09 with the number.
The model's choice in it: log 24. -/
def Obligations.FrozenFibresResume : Prop :=
  ∀ (s : State) (k p : SReg),
    let n := (s.sreg k.toNat).toNat
    let r : FRef := { s.actor with idx := n }
    let f := s.fib r
    let ready := s.earlierDone s.actor s.nextId 0xFF .slot false = true
    (n ≤ 8 → f.st = .frozen → ready →
      (s.goes (.fresume k) → Completes (.fresume k) s (fun t =>
        (∀ a, t.hbm a = s.hbm a) ∧ (t.fib r).regs = f.regs ∧ s.advanced t ∧
        (f.inside = true → (t.fib r).st = .ready ∧ (t.fib r).clause = f.clause ∧ (t.fib r).t = f.t) ∧
        (∀ fr, f.inside = false → f.fault = some fr → f.doomed = false → f.dbg = .run → (t.fib r).st = .ready ∧
          (t.fib r).blk = .header ∧ (t.fib r).clause = none ∧ (t.fib r).fence = f.fence ∧
          (fr.cause ≠ 0x50 ∨ (∀ fe, f.fence = some fe → fe.pc ≠ fr.pc) → (t.fib r).pc = fr.pc) ∧
          (∀ fe, f.fence = some fe → fr.cause = 0x50 → fr.pc = fe.pc → (t.fib r).pc = f.pc)))) ∧
      (s.goes (.fresumePc k p) → (s.sreg p.toNat).toNat % 4 = 0 → Completes (.fresumePc k p) s (fun t =>
        (∀ a, t.hbm a = s.hbm a) ∧ (t.fib r).regs = f.regs ∧ s.advanced t ∧
        (f.doomed = false → f.dbg = .run → t.startsAt r (s.sreg p.toNat)))) ∧
      (s.goes (.fresumeEnd k) → Completes (.fresumeEnd k) s (fun t =>
        (∀ a, t.hbm a = s.hbm a) ∧ (t.fib r).st = .blocked ∧ (t.fib r).blk = .ending))) ∧
    (n ≤ 8 → f.st = .frozen → s.goes (.fresumePc k p) → (s.sreg p.toNat).toNat % 4 ≠ 0 →
      exec (.fresumePc k p) s = .next (s.take 0x09 n)) ∧
    (n ≤ 8 → f.st = .frozen → ¬ready →
      (s.goes (.fresume k) → exec (.fresume k) s = .next s.waitHere) ∧
      (s.goes (.fresumePc k p) → (s.sreg p.toNat).toNat % 4 = 0 → exec (.fresumePc k p) s = .next s.waitHere) ∧
      (s.goes (.fresumeEnd k) → exec (.fresumeEnd k) s = .next s.waitHere)) ∧
    (8 < n ∨ f.st ≠ .frozen →
      (s.goes (.fresume k) → exec (.fresume k) s = .next (s.take 0x09 n)) ∧
      (s.goes (.fresumePc k p) → exec (.fresumePc k p) s = .next (s.take 0x09 n)) ∧
      (s.goes (.fresumeEnd k) → exec (.fresumeEnd k) s = .next (s.take 0x09 n)))

-- Barriers, flags, traps, system registers, code --------------------------------------------------------------------------

/-- R158, R159: each barrier instruction registers its arrival or blocks at the next header; a handler fibre and a wrong order
raise cause 0x06 with their reason. When every party has arrived and none is frozen or halted the phase advances, and the parties that
wait go on at their headers; until then nothing happens.
The model's choice in it: log 25. -/
def Obligations.BarriersArriveAndRelease : Prop :=
  (∀ s : State,
    let h := s.nextHeader
    let r := s.actor
    let keep := fun (t : State) => Quiet s t ∧ (t.fib r).regs = s.me.regs
    (s.goes .barWg → r.idx ≠ 8 → s.me.doomed = false → Completes .barWg s (fun t =>
      keep t ∧ t.standsAt r h (.barWg s.myWg.phase) ∧ (t.fib r).mark = s.nextId)) ∧
    (s.goes .barGrid → r.idx ≠ 8 → (s.launchOf r.wg).gridbar = true → s.me.doomed = false → Completes .barGrid s (fun t =>
      keep t ∧ t.standsAt r h (.barGrid (s.grid s.myWg.grid).phase) ∧ (t.fib r).mark = s.nextId)) ∧
    (s.goes .barCa → r.idx ≠ 8 → s.me.ca = none → Completes .barCa s (fun t =>
      keep t ∧ s.advanced t ∧ (t.fib r).ca = some ((s.cluster s.myWg.cluster).phase, s.nextId))) ∧
    (∀ p m, s.goes .barCw → r.idx ≠ 8 → s.me.ca = some (p, m) → s.me.doomed = false →
      (p < (s.cluster s.myWg.cluster).phase → Completes .barCw s (fun t =>
        keep t ∧ t.standsAt r h .header ∧ (t.fib r).ca = none)) ∧
      ((s.cluster s.myWg.cluster).phase ≤ p → Completes .barCw s (fun t =>
        keep t ∧ t.standsAt r h .barCw ∧ (t.fib r).ca = some (p, m)))) ∧
    (s.goes .barWg → r.idx = 8 → exec .barWg s = .next (s.take 0x06 0)) ∧
    (s.goes .barGrid → r.idx = 8 ∨ (s.launchOf r.wg).gridbar = false → exec .barGrid s = .next (s.take 0x06 0)) ∧
    (s.goes .barCa → r.idx = 8 ∨ s.me.ca.isSome → exec .barCa s = .next (s.take 0x06 1)) ∧
    (s.goes .barCw → r.idx = 8 ∨ s.me.ca = none → exec .barCw s = .next (s.take 0x06 2))) ∧
  (∀ (s : State) (k : BarKind) (id : Nat),
    s.parties k id ≠ [] → (∀ r, r ∈ s.parties k id → s.isSaved r.wg = false ∧ s.hasArrived k id r = true ∧
      (s.fib r).st ≠ .frozen ∧ (s.fib r).dbg ≠ .halted) →
    (k = .grid → ∀ c, c ∈ (s.grid id).clusters → (s.cluster c).place ≠ .pending) →
    Completes (.barrierRelease k id) s (fun t =>
      (∀ a, t.hbm a = s.hbm a) ∧ (∀ r, (t.fib r).regs = (s.fib r).regs) ∧
      (match k with
       | .workgroup => (t.wg id).phase = (s.wg id).phase + 1
       | .cluster => (t.cluster id).phase = (s.cluster id).phase + 1
       | .grid => (t.grid id).phase = (s.grid id).phase + 1) ∧
      (∀ r, r ∈ s.parties k id → k ≠ .cluster ∨ (s.fib r).blk = .barCw → (t.fib r).blk = .header) ∧
      (k = .cluster → ∀ r, r ∈ s.parties k id → (t.fib r).ca = if (s.fib r).blk = .barCw then none else (s.fib r).ca))) ∧
  (∀ (s : State) (k : BarKind) (id : Nat),
    s.parties k id = [] ∨ (∃ r, r ∈ s.parties k id ∧ (s.isSaved r.wg = true ∨ s.hasArrived k id r = false ∨
        (s.fib r).st = .frozen ∨ (s.fib r).dbg = .halted)) ∨
      (k = .grid ∧ ∃ c, c ∈ (s.grid id).clusters ∧ (s.cluster c).place = .pending) →
    exec (.barrierRelease k id) s = .next s)

/-- R162: `WAITF` goes on when the named flags are zero and else waits in place; with an asynchronous fault on a named flag pending the
fibre freezes instead (R169). `SETF` adds one to each named flag, or waits where one would exceed 63. `CLRF` waits for the fibre's earlier
accesses and then takes the oldest token of the fibre's lanes from each named flag and nothing else. A mask of zero is reserved. -/
def Obligations.CompletionFlags : Prop :=
  (wellFormed (.waitf 0) = false ∧ wellFormed (.setf 0) = false ∧ wellFormed (.clrf 0) = false) ∧
  ∀ (s : State) (m : BitVec 12),
    let g := s.actor
    let keep := fun (t : State) => Still s t ∧ (t.fib g).regs = s.me.regs ∧ s.advanced t
    let val := fun (t : State) (n : Nat) => t.flagval g.wg g.slot n s.me.mask
    let token := fun (n : Nat) (o : Op) => o.kind = .token ∧ ∃ c, c ∈ o.counts ∧ c.wg = g.wg ∧ c.slot = g.slot ∧ c.flag = some n ∧
      c.lanes &&& s.me.mask ≠ 0
    (s.goes (.waitf m) → s.me.pendOn m = false →
      ((∀ n, n < 12 → m.getLsbD n = true → val s n = 0) → Completes (.waitf m) s (fun t => Quiet s t ∧ keep t)) ∧
      ((∃ n, n < 12 ∧ m.getLsbD n = true ∧ val s n ≠ 0) → exec (.waitf m) s = .next s.waitHere)) ∧
    (s.goes (.waitf m) → (∃ e n, e ∈ s.me.pend ∧ e.flag = some n ∧ m.getLsbD n = true) → Completes (.waitf m) s (fun t =>
      (∀ a, t.hbm a = s.hbm a) ∧ (t.fib g).st = .frozen ∧ ∃ fr e, (t.fib g).fault = some fr ∧ e ∈ s.me.pend ∧
        fr.async = true ∧ fr.cause = e.rec'.cause ∧ fr.pc = s.me.unitPc)) ∧
    (s.goes (.setf m) → s.me.mask ≠ 0 →
      ((∀ n, n < 12 → m.getLsbD n = true → val s n < 63) → Completes (.setf m) s (fun t => keep t ∧
        (∀ n, n < 12 → val t n = val s n + (if m.getLsbD n then 1 else 0)) ∧
        ∀ n, n < 12 → m.getLsbD n = true → ∃ o, o ∈ t.ops ∧ s.nextId ≤ o.id ∧ token n o)) ∧
      ((∃ n, n < 12 ∧ m.getLsbD n = true ∧ 63 ≤ val s n) → exec (.setf m) s = .next s.waitHere)) ∧
    (s.goes (.clrf m) →
      (s.earlierDone g s.nextId 0xFF .slot false = false → exec (.clrf m) s = .next s.waitHere) ∧
      (s.earlierDone g s.nextId 0xFF .slot false = true → List.Pairwise (fun x y => x.id < y.id) s.ops →
        Completes (.clrf m) s (fun t => keep t ∧ ∀ o, o ∈ t.ops ↔ o ∈ s.ops ∧ ¬∃ n, n < 12 ∧ m.getLsbD n = true ∧ token n o ∧
          ∀ x, x ∈ s.ops → token n x → o.id ≤ x.id)))

/-- R173: `TRAP` freezes the fibre after itself with cause 0x0A and its code; `BRK` with cause 0x0B, or halts it where debugging is
enabled for its context. Neither ends its clause, and a set reserved bit is illegal. -/
def Obligations.TrapsAndBreaks : Prop :=
  (∀ (w : Word) (rest : List Word), w.toNat / 2 ^ 25 = 0x09 → w.toNat / 2 ^ 16 % 2 ^ 6 ≠ 0 → ∃ e, decode (w :: rest) = .error e) ∧
  ∀ (s : State) (c : BitVec 16),
    let pc := s.me.wordPc + 4
    let keep := fun (t : State) => (∀ a, t.hbm a = s.hbm a) ∧ (t.fib s.actor).regs = s.me.regs ∧
      ∀ x, s.me.clause = some x → s.me.idx + 1 < x.words.length →
        ((∀ e, e ∈ s.mySlot.cbuf → e.dead = false) → (t.fib s.actor).clause = some x) ∧ (t.fib s.actor).idx = s.me.idx + 1 ∧ (t.fib s.actor).unit0 = s.me.idx + 1 ∧
        (t.fib s.actor).inside = s.me.inside
    (s.goes (.trap c) → Completes (.trap c) s (fun t => keep t ∧ t.frozenWith s.actor 0x0A c.toNat pc)) ∧
    (s.goes (.brk c) → s.myCtx.dbgctl.getLsbD 0 = false → Completes (.brk c) s (fun t =>
      keep t ∧ t.frozenWith s.actor 0x0B c.toNat pc)) ∧
    (s.goes (.brk c) → s.myCtx.dbgctl.getLsbD 0 = true → Completes (.brk c) s (fun t =>
      keep t ∧ (t.fib s.actor).dbg = .halted ∧ ∃ fr, (t.fib s.actor).fault = some fr ∧ fr.cause = 0x71 ∧
        fr.detail = BitVec.ofNat 47 (0x10000 + c.toNat) ∧ fr.pc = pc))

/-- R17, R167, R168, R376: the registers that are listed and those that a privilege guards. A readable system register reaches s[S]: IDENT
with its fields, the fibre's own registers, the fault registers of the record FSEL names (0 where it never faulted or FSEL is above 8), the
clock, the context's and the device's registers. A write reaches the writable fields, is ignored by a read-only register, and either raises
cause 0x04 where the register needs a privilege the context has not; a write to a counter's owner that changes it stops the counter.
The model's choice in it: log 57. -/
def Obligations.SystemRegisters : Prop :=
  (∀ n : Nat, sysRegListed n = true ↔ n ∈ [0, 1, 2, 3, 4, 5, 0x10, 0x11, 0x12, 0x13, 0x14, 0x15, 0x16, 0x200, 0x201, 0x800, 0x801, 0x802, 0x803,
    0x804, 0x805, 0xA00, 0xA21, 0xA22, 0xB00] ∨ (∃ k, k < 4 ∧ (n = 0xA04 + k ∨ n = 0xA08 + k)) ∨ ∃ k, k < 16 ∧ n = 0xA10 + k) ∧
  (∀ n : Nat, (sysPriv n false = true ↔ n = 0x201) ∧
    (sysPriv n true = true ↔ n ∈ [0xA00, 0xA21, 0xA22] ∨ (∃ k, k < 4 ∧ (n = 0xA04 + k ∨ n = 0xA08 + k)) ∨ ∃ k, k < 16 ∧ n = 0xA10 + k)) ∧
  (∀ (s : State) (d : SReg) (r : BitVec 16),
    wellFormed (.sysr d r) = sysRegListed r.toNat ∧ wellFormed (.sysw d r) = sysRegListed r.toNat ∧
    (sysPriv r.toNat false = false ∨ s.myCtx.priv = true → WritesScalar (.sysr d r) s d (s.sysRead r.toNat)) ∧
    (s.goes (.sysr d r) → sysPriv r.toNat false = true → s.myCtx.priv = false → exec (.sysr d r) s = .next (s.take 0x04 0)) ∧
    (let w := s.myWg
     let h := s.actor.idx = 8
     let v := s.sysRead 0x0000
     s.actor.idx ≤ 8 → s.me.serves < 8 → s.mySlot.number < 32 → s.actor.slot < 8 → w.inst < 4 → w.rank < 16 → w.cu < 192 → w.num < 2 ^ 32 →
       (¬h → fld v 0 3 = s.actor.idx) ∧ (h → fld v 0 3 = s.me.serves) ∧ (v.getLsbD 3 = true ↔ h) ∧ fld v 4 5 = s.mySlot.number ∧
       fld v 9 3 = s.actor.slot ∧ fld v 12 2 = w.inst ∧ fld v 14 4 = w.rank ∧ fld v 18 4 = w.cu % 16 ∧ fld v 22 4 = w.cu / 16 ∧
       fld v 26 2 = w.cu % 16 / 8 + 2 * (w.cu / 16 / 6) ∧ fld v 30 2 = 0 ∧ fld v 32 32 = w.num ∧
       (w.warp = 16 → fld v 28 2 = 0) ∧ (w.warp = 32 → fld v 28 2 = 1) ∧ (w.warp = 64 → fld v 28 2 = 2)) ∧
    s.sysRead 0x0001 = s.me.sticky.setWidth 64 ∧ s.sysRead 0x0002 = s.me.mask ∧ s.sysRead 0x0003 = s.me.base.setWidth 64 ∧
    s.sysRead 0x0004 = s.me.fsel.setWidth 64 ∧ s.sysRead 0x0005 = BitVec.ofNat 64 (s.lease s.myWg.cu) ∧
    s.sysRead 0x0200 = s.myCtx.asid.setWidth 64 ∧ s.sysRead 0x0201 = BitVec.ofNat 64 s.myCtx.root ∧
    s.sysRead 0x0800 = s.fe.devid.setWidth 64 ∧ s.sysRead 0x0801 = s.me.fsplit ∧ s.sysRead 0x0802 = s.fe.fertimer ∧
    s.sysRead 0x0803 = s.fe.replays ∧ s.sysRead 0x0804 = s.fe.spur ∧ s.sysRead 0x0805 = s.fe.disc ∧
    s.sysRead 0x0A00 = s.myCtx.dbgctl.setWidth 64 ∧ s.sysRead 0x0A21 = s.myCtx.trbase ∧ s.sysRead 0x0A22 = s.myCtx.trctl ∧
    s.sysRead 0x0B00 = s.ctl.clkstat ∧
    (∀ k, k < 4 → s.sysRead (0x0A04 + k) = Tbl.get s.myCtx.bpa k 0 ∧ s.sysRead (0x0A08 + k) = Tbl.get s.myCtx.bpl k 0) ∧
    (∀ k, k < 16 → s.sysRead (0x0A10 + k) = (Tbl.get (s.cu s.myWg.cu).ev k EvCnt.zero).owner) ∧
    (let x := s.fib { s.actor with idx := s.me.fsel.toNat }
     (∀ n, 0x10 ≤ n → n ≤ 0x16 → 8 < s.me.fsel.toNat ∨ (x.fault = none ∧ x.old = none) → s.sysRead n = 0) ∧
     ∀ fr, s.me.fsel.toNat ≤ 8 → x.fault = some fr ∨ (x.fault = none ∧ x.old = some fr) →
       s.sysRead 0x0010 = fr.pc ∧ s.sysRead 0x0012 = fr.addr ∧ s.sysRead 0x0013 = fr.lanes ∧ s.sysRead 0x0014 = fr.ipc ∧
       s.sysRead 0x0015 = fr.cpos ∧ s.sysRead 0x0016 = fr.spos ∧
       (let v := s.sysRead 0x0011
        fld v 0 8 = fr.cause.toNat ∧ v.getLsbD 8 = fr.async ∧ v.getLsbD 9 = fr.multi ∧ v.getLsbD 10 = fr.lane.isSome ∧
        fld v 11 6 = (match fr.lane with | some l => l % 64 | none => 0) ∧ fld v 17 47 = fr.detail.toNat))) ∧
  (∀ (s : State) (d : SReg) (r : BitVec 16),
    let v := s.sreg d.toNat
    let g := s.me.regs
    (∀ h : Regs, s.goes (.sysw d r) →
      (r = 0x0001 ∧ h = { g with sticky := v.setWidth 9 }) ∨ (r = 0x0004 ∧ h = { g with fsel := v.setWidth 4 }) ∨
      (r = 0x0801 ∧ h = { g with fsplit := v &&& 0xFFFF007F }) ∨
      (r.toNat ∈ [0, 2, 3, 5, 0x10, 0x11, 0x12, 0x13, 0x14, 0x15, 0x16, 0x200, 0x201, 0x800, 0x802, 0x803, 0x804, 0x805, 0xB00] ∧ h = g) →
      Completes (.sysw d r) s (fun t => Quiet s t ∧ s.advanced t ∧ (t.fib s.actor).regs = h)) ∧
    (s.goes (.sysw d r) → sysPriv r.toNat true = true → s.myCtx.priv = false → exec (.sysw d r) s = .next (s.take 0x04 0)) ∧
    (s.goes (.sysw d r) → sysPriv r.toNat true = true → s.myCtx.priv = true → Completes (.sysw d r) s (fun t =>
      Still s t ∧ s.advanced t ∧ (t.fib s.actor).regs = g ∧
      let c := t.ctx s.myWg.ctx
      let u := t.cu s.myWg.cu
      (c.dbgctl = if r = 0x0A00 then v.setWidth 3 else s.myCtx.dbgctl) ∧
      (c.trbase = if r = 0x0A21 then v else s.myCtx.trbase) ∧
      (c.trctl = if r = 0x0A22 then v &&& 0x3F else s.myCtx.trctl) ∧
      (∀ k, k < 4 → Tbl.get c.bpa k 0 = (if r.toNat = 0x0A04 + k then v &&& ~~~2 else Tbl.get s.myCtx.bpa k 0) ∧
        Tbl.get c.bpl k 0 = (if r.toNat = 0x0A08 + k then v else Tbl.get s.myCtx.bpl k 0)) ∧
      ∀ k, k < 16 →
        let e := Tbl.get (s.cu s.myWg.cu).ev k EvCnt.zero
        let z := Tbl.get u.ev k EvCnt.zero
        (r.toNat ≠ 0x0A10 + k → z.owner = e.owner ∧ z.en = e.en) ∧
        (r.toNat = 0x0A10 + k → z.owner = v &&& 0x1FFF ∧ z.en = (e.en && decide (v &&& 0x1FFF = e.owner)))))) 

/-- R146, R147: `ICINV` and `ICINV.D` take every clause buffer entry of the context's ASID over the range away: one that no fibre issues
from at once, with the clause of every fibre frozen inside it, one that a fibre issues from when that fibre reaches its boundary; every
other entry stays. `ICINV.D` then waits in place until none of those is left but its own. A length of zero does nothing.
The model's choice in it: log 27. -/
def Obligations.CodeInvalidation : Prop :=
  ∀ (s : State) (a b : SReg),
    let x := s.sreg a.toNat
    let n := s.sreg b.toNat
    let hit := s.codeHit x n
    let used := fun (w : Nat × Nat) (e : CEntry) => ∃ k, k < 9 ∧
      let f := s.fib { wg := w.1, slot := w.2, idx := k }
      f.st = .ready ∧ f.inside = true ∧ f.dbg ≠ .halted ∧ (s.slot w.1 w.2).cur = k ∧ f.clause = some e.clause
    let mine := fun (w : Nat × Nat) (e : CEntry) => w = (s.actor.wg, s.actor.slot) ∧ s.me.clause = some e.clause
    let gone := fun (t : State) => Still s t ∧ (t.fib s.actor).regs = s.me.regs ∧
      (∀ w, w ∈ s.allSlots → ∀ e, e ∈ (t.slot w.1 w.2).cbuf → hit e = true → e.dead = true ∧ used w e) ∧
      (∀ w, w ∈ s.allSlots → ∀ e, e ∈ (s.slot w.1 w.2).cbuf → hit e = false → e.dead = false → e ∈ (t.slot w.1 w.2).cbuf) ∧
      (∀ w k c, w ∈ s.allSlots → k < 9 →
        let r : FRef := { wg := w.1, slot := w.2, idx := k }
        (s.fib r).st = .frozen → (s.fib r).clause = some c → (s.ctx (s.wg w.1).ctx).asid = s.myCtx.asid →
        2 ^ 32 ≤ n.toNat ∨ (c.addr.toNat < x.toNat + n.toNat ∧ x.toNat < c.addr.toNat + 4 * (c.lead + c.words.length)) →
        (t.fib r).clause = none)
    let others := ∃ w e, w ∈ s.allSlots ∧ e ∈ (s.slot w.1 w.2).cbuf ∧ hit e = true ∧ used w e ∧ ¬mine w e ∧
      (e.dead = true ↔ ∃ x, x ∈ (s.slot w.1 w.2).cbuf ∧ x.dead = true ∧ x.clause = e.clause)
    (∀ e : CEntry, hit e = true ↔ e.asid = s.myCtx.asid ∧ (2 ^ 32 ≤ n.toNat ∨
      (e.clause.addr.toNat < x.toNat + n.toNat ∧ x.toNat < e.clause.addr.toNat + 4 * (e.clause.lead + e.clause.words.length)))) ∧
    (n = 0 → (s.goes (.icinv a b) → exec (.icinv a b) s = .next s.retire) ∧
      (s.goes (.icinvD a b) → exec (.icinvD a b) s = .next s.retire)) ∧
    (n ≠ 0 → s.goes (.icinv a b) → Completes (.icinv a b) s (fun t => gone t ∧ s.advanced t)) ∧
    (n ≠ 0 → s.goes (.icinvD a b) → s.me.begun = none →
      (¬others → Completes (.icinvD a b) s (fun t => gone t ∧ s.advanced t)) ∧
      (others → Completes (.icinvD a b) s (fun t => gone t ∧ (t.fib s.actor).wait = true ∧ (t.fib s.actor).idx = s.me.idx))) ∧
    (n ≠ 0 → s.goes (.icinvD a b) → s.me.begun.isSome → (∀ w e, w ∈ s.allSlots → e ∈ (s.slot w.1 w.2).cbuf → hit e = true →
        e.dead = true → mine w e) →
      exec (.icinvD a b) s = .next s.retire)

/-- R148: `ISYNC` waits in place until the fibre's earlier stores are performed at their home, and then leaves its own slot no clause buffer
entry but the one it is issuing from; the other slots keep theirs. -/
def Obligations.IsyncDropsItsSlotsClauses : Prop :=
  (∀ s : State, s.goes .isync →
    let home := ∀ o, o ∈ s.ops → Tbl.get o.holders s.me.fid s.nextId < s.nextId → o.cls &&& clsWrites ≠ 0 →
      match o.kind with
      | .store | .atomic .. | .cas .. | .acust .. => ∀ p, p ∈ o.parts → p.st = .performed ∨ p.st = .done
      | _ => o.st = .settling
    (¬home → exec .isync s = .next s.waitHere ∧ s.waitHere.me = { s.me with wait := true }) ∧
    (home → Completes .isync s (fun t =>
      Still s t ∧ s.advanced t ∧ (t.fib s.actor).regs = s.me.regs ∧
      (∀ e, e ∈ (t.slot s.actor.wg s.actor.slot).cbuf → s.me.clause = some e.clause ∧
        (e.dead = true ↔ ∃ x, x ∈ s.mySlot.cbuf ∧ x.dead = true ∧ x.clause = e.clause)) ∧
      (∀ g k, (g, k) ≠ (s.actor.wg, s.actor.slot) → (t.slot g k).cbuf = (s.slot g k).cbuf)))) ∧
  (∀ (w : Word) (rest : List Word), w.toNat / 2 ^ 25 = 0x0B → w.toNat / 2 ^ 21 % 2 ^ 4 = 2 → w.toNat % 2 ^ 21 ≠ 0 →
    ∃ e, decode (w :: rest) = .error e)

-- The checks of an issue unit -----------------------------------------------------------------------------------------------

/-- R47, R89, R90: a fibre that issues a privileged instruction in a context without privilege takes cause 0x04; a reserved or
forbidden field takes cause 0x01; in this order. While an interlock holds an instruction, its fibre waits in place and nothing
else happens.
The model's choice in it: log 4, 18. -/
def Obligations.ChecksOfAnIssueUnit : Prop :=
  ∀ (i : Instr) (s : State), encode i ≠ [] → (∀ m st c o l t, i ≠ .mod m st c o l t) → (∀ w, i ≠ .limm w) → s.issuing = true →
    (s.me.hMod = none → s.me.hLimm = none →
      (privileged i = true → s.myCtx.priv = false → exec i s = .next (s.take 0x04 0)) ∧
      (privileged i = false ∨ s.myCtx.priv = true → wellFormed i = false → exec i s = .next (s.take 0x01 0))) ∧
    (s.verdict i = .wait →
      exec i s = .next s.waitHere ∧ Quiet s s.waitHere ∧ s.waitHere.me = { s.me with wait := true })

/-- R47, R169: a precise fault freezes the fibre before its issue unit, with the cause and the unit's address in its record and no
register or memory byte changed.
The model's choice in it: log 30. -/
def Obligations.FaultsArePrecise : Prop :=
  ∀ (s : State) (cause : BitVec 8) (detail : Nat),
    Quiet s (s.take cause detail) ∧ (∀ r, ((s.take cause detail).fib r).regs = (s.fib r).regs) ∧
    (s.take cause detail).frozenWith s.actor cause detail s.me.unitPc ∧
    ((s.take cause detail).fib s.actor).idx = s.me.unit0 ∧ ((s.take cause detail).fib s.actor).t = s.me.t ∧
    (s.actor.idx ≠ 8 → (s.launchOf s.actor.wg).handler = true →
      ((s.take cause detail).slot s.actor.wg s.actor.slot).hq = (s.slot s.actor.wg s.actor.slot).hq ++ [s.actor.idx]) ∧
    (s.actor.idx = 8 ∨ (s.launchOf s.actor.wg).handler = false →
      ∃ d, (s.take cause detail).out = s.out ++ [.note 0x81 d])

/-- R170: where record 8 of the slot is absent, the handler fibre of the first frozen fibre in fault order starts in it, ready at the
launch's handler address with the frozen fibre's lanes, window and scalar, predicate and route registers, FSTICKY 0 and FSEL its index;
where record 8 is busy, nothing happens yet. -/
def Obligations.HandlerFibreStarts : Prop :=
  ∀ (s : State) (g k i : Nat) (rest : List Nat),
    let r8 : FRef := { wg := g, slot := k, idx := 8 }
    let f := s.fib { wg := g, slot := k, idx := i }
    s.isSaved g = false → (s.slot g k).hq = i :: rest → f.st = .frozen →
    ((s.fib r8).st ≠ .absent → exec (.handlerFibreStart g k) s = .next s) ∧
    ((s.fib r8).st = .absent → Completes (.handlerFibreStart g k) s (fun t =>
      Still s t ∧ t.startsAt r8 (s.launchOf g).hpc ∧
      (t.fib r8).mask = f.mask ∧ (t.fib r8).base = f.base ∧ (t.fib r8).s = f.s ∧ (t.fib r8).p = f.p ∧ (t.fib r8).q = f.q ∧
      (t.fib r8).sticky = 0 ∧ (t.fib r8).fsel = BitVec.ofNat 4 i ∧ (t.slot g k).hq = rest ∧
      (∀ r, r ≠ r8 → t.fib r = s.fib r)))

-- Vector engine -------------------------------------------------------------------------------------------------------------

/-- R64: the five rounding modes, on a magnitude `m` with `sh` bits below its last place. -/
def Obligations.RoundingModes : Prop :=
  ∀ (rm : Nat) (neg : Bool) (m sh : Nat),
    let q := (rshr rm neg m sh).1
    let h := 2 ^ sh
    let r := m % h
    ((rshr rm neg m sh).2 = true ↔ r ≠ 0) ∧ (r = 0 → q = m / h) ∧ (q = m / h ∨ q = m / h + 1) ∧
    (rm = 0 → (2 * r < h → q = m / h) ∧ (h < 2 * r → q = m / h + 1) ∧ (2 * r = h → q % 2 = 0)) ∧
    (rm = 1 → q = m / h) ∧
    (rm = 2 → r ≠ 0 → q = if neg then m / h + 1 else m / h) ∧
    (rm = 3 → r ≠ 0 → q = if neg then m / h else m / h + 1) ∧
    (rm = 4 → (2 * r < h → q = m / h) ∧ (h ≤ 2 * r → q = m / h + 1))

/-- R57, R58, R64, R65, R66, R184: a float element is the exact result rounded once. A value that a format holds is encoded as itself in
every rounding mode, without a flag. Any other finite value `m × 2^e` is rounded at the last place of the format, normal or subnormal,
in the chosen mode; NX says that it was inexact, UF that it was inexact and, rounded without a lower bound of the exponent, below the
smallest normal. Above the largest finite value the result is that of R65's row, as for an infinity and a NaN. The sum, difference,
product and fused product of elements are so the encodings of the exact results; a NaN gives the default NaN with NV where it is
signalling, an invalid operation the default NaN with NV. A minimum and a maximum do not round, and order -0 below +0.
The model's choice in it: log 35. -/
def Obligations.FloatElementsRoundOnce : Prop :=
  (∀ (f : Fmt), f ∈ floatFormats →
    (∃ M E, FV.ofBits f f.maxCode = .fin false M E ∧ ∀ x m e, x < 2 ^ f.width → FV.ofBits f x = .fin false m e →
      scaled (min e E) false m e ≤ scaled (min e E) false M E) ∧
    (f.kind ≠ .finite → FV.ofBits f f.nanCode = .nan false) ∧ (f.kind = .finite → f.nanCode = 0) ∧
    (f.kind = .ieee → ∀ neg, FV.ofBits f (f.infCode neg) = .inf neg)) ∧
  (∀ (f : Fmt) (x rm : Nat) (sat neg : Bool) (m : Nat) (e : Int), f ∈ floatFormats → x < 2 ^ f.width →
    FV.ofBits f x = .fin neg m e → encFV f rm sat (FV.ofBits f x) = (x, 0)) ∧
  (∀ (f : Fmt) (rm : Nat) (sat neg : Bool) (m : Nat) (e M : Int) (top : Nat), f ∈ floatFormats → rm ≤ 4 → m ≠ 0 →
    FV.ofBits f f.maxCode = .fin false top M →
    let r := encFV f rm sat (.fin neg m e)
    let least := f.emin - f.mb
    let units := fun (p : Int) => if p ≤ e then m * 2 ^ (e - p).toNat else (rshr rm neg m (p - e).toNat).1
    let free := (Nat.log2 m : Int) + e - f.mb
    let p := max free least
    let nx := e < p ∧ m % 2 ^ (p - e).toNat ≠ 0
    let tiny := scaled (min free f.emin) false (units free) free < scaled (min free f.emin) false 1 f.emin
    let large := scaled (min p M) false top M < scaled (min p M) false (units p) p
    (¬large → r.1 < 2 ^ f.width ∧ r.2 = (if nx then flNX else 0) ||| (if nx ∧ tiny then flUF else 0) ∧
      ∃ m' e', FV.ofBits f r.1 = .fin neg m' e' ∧ scaled (min p e') neg m' e' = scaled (min p e') neg (units p) p) ∧
    (large → (sat = true → r = (f.signBit neg + f.maxCode, flOF ||| flSAT ||| flNX)) ∧
      (sat = false → f.kind = .ieee →
        r = (if rm = 1 ∨ (rm = 2 ∧ neg = false) ∨ (rm = 3 ∧ neg = true) then f.signBit neg + f.maxCode else f.infCode neg, flOF ||| flNX)) ∧
      (sat = false → f.kind = .e4m3 → r = (f.nanCode, flOF ||| flNV)))) ∧
  (∀ (f : Fmt) (rm : Nat) (sat neg : Bool) (e : Int), f ∈ floatFormats →
    encFV f rm sat (.fin neg 0 e) = (f.signBit neg, 0) ∧
    (sat = true → encFV f rm sat (.inf neg) = (f.signBit neg + f.maxCode, flSAT)) ∧
    (sat = false → f.kind = .ieee → encFV f rm sat (.inf neg) = (f.infCode neg, 0)) ∧
    (sat = false → f.kind = .e4m3 → encFV f rm sat (.inf neg) = (f.nanCode, flNV)) ∧
    ∀ g, encFV f rm sat (.nan g) = (f.nanCode, if f.kind = .finite then flNV else 0)) ∧
  (∀ (op : VArith) (t : Tag) (f : Fmt) (uns : Bool) (rm sat a b d : Nat), fmtOf t = some f →
    let r := op.elem t uns rm sat a b d
    let put := encFV f rm (satOn f sat)
    let val := FV.ofBits f
    let nan := fun (x : Nat) => ∃ g, val x = .nan g
    let signals := fun (x : Nat) => if val x = .nan true then flNV else 0
    let inf := fun (x : Nat) (n : Bool) => val x = .inf n
    let fin := fun (x : Nat) (n : Bool) (m : Nat) (e : Int) => val x = .fin n m e
    let badProduct := (∃ n k e, (inf a n ∧ fin b k 0 e) ∨ (fin a k 0 e ∧ inf b n))
    let turned := fun (n : Bool) => if op = .sub ∨ op = .fms then !n else n
    (op = .add ∨ op = .sub →
      (nan a ∨ nan b → r = (f.nanCode, signals a ||| signals b)) ∧
      (∀ na ma ea nb mb eb, fin a na ma ea → fin b nb mb eb → ∃ n m e,
        scaled (min e (min ea eb)) n m e = scaled (min e (min ea eb)) na ma ea + scaled (min e (min ea eb)) (turned nb) mb eb ∧
        (m = 0 → n = if na = turned nb then na else decide (rm = 2)) ∧ r = put (.fin n m e)) ∧
      (∀ n m, inf a n → inf b m → r = if n = turned m then put (.inf n) else (f.nanCode, flNV)) ∧
      (∀ n k m e, inf a n → fin b k m e → r = put (.inf n)) ∧ (∀ n k m e, fin a k m e → inf b n → r = put (.inf (turned n)))) ∧
    (op = .mul →
      (nan a ∨ nan b → r = (f.nanCode, signals a ||| signals b)) ∧
      (∀ na ma ea nb mb eb, fin a na ma ea → fin b nb mb eb → r = put (.fin (na != nb) (ma * mb) (ea + eb))) ∧
      (badProduct → r = (f.nanCode, flNV)) ∧
      (∀ n m, inf a n → inf b m → r = put (.inf (n != m))) ∧
      (∀ n k m e, m ≠ 0 → (inf a n ∧ fin b k m e) ∨ (fin a k m e ∧ inf b n) → r = put (.inf (n != k)))) ∧
    (op = .fma ∨ op = .fms →
      (nan a ∨ nan b ∨ nan d → r.1 = f.nanCode ∧
        (¬badProduct → r.2 = signals a ||| signals b ||| signals d) ∧ (badProduct → r.2 = signals d ||| flNV)) ∧
      (∀ na ma ea nb mb eb nd md ed, fin a na ma ea → fin b nb mb eb → fin d nd md ed → ∃ n m e,
        let L := min e (min (ea + eb) ed)
        scaled L n m e = scaled L (na != nb) (ma * mb) (ea + eb) + scaled L (turned nd) md ed ∧
        (m = 0 → n = if (na != nb) = turned nd then na != nb else decide (rm = 2)) ∧ r = put (.fin n m e)) ∧
      (¬nan d → badProduct → r = (f.nanCode, flNV)) ∧
      (∀ n k m e, (inf a n ∧ inf b k) ∨ (m ≠ 0 ∧ ((inf a n ∧ fin b k m e) ∨ (fin a k m e ∧ inf b n))) →
        (∀ z, inf d z → r = if (n != k) = turned z then put (.inf (n != k)) else (f.nanCode, flNV)) ∧
        (∀ nd md ed, fin d nd md ed → r = put (.inf (n != k)))) ∧
      (∀ na ma ea nb mb eb z, fin a na ma ea → fin b nb mb eb → inf d z → r = put (.inf (turned z)))) ∧
    (op = .min ∨ op = .max →
      (nan a ∨ nan b → r = (f.nanCode, signals a ||| signals b)) ∧
      (¬nan a → ¬nan b → r.2 = 0 ∧ (r.1 = a ∨ r.1 = b)) ∧
      (∀ na ma ea nb mb eb, fin a na ma ea → fin b nb mb eb →
        let u := scaled (min ea eb) na ma ea
        let v := scaled (min ea eb) nb mb eb
        u < v ∨ (u = v ∧ na = true ∧ nb = false) → r.1 = (if op = .min then a else b)) ∧
      (∀ na ma ea nb mb eb, fin a na ma ea → fin b nb mb eb →
        let u := scaled (min ea eb) na ma ea
        let v := scaled (min ea eb) nb mb eb
        v < u ∨ (v = u ∧ nb = true ∧ na = false) → r.1 = (if op = .min then b else a)) ∧
      (∀ n k m e, inf a n → fin b k m e → r.1 = if n = decide (op = .min) then a else b) ∧
      (∀ n k m e, fin a k m e → inf b n → r.1 = if n = decide (op = .min) then b else a)))

/-- R177, R183, R185: integer elements of 8, 16 and 32 bits and 64-bit pairs wrap at their width, and saturate only under SAT, for which the
four operations that accept it clamp the exact result and set the flag when they do; `VMULH` gives the high half of the product. A shift
by the element's width or more leaves nothing of it, or only copies of its sign. No other flag is set. -/
def Obligations.IntegerElementsWrapOrSaturate : Prop :=
  (∀ (t : Tag) (uns : Bool) (rm sat a b d : Nat),
    let w := widthOf t
    let u := t == 2 || (t == 0xE && uns)
    let v := fun (x : Nat) => if u = true ∨ x < 2 ^ (w - 1) then (x : Int) else (x : Int) - 2 ^ w
    let lo : Int := if u then 0 else -2 ^ (w - 1)
    let hi : Int := if u then 2 ^ w - 1 else 2 ^ (w - 1) - 1
    let el := fun (op : VArith) => op.elem t uns rm sat a b d
    let clamped := fun (op : VArith) (z : Int) => sat = 1 →
      (el op).1 < 2 ^ w ∧ v (el op).1 = max lo (min hi z) ∧ (el op).2 = if z < lo ∨ hi < z then flSAT else 0
    a < 2 ^ w → b < 2 ^ w → d < 2 ^ w →
    (isInt t = true ∨ t = 0xE →
      (w = if t = 0xE then 64 else if t = 0xC then 16 else if t = 0xD then 8 else 32) ∧
      (sat ≠ 1 → el .add = ((a + b) % 2 ^ w, 0)) ∧ clamped .add (v a + v b) ∧
      (sat ≠ 1 → el .sub = ((a + (2 ^ w - b)) % 2 ^ w, 0)) ∧ clamped .sub (v a - v b) ∧
      el .min = (if v a < v b then a else b, 0) ∧ el .max = (if v a < v b then b else a, 0)) ∧
    (isInt t = true →
      (sat ≠ 1 → el .mul = ((a * b) % 2 ^ w, 0)) ∧ clamped .mul (v a * v b) ∧
      (sat ≠ 1 → el .madi = ((a * b + d) % 2 ^ w, 0)) ∧ clamped .madi (v a * v b + v d) ∧
      (el .mulh).1 < 2 ^ w ∧ v (el .mulh).1 = v a * v b / 2 ^ w ∧ (el .mulh).2 = 0)) ∧
  (∀ (w x n : Nat), 0 < w → x < 2 ^ w →
    (w ≤ n → shiftElem 0 w x n = 0 ∧ shiftElem 1 w x n = 0 ∧ shiftElem 2 w x n = if x < 2 ^ (w - 1) then 0 else 2 ^ w - 1) ∧
    (n < w → shiftElem 0 w x n = x * 2 ^ n % 2 ^ w ∧ shiftElem 1 w x n = x / 2 ^ n ∧
      shiftElem 2 w x n = if x < 2 ^ (w - 1) then x / 2 ^ n else 2 ^ w - 2 ^ (w - n) + x / 2 ^ n))

/-- R61, R62, R175, R177, R178: lanes that are written get their values with the register's tag, bits 31:30 zero under the tags of R62
unless the write is raw; the other lanes, every other register and all of memory stay. A vector result of one register goes so to
the active lanes of its destination, a window register or a temporary, and FSTICKY takes the flags of the active lanes. A pair
result goes to two registers (R177): low halves to the first with tag 0xE, high halves to the next with tag 0xF, or 0x2 for an
unsigned pair.
The model's choice in it: log 17. -/
def Obligations.VectorResultsReachActiveLanes : Prop :=
  (∀ (s : State) (m : DWord) (d : VReg) (tag : Tag) (vals : List Nat) (raw : Bool),
    let t := s.putIn m d tag vals raw
    let n := s.me.base.toNat + d.toNat
    let val := fun (l : Nat) => let x := BitVec.ofNat 32 (vals.getD l 0); if raw then x else cleanLane tag x
    (∀ a, t.hbm a = s.hbm a) ∧ (∀ g o, t.pad g o = s.pad g o) ∧ (∀ r, (t.fib r).regs = (s.fib r).regs) ∧
    (s.tbit 2 = false → (∀ r, (t.fib r).t = (s.fib r).t) ∧
      (∀ g k r, (g, k, r) ≠ (s.actor.wg, s.actor.slot, n) → t.vreg g k r = s.vreg g k r) ∧
      (t.vreg s.actor.wg s.actor.slot n).tag = tag ∧
      ∀ l, l < s.width → (t.vreg s.actor.wg s.actor.slot n).lane l =
        if m.getLsbD l then val l else (s.vreg s.actor.wg s.actor.slot n).lane l) ∧
    (s.tbit 2 = true → (∀ g k r, t.vreg g k r = s.vreg g k r) ∧
      (∀ i, i ≠ d.toNat % 4 → Tbl.get (t.fib s.actor).t i VVal.temp = Tbl.get s.me.t i VVal.temp) ∧
      let y := Tbl.get (t.fib s.actor).t (d.toNat % 4) VVal.temp
      y.tag = tag ∧ ∀ l, l < s.width → y.lane l =
        if m.getLsbD l then val l else (Tbl.get s.me.t (d.toNat % 4) VVal.temp).lane l)) ∧
  (∀ (s : State) (d : VReg) (tag : Tag) (uns : Bool) (outs : List (Nat × Fl)),
    let t := s.vdone d tag uns outs
    let n := s.me.base.toNat + d.toNat
    let val := fun (l : Nat) => cleanLane tag (BitVec.ofNat 32 (outs.getD l (0, 0)).1)
    let sticky := s.me.sticky ||| (s.active.foldl (fun m l => m ||| (outs.getD l (0, 0)).2) 0)
    tag ≠ 0xE →
    (∀ a, t.hbm a = s.hbm a) ∧ (∀ g o, t.pad g o = s.pad g o) ∧ s.advanced t ∧
    (t.fib s.actor).regs = { s.me.regs with sticky := sticky } ∧ (∀ r, r ≠ s.actor → (t.fib r).regs = (s.fib r).regs) ∧
    (s.tbit 2 = false →
      (∀ g k r, (g, k, r) ≠ (s.actor.wg, s.actor.slot, n) → t.vreg g k r = s.vreg g k r) ∧
      (t.vreg s.actor.wg s.actor.slot n).tag = tag ∧
      ∀ l, l < s.width → (t.vreg s.actor.wg s.actor.slot n).lane l =
        if s.me.mask.getLsbD l then val l else (s.vreg s.actor.wg s.actor.slot n).lane l) ∧
    (s.tbit 2 = true → (∀ g k r, t.vreg g k r = s.vreg g k r) ∧
      ∀ c, s.me.clause = some c → s.me.idx + 1 < c.words.length →
        (Tbl.get (t.fib s.actor).t (d.toNat % 4) VVal.temp).tag = tag ∧
        ∀ l, l < s.width → (Tbl.get (t.fib s.actor).t (d.toNat % 4) VVal.temp).lane l =
          if s.me.mask.getLsbD l then val l else (Tbl.get s.me.t (d.toNat % 4) VVal.temp).lane l)) ∧
  (∀ (s : State) (d : VReg) (uns : Bool) (outs : List (Nat × Fl)),
    let n := s.me.base.toNat + d.toNat
    let t := s.vdone d 0xE uns outs
    let v := fun (l : Nat) => (outs.getD l (0, 0)).1
    let sticky := s.me.sticky ||| (s.active.foldl (fun m l => m ||| (outs.getD l (0, 0)).2) 0)
    s.tbit 2 = false → d.toNat % 2 = 0 → n + 1 < s.myWg.regs →
    (∀ a, t.hbm a = s.hbm a) ∧ (∀ g o, t.pad g o = s.pad g o) ∧ s.advanced t ∧
    (t.fib s.actor).regs = { s.me.regs with sticky := sticky } ∧ (∀ r, r ≠ s.actor → (t.fib r).regs = (s.fib r).regs) ∧
    (t.vreg s.actor.wg s.actor.slot n).tag = 0xE ∧
    (t.vreg s.actor.wg s.actor.slot (n + 1)).tag = (if uns then 2 else 0xF) ∧
    (∀ l, l < s.width → (t.vreg s.actor.wg s.actor.slot n).lane l =
        (if s.me.mask.getLsbD l then BitVec.ofNat 32 (v l % 2 ^ 32) else (s.vreg s.actor.wg s.actor.slot n).lane l) ∧
      (t.vreg s.actor.wg s.actor.slot (n + 1)).lane l =
        (if s.me.mask.getLsbD l then BitVec.ofNat 32 (v l / 2 ^ 32) else (s.vreg s.actor.wg s.actor.slot (n + 1)).lane l)) ∧
    (∀ g k r, (g, k, r) ≠ (s.actor.wg, s.actor.slot, n) → (g, k, r) ≠ (s.actor.wg, s.actor.slot, n + 1) →
      t.vreg g k r = s.vreg g k r))

/-- R177, R183, R184, R185: the two-source arithmetic, logic and shift instructions, when the register rules of pairs admit them and
their sources have tags that agree, give each element the result of its operation; sources that disagree raise cause 0x10.
The model's choice in it: log 34, 161. -/
def Obligations.VectorTwoSourceResults : Prop :=
  ∀ (s : State) (d a : VReg) (x : Rt) (b : VReg) (y : Rt) (A B : Src),
    s.vsrc 1 a x 1 = .ok A → A.pend = false → s.vsrc2 A b y = .ok B → B.pend = false →
    let differ := fun (i : Instr) => exec i s = .next (s.take 0x10 (mismatch 2 B (A.tag = 0xE)).2)
    let lanes := fun (g : Nat → Nat × Fl) => (List.range s.width).map g
    let arith := fun (op : VArith) (i : Instr) =>
      s.goes i → op.accepts A.tag = true →
      (B.tag ≠ A.tag ∨ B.uns ≠ A.uns → differ i) ∧
      (B.tag = A.tag → B.uns = A.uns → (op.readsD = true → s.tagField d 2 = A.tag) →
        (op = .min ∨ op = .max ∨ s.satBad A.tag = false) →
        exec i s = .next (s.vdone d A.tag A.uns (lanes (fun l => packElems A.tag (fun e =>
          op.elem A.tag A.uns s.rm s.satHint (elemOf A.tag (A.lanes.getD l 0) e) (elemOf A.tag (B.lanes.getD l 0) e)
            (elemOf A.tag ((s.vfield d 2).lane l).toNat e))))))
    let logic := fun (f : Nat → Nat → Nat) (i : Instr) =>
      s.goes i →
      (logicTag A B = none → differ i) ∧
      ∀ t u, logicTag A B = some (t, u) →
        (t ≠ 0xE → exec i s = .next (s.vdone d t u (lanes (fun l => (f (A.lanes.getD l 0) (B.lanes.getD l 0), 0))))) ∧
        (t = 0xE → exec i s = .next (s.vdone d t u (lanes (fun l => (f (A.wide l) (B.wide l), 0)))))
    let shift := fun (k : Nat) (i : Instr) =>
      s.goes i → isInt A.tag = true ∨ A.tag = 0xE →
      let gives := fun (count : Nat → Nat → Nat) => exec i s = .next (s.vdone d A.tag A.uns (lanes (fun l => packElems A.tag (fun e =>
        (shiftElem k (widthOf A.tag) (elemOf A.tag (A.lanes.getD l 0) e) (count l e), 0)))))
      (isInt A.tag = true → B.tag = A.tag → gives (fun l e => elemOf A.tag (B.lanes.getD l 0) e)) ∧
      (isInt A.tag = true → B.tag ≠ A.tag → B.tag = 1 ∨ B.tag = 2 → gives (fun l _ => B.lanes.getD l 0 % 2 ^ 32)) ∧
      (A.tag = 0xE → (B.tag = 0xE ∧ B.uns = A.uns) ∨ B.tag = 1 ∨ B.tag = 2 → gives (fun l _ => B.lanes.getD l 0 % 2 ^ 32)) ∧
      (B.tag ≠ A.tag → B.tag ≠ 1 → B.tag ≠ 2 → differ i) ∧ (A.tag = 0xE → B.tag = 0xE → B.uns ≠ A.uns → differ i)
    arith .add (.vadd d a x b y) ∧ arith .sub (.vsub d a x b y) ∧ arith .mul (.vmul d a x b y) ∧
    arith .mulh (.vmulh d a x b y) ∧ arith .fma (.vfma d a x b y) ∧ arith .fms (.vfms d a x b y) ∧
    arith .madi (.vmadi d a x b y) ∧ arith .min (.vmin d a x b y) ∧ arith .max (.vmax d a x b y) ∧
    logic (· &&& ·) (.vand d a x b y) ∧ logic (· ||| ·) (.vor d a x b y) ∧ logic (· ^^^ ·) (.vxor d a x b y) ∧
    shift 0 (.vshl d a x b y) ∧ shift 1 (.vshr d a x b y) ∧ shift 2 (.vsra d a x b y)

/-- R184, R186, R187, R188: `VSCALE`, `VDOT4`, `VPACK` and `VPERM` on sources whose tags they accept. `VSCALE` multiplies every element
by two to the power of its lane's count, rounding once; `VDOT4` adds the exact products of a lane's elements to the lane, an
integer sum wrapped or clamped to 32 bits, and equal to the exact sum where it fits; `VPACK` converts a lane's value into one element
of the destination and keeps the others, and for an element the tag has not sets NV and keeps the whole lane; `VPERM` gives each
lane the routed lane that its index names, or zero. A tag that is not accepted raises cause 0x10.
The model's choice in it: log 34, 41, 161. -/
def Obligations.VectorScaleDotPackPermute : Prop :=
  ∀ (s : State) (d a : VReg) (x : Rt) (b : VReg) (y : Rt),
    let lanes := fun (g : Nat → Nat × Fl) => (List.range s.width).map g
    let D := s.vfield d 2
    let T := s.tagField d 2
    let wrong := fun (i : Instr) (pos : Nat) (t : Tag) => exec i s = .next (s.take 0x10 (tagDetail pos false t))
    (∀ A B : Src, s.vsrc 1 a x 1 = .ok A → A.pend = false → s.vsrc2 A b y = .ok B → B.pend = false →
      (s.goes (.vscale d a x b y) →
        (fmtOf A.tag = none → wrong (.vscale d a x b y) 1 A.tag) ∧
        (∀ f, fmtOf A.tag = some f → s.me.hLimm.isSome ∨ B.tag = 1 → s.satBad A.tag = false →
          exec (.vscale d a x b y) s = .next (s.vdone d A.tag false (lanes (fun l => packElems A.tag (fun e =>
            let v := FV.ofBits f (elemOf A.tag (A.lanes.getD l 0) e)
            let r := encFV f s.rm (satOn f s.satHint) (fvScale v (sgnOf 32 (B.lanes.getD l 0)))
            (r.1, r.2 ||| v.sigFl))))))) ∧
      (s.goes (.vdot4 d a x b y) →
        let int := A.tag = 0xC ∨ A.tag = 0xD
        ((A.tag.toNat < 4 ∨ A.tag = 0xB ∨ A.tag = 0xE) → wrong (.vdot4 d a x b y) 1 A.tag) ∧
        (((4 ≤ A.tag.toNat ∧ A.tag.toNat ≤ 10) ∨ int) → B.tag = A.tag →
          (T ≠ (if int then 1 else 3) → wrong (.vdot4 d a x b y) 0 T) ∧
          (T = (if int then 1 else 3) →
            exec (.vdot4 d a x b y) s = .next (s.vdone d T false (lanes (fun l =>
              dotLane A.tag s.rm s.satHint (A.lanes.getD l 0) (B.lanes.getD l 0) (D.lane l).toNat))) ∧
            ∀ l, int →
              let z := sgnOf 32 (D.lane l).toNat + ((List.range (elemsOf A.tag)).map (fun e =>
                sgnOf (widthOf A.tag) (elemOf A.tag (A.lanes.getD l 0) e) * sgnOf (widthOf A.tag) (elemOf A.tag (B.lanes.getD l 0) e))).sum
              let r := dotLane A.tag s.rm s.satHint (A.lanes.getD l 0) (B.lanes.getD l 0) (D.lane l).toNat
              (-(2 ^ 31) ≤ z → z < 2 ^ 31 → sgnOf 32 r.1 = z ∧ r.2 = 0) ∧
              (s.satHint = 1 → (2 ^ 31 ≤ z → r = (2 ^ 31 - 1, flSAT)) ∧ (z < -(2 ^ 31) → r = (2 ^ 31, flSAT))) ∧
              (s.satHint ≠ 1 → ((r.1 : Int) - z) % 2 ^ 32 = 0 ∧ r.2 = 0)))) ∧
      (s.goes (.vpack d a x b y) → s.accDest d = false →
        (T.toNat < 4 ∨ 13 < T.toNat → wrong (.vpack d a x b y) 0 T) ∧
        (4 ≤ T.toNat → T.toNat ≤ 13 → A.tag ≠ 1 → A.tag ≠ 3 → wrong (.vpack d a x b y) 1 A.tag) ∧
        (4 ≤ T.toNat → T.toNat ≤ 13 → A.tag = 1 ∨ A.tag = 3 → s.me.hLimm.isSome ∨ B.tag = 1 ∨ B.tag = 2 → s.satBad T = false →
          (A.tag = 3 → isInt T = true → s.satHint = 0) →
          let n := elemsOf T
          let e := fun (l : Nat) => B.lanes.getD l 0 % 16
          let r := fun (l : Nat) => cvtTo s.rm s.satHint T (elemVal A.tag false (A.lanes.getD l 0))
          ∃ (m : DWord) (vals : List Nat) (fl : Fl),
            exec (.vpack d a x b y) s = .next (((s.putIn m d T vals false).raise fl).retire) ∧
            (∀ l, l < 64 → (m.getLsbD l = true ↔ l ∈ s.active ∧ e l < n)) ∧
            (∀ l, l ∈ s.active → e l < n →
              elemOf T (vals.getD l 0) (e l) = (r l).1 % 2 ^ widthOf T ∧
              ∀ k, k < n → k ≠ e l → elemOf T (vals.getD l 0) k = elemOf T (D.lane l).toNat k) ∧
            fl = s.active.foldl (fun f l => f ||| (if e l < n then (r l).2 else flNV)) 0))) ∧
    (∀ B : Src, s.goes (.vperm d a x b y) →
      (match s.me.hLimm with
       | some w => B = { tag := 2, uns := false, lanes := List.replicate s.width w.toNat, pend := false }
       | none => s.vsingle 2 b y 0 = .ok B) → B.pend = false →
      (B.tag ≠ 1 → B.tag ≠ 2 → wrong (.vperm d a x b y) 2 B.tag) ∧
      (B.tag = 1 ∨ B.tag = 2 →
        (s.tagField a 1 = 0 → wrong (.vperm d a x b y) 1 0) ∧
        (s.tagField a 1 ≠ 0 → s.tbit 1 = true ∨ s.pendingAny s.actor.wg s.actor.slot (s.me.base.toNat + a.toNat) = 0 →
          ∃ outs, exec (.vperm d a x b y) s = .next ((s.putLanes d (s.tagField a 1) outs false).retire) ∧ outs.length = s.width ∧
            ∀ l, l < s.width →
              let k := B.lanes.getD l 0 % 64
              (∀ j, k < s.width → s.routeSrc x k = some j → outs.getD l 0 = ((s.vfield a 1).lane j).toNat) ∧
              (s.width ≤ k ∨ s.routeSrc x k = none → outs.getD l 0 = 0))))

/-- R189: `VCMP` gives the active lanes' bits of a predicate the relation of their elements, and leaves the other bits alone; FSTICKY
takes NV from a signalling NaN. The relations of integers are those of their values; a NaN is unordered, for which only NE and the
test for unordered hold. Tags that it does not accept, and tags that differ, raise cause 0x10.
The model's choice in it: log 29, 34. -/
def Obligations.VectorCompares : Prop :=
  (∀ (s : State) (p c : BitVec 3) (a : VReg) (x : Rt) (b : VReg) (y : Rt) (A B : Src), s.goes (.vcmp p c a x b y) →
    s.vsrc 1 a x 1 = .ok A → A.pend = false → s.vsrc2 A b y = .ok B → B.pend = false →
    let ok := (A.tag = 3 ∨ ((A.tag = 1 ∨ A.tag = 2 ∨ A.tag = 0xE) ∧ c.toNat < 6))
    let cmp := fun (l : Nat) => cmpLane c.toNat A.tag A.uns (A.lanes.getD l 0) (B.lanes.getD l 0)
    (¬ok → exec (.vcmp p c a x b y) s = .next (s.take 0x10 (tagDetail 1 false A.tag))) ∧
    (ok → B.tag ≠ A.tag ∨ B.uns ≠ A.uns → exec (.vcmp p c a x b y) s = .next (s.take 0x10 (mismatch 2 B (A.tag = 0xE)).2)) ∧
    (ok → B.tag = A.tag → B.uns = A.uns → Completes (.vcmp p c a x b y) s (fun t =>
      Quiet s t ∧ s.advanced t ∧
      (∃ v, (t.fib s.actor).regs = { s.me.regs with
        p := Tbl.set s.me.p p.toNat v, sticky := s.me.sticky ||| s.active.foldl (fun f l => f ||| (cmp l).2) 0 }) ∧
      ∀ l, l < s.width → s.width ≤ 64 → (Tbl.get (t.fib s.actor).p p.toNat 0).getLsbD l =
        if s.me.mask.getLsbD l then (cmp l).1 else (s.preg p.toNat).getLsbD l))) ∧
  (∀ (c : Nat) (t : Tag) (uns : Bool) (u v : Nat), t ≠ 3 →
    let i := intOf (widthOf t) (t == 2 || uns) u
    let j := intOf (widthOf t) (t == 2 || uns) v
    c < 6 → (cmpLane c t uns u v).2 = 0 ∧ ((cmpLane c t uns u v).1 = true ↔ match c with
      | 0 => i = j | 1 => i ≠ j | 2 => i < j | 3 => i ≤ j | 4 => j < i | _ => j ≤ i)) ∧
  (∀ (c u v : Nat), c < 8 →
    let nan := fun (w : Nat) => w / 2 ^ 23 % 2 ^ 8 = 255 ∧ w % 2 ^ 23 ≠ 0
    (nan u ∨ nan v → ((cmpLane c 3 false u v).1 = true ↔ c = 1 ∨ c = 7)) ∧
    (¬nan u → ¬nan v → (cmpLane c 3 false u v).2 = 0 ∧
      (c = 6 → (cmpLane c 3 false u v).1 = true) ∧ (c = 7 → (cmpLane c 3 false u v).1 = false) ∧
      (c < 6 → (cmpLane c 3 false u v).1 = relOf c (fvLt (FV.ofBits fmtF32 u) (FV.ofBits fmtF32 v))
        (fvLt (FV.ofBits fmtF32 v) (FV.ofBits fmtF32 u)))))

/-- R190, R191, R192, R199: selects, immediates, tags, lane numbers and retagging write the destination's active lanes; `VSEL` writes
those its predicate selects and leaves the others as they are, and takes cause 0x10 where the destination's tag is another.
The model's choice in it: log 34. -/
def Obligations.VectorMovesAndSelects : Prop :=
  ∀ (s : State) (d a : VReg) (x : Rt),
    let puts := fun (i : Instr) (tag : Tag) (raw : Bool) (v : Nat → Nat) =>
      ∃ outs, exec i s = .next ((s.putLanes d tag outs raw).retire) ∧ ∀ l, l < s.width → outs.getD l 0 = v l
    (∀ (p : PReg) (n : BitVec 1) (A : Src), s.goes (.vsel d a x p n) → s.vsingle 1 a x 1 = .ok A → A.pend = false →
      (s.tagField d 2 = A.tag ∨ s.tagField d 2 = 0 ∨ s.accDest d = true →
        ∃ m : DWord, exec (.vsel d a x p n) s = .next ((s.putIn m d A.tag A.lanes false).retire) ∧
          ∀ l, l < 64 → (m.getLsbD l = true ↔ s.me.mask.getLsbD l = true ∧ (s.preg p.toNat).getLsbD l = decide (n = 0))) ∧
      (s.tagField d 2 ≠ A.tag → s.tagField d 2 ≠ 0 → s.accDest d = false →
        exec (.vsel d a x p n) s = .next (s.take 0x10 (tagDetail 0 false (s.tagField d 2))))) ∧
    (∀ (t : Tag) (i : BitVec 9), s.goes (.vmovi d t i) →
      puts (.vmovi d t i) t false (fun _ => match s.me.hLimm with | some w => w.toNat | none => (i.signExtend 32).toNat)) ∧
    (s.goes (.vtag d a) → puts (.vtag d a) 1 false (fun _ => (s.tagField a 1).toNat)) ∧
    (s.goes (.vlaneid d) → puts (.vlaneid d) 1 false (fun l => l)) ∧
    (∀ t : Tag, s.goes (.vretag d a x t) →
      (s.tbit 1 = true ∨ s.routePend a.toNat x = false → puts (.vretag d a x t) t true (fun l =>
        match s.routeSrc x l with | some k => ((s.vfield a 1).lane k).toNat | none => 0)) ∧
      (s.tbit 1 = false → s.routePend a.toNat x = true → exec (.vretag d a x t) s = .next s.waitHere))

/-- R177, R192-R198: the one-source instructions, on a source whose tag they accept and that the register rules of pairs admit. An
ill-suited tag raises cause 0x10, and `SAT` where the result's format has no value to overflow into is illegal. The results are said
by value: `VCLZ` and `VFFS` name the highest and the lowest set bit, `VPOPC` counts and `VBREV` turns round the bits; a class is that
of the value; a sign changes alone, and the least integer has no other sign; a conversion to a float is one rounding of the value
(`FloatElementsRoundOnce`), one to an integer rounds to an integer and clamps with NV and SAT, an integer wraps, or clamps under SAT and
into a pair; `VUNPK` keeps the value. The special functions have the special values of R196, and never set NX or UF.
The model's choice in it: log 36, 37, 40. -/
def Obligations.VectorOneSourceResults : Prop :=
  (∀ (s : State) (d a : VReg) (x : Rt) (A : Src), s.vsrc 1 a x 1 = .ok A → A.pend = false →
    let t := A.tag
    let gives := fun (i : Instr) (ok : Bool) (res : Tag) (f : Nat → Nat × Fl) =>
      s.goes i →
      (ok = true → exec i s = .next (s.vdone d res A.uns ((List.range s.width).map (fun l => f (A.lanes.getD l 0))))) ∧
      (ok = false → s.satBad t = false → exec i s = .next (s.take 0x10 (tagDetail 1 false t)))
    let float := t == 3 || t == 4 || t == 5
    let count := fun (f : Nat → Nat → Nat) (v : Nat) => packElems t (fun i => (f (widthOf t) (elemOf t v i), 0))
    let special := fun (g : SFn) (v : Nat) => match fmtOf t with
      | some f => packElems t (fun i => g.eval f (s.satHint == 1) (elemOf t v i))
      | none => (0, 0)
    gives (.vmov d a x) true t (fun v => (v, 0)) ∧
    gives (.vnot d a x) true t (fun v => ((if t = 0xE then 2 ^ 64 else 2 ^ 32) - 1 - v, 0)) ∧
    gives (.vabs d a x) (numTag t && !s.satBad t) t (fun v => signLane t A.uns s.satHint (fun _ => false) (fun n => n.natAbs) v) ∧
    gives (.vneg d a x) (numTag t && !s.satBad t) t (fun v => signLane t A.uns s.satHint (fun n => !n) (fun n => -n) v) ∧
    (∀ f, fmtOf t = some f → gives (.vclass d a x) (decide (3 ≤ t.toNat) && decide (t.toNat ≤ 7)) 1 (fun v =>
      ((List.range (elemsOf t)).foldl (fun n i => n + classCode f (elemOf t v i) * 2 ^ (8 * i)) 0, 0))) ∧
    gives (.vclz d a x) (isInt t || t == 0xE) t (count clzN) ∧
    gives (.vffs d a x) (isInt t || t == 0xE) t (count ffsN) ∧
    gives (.vpopc d a x) (isInt t || t == 0xE) t (count popcN) ∧
    gives (.vbrev d a x) (isInt t || t == 0xE) t (count brevN) ∧
    gives (.vexp2 d a x) float t (special .exp2) ∧ gives (.vlog2 d a x) float t (special .log2) ∧
    gives (.vrcp d a x) float t (special .rcp) ∧ gives (.vrsq d a x) float t (special .rsq) ∧
    gives (.vsin d a x) float t (special .sin) ∧ gives (.vcos d a x) float t (special .cos) ∧
    (∀ e : BitVec 4, gives (.vunpk d a x e) (decide (4 ≤ t.toNat) && decide (t.toNat ≤ 13) && decide (e.toNat < elemsOf t))
      (if t.toNat ≤ 10 then 3 else 1) (fun v => (unpkElem t (elemOf t v e.toNat), 0))) ∧
    (s.satBad t = true → (s.goes (.vabs d a x) →
        exec (.vabs d a x) s = .next (s.take 0x01 0)) ∧
      (s.goes (.vneg d a x) → exec (.vneg d a x) s = .next (s.take 0x01 0))) ∧
    (∀ T : Tag, s.goes (.vcvt d a x T) → s.satBad T = false →
      ((fmtOf t).isSome = true → isInt T = true ∨ T = 0xE ∨ T = 0xF → s.satHint = 0) →
      exec (.vcvt d a x T) s = .next (s.vdone d (if T = 0xF then 0xE else T) (T == 0xF)
        ((List.range s.width).map (fun l => cvtLane s.rm s.satHint t A.uns T (A.lanes.getD l 0)))))) ∧
  (∀ (w x : Nat), 0 < w → x < 2 ^ w →
    (x = 0 → clzN w x = w ∧ ffsN w x = 0) ∧
    (x ≠ 0 → clzN w x < w ∧ 2 ^ (w - 1 - clzN w x) ≤ x ∧ x < 2 ^ (w - clzN w x)) ∧
    (x ≠ 0 → 0 < ffsN w x ∧ x.testBit (ffsN w x - 1) = true ∧ ∀ k, k < ffsN w x - 1 → x.testBit k = false) ∧
    popcN w x = (List.range w).countP (fun k => x.testBit k) ∧
    brevN w x < 2 ^ w ∧ ∀ k, k < w → (brevN w x).testBit k = x.testBit (w - 1 - k)) ∧
  (∀ (f : Fmt) (x : Nat), f ∈ floatFormats → x < 2 ^ f.width →
    (∀ g, FV.ofBits f x = .nan g → classCode f x = if g then 8 else 9) ∧
    (∀ n, FV.ofBits f x = .inf n → classCode f x = if n then 0 else 7) ∧
    (∀ n m e, FV.ofBits f x = .fin n m e →
      classCode f x = if m = 0 then (if n then 3 else 4) else if m < 2 ^ f.mb then (if n then 2 else 5) else (if n then 1 else 6))) ∧
  (∀ (t : Tag) (uns : Bool) (sat v i : Nat), i < elemsOf t →
    let w := widthOf t
    let e := elemOf t v i
    let absLane := signLane t uns sat (fun _ => false) (fun n => n.natAbs) v
    let negLane := signLane t uns sat (fun n => !n) (fun n => -n) v
    (∀ f, fmtOf t = some f →
      (∀ g, FV.ofBits f e = .nan g → elemOf t absLane.1 i = f.nanCode ∧ elemOf t negLane.1 i = f.nanCode) ∧
      ((∀ g, FV.ofBits f e ≠ .nan g) → elemOf t absLane.1 i = e % 2 ^ (w - 1) ∧ elemOf t negLane.1 i = (e + 2 ^ (w - 1)) % 2 ^ w)) ∧
    (t = 1 ∨ t = 0xC ∨ t = 0xD →
      let least := if sat = 1 then 2 ^ (w - 1) - 1 else 2 ^ (w - 1)
      elemOf t absLane.1 i = (if e < 2 ^ (w - 1) then e else if e = 2 ^ (w - 1) then least else 2 ^ w - e) ∧
      elemOf t negLane.1 i = (if e = 2 ^ (w - 1) then least else (2 ^ w - e) % 2 ^ w) ∧
      (absLane.2 = if sat = 1 ∧ ∃ j, j < elemsOf t ∧ elemOf t v j = 2 ^ (w - 1) then flSAT else 0) ∧ negLane.2 = absLane.2)) ∧
  (∀ (t : Tag) (uns : Bool) (x : Nat), x < 2 ^ widthOf t →
    let w := widthOf t
    (∀ f, fmtOf t = some f → elemVal t uns x = .f (FV.ofBits f x)) ∧
    (isInt t = true ∨ t = 0xE → elemVal t uns x = .i (if t = 2 ∨ (t = 0xE ∧ uns = true) ∨ x < 2 ^ (w - 1) then (x : Int) else (x : Int) - 2 ^ w)) ∧
    (t = 0xB → elemVal t uns x = .i (if x < 4 then (x : Int) else -((x - 4 : Nat) : Int))) ∧
    (∀ f, fmtOf t = some f → t ≠ 3 →
      (∀ g, FV.ofBits f x = .nan g → unpkElem t x = 0x7FC00000) ∧ (∀ n, FV.ofBits f x = .inf n → unpkElem t x = fmtF32.infCode n) ∧
      (∀ n m e, FV.ofBits f x = .fin n m e → ∃ m' e', FV.ofBits fmtF32 (unpkElem t x) = .fin n m' e' ∧
        scaled (min e e') n m e = scaled (min e e') n m' e')) ∧
    (isInt t = true ∨ t = 0xB → unpkElem t x < 2 ^ 32 ∧ elemVal t uns x = .i (if t = 2 ∨ unpkElem t x < 2 ^ 31 then (unpkElem t x : Int)
      else (unpkElem t x : Int) - 2 ^ 32))) ∧
  (∀ (rm sat : Nat) (T : Tag),
    let w := if T = 0xE ∨ T = 0xF then 64 else widthOf T
    let u := T == 2 || T == 0xF
    let v := fun (x : Nat) => if u = true ∨ x < 2 ^ (w - 1) then (x : Int) else (x : Int) - 2 ^ w
    let lo : Int := if u then 0 else -2 ^ (w - 1)
    let hi : Int := if u then 2 ^ w - 1 else 2 ^ (w - 1) - 1
    let whole := fun (neg : Bool) (m : Nat) (e : Int) => if 0 ≤ e then m * 2 ^ e.toNat else (rshr rm neg m (-e).toNat).1
    let nx := fun (m : Nat) (e : Int) => if e < 0 ∧ m % 2 ^ (-e).toNat ≠ 0 then flNX else 0
    let sign := fun (neg : Bool) => if neg then 4 else 0
    (∀ f, fmtOf T = some f →
      (∀ y, cvtTo rm sat T (.f y) = ((encFV f rm (satOn f sat) y).1,
        (encFV f rm (satOn f sat) y).2 ||| (if y = .nan true then flNV else 0))) ∧
      (∀ n : Int, cvtTo rm sat T (.i n) = encFV f rm (satOn f sat) (.fin (decide (n < 0)) n.natAbs 0))) ∧
    (isInt T = true ∨ T = 0xE ∨ T = 0xF →
      (∀ g, cvtTo rm sat T (.f (.nan g)) = (0, flNV)) ∧
      (∀ neg, let r := cvtTo rm sat T (.f (.inf neg)); r.1 < 2 ^ w ∧ v r.1 = (if neg then lo else hi) ∧ r.2 = flNV ||| flSAT) ∧
      (∀ neg m e,
        let r := cvtTo rm sat T (.f (.fin neg m e))
        let z := scaled 0 neg (whole neg m e) 0
        r.1 < 2 ^ w ∧ v r.1 = max lo (min hi z) ∧ r.2 = if z < lo ∨ hi < z then flNV ||| flSAT else nx m e) ∧
      (∀ n : Int,
        let r := cvtTo rm sat T (.i n)
        r.1 < 2 ^ w ∧
        (sat = 1 ∨ T = 0xE ∨ T = 0xF → v r.1 = max lo (min hi n) ∧ r.2 = if n < lo ∨ hi < n then flSAT else 0) ∧
        (sat ≠ 1 → T ≠ 0xE → T ≠ 0xF → ((r.1 : Int) - n) % 2 ^ w = 0 ∧ r.2 = 0))) ∧
    (T = 0xB →
      (∀ g, cvtTo rm sat T (.f (.nan g)) = (0, flNV)) ∧ (∀ neg, cvtTo rm sat T (.f (.inf neg)) = (sign neg + 3, flNV ||| flSAT)) ∧
      (∀ neg m e, cvtTo rm sat T (.f (.fin neg m e)) = if 3 < whole neg m e then (sign neg + 3, flNV ||| flSAT)
        else (sign neg + whole neg m e, nx m e)) ∧
      (∀ n : Int, cvtTo rm sat T (.i n) = if 3 < n.natAbs then (sign (decide (n < 0)) + 3, flSAT)
        else (sign (decide (n < 0)) + n.natAbs, 0)))) ∧
  (∀ (rm sat : Nat) (t T : Tag) (uns : Bool) (x : Nat),
    let r := cvtLane rm sat t uns T x
    let c := fun (i : Nat) => cvtTo rm sat T (elemVal t uns (elemOf t x i))
    (t = T → ¬(t = 0xE ∧ uns = true) → r = (x, 0)) ∧ (T = 0xF → t = 0xE → uns = true → r = (x, 0)) ∧
    (T = 0xF → ¬(t = 0xE ∧ uns = true) → t ≠ T → r = c 0) ∧
    (T ≠ 0xF → t ≠ T ∨ (t = 0xE ∧ uns = true) →
      (∀ i, i < elemsOf T → elemOf T r.1 i = if i < elemsOf t then (c i).1 % 2 ^ widthOf T else 0) ∧
      r.2 = (List.range (elemsOf T)).foldl (fun m i => m ||| (if i < elemsOf t then (c i).2 else 0)) 0)) ∧
  (∀ (g : SFn) (f : Fmt) (sat : Bool) (b : Nat), f ∈ [fmtF32, fmtBF16, fmtF16] →
    let r := g.eval f sat b
    let one := f.bias.toNat * 2 ^ f.mb
    r.2 &&& (flNX ||| flUF) = 0 ∧
    (∀ q, FV.ofBits f b = .nan q → r = (f.nanCode, if q then flNV else 0)) ∧
    (∀ n, FV.ofBits f b = .inf n → r = match g with
      | .exp2 => if n then (0, 0) else (f.infCode false, 0)
      | .log2 => if n then (f.nanCode, flNV) else (f.infCode false, 0)
      | .rcp => (f.signBit n, 0)
      | .rsq => if n then (f.nanCode, flNV) else (0, 0)
      | .sin | .cos => (f.nanCode, flNV)) ∧
    (∀ n e, FV.ofBits f b = .fin n 0 e → r = match g with
      | .exp2 | .cos => (one, 0)
      | .log2 => (f.infCode true, flDZ)
      | .rcp | .rsq => (f.infCode n, flDZ)
      | .sin => (f.signBit n, 0)) ∧
    (∀ m e, m ≠ 0 → FV.ofBits f b = .fin true m e → g = .log2 ∨ g = .rsq → r = (f.nanCode, flNV)))

/-- R181, R182, R200, R201: the route registers take their kind and parameter, and a pattern table the low six bits of the active
lanes. `VREDUCE` combines the active lanes by the fixed tree of R200, in which a lane that is not active passes its partner on, and
gives the result, or the identity, to a scalar register; `VSCAN` combines them in ascending order, gives each active lane what stands
at its place, and the whole to a scalar register. The sum of integers is the exact sum. A tag that is not accepted raises cause 0x10.
The model's choice in it: log 34. -/
def Obligations.RoutesTablesReductions : Prop :=
  ∀ (s : State) (a d : VReg) (x q : Rt) (sd : SReg) (k o : BitVec 3) (p : BitVec 6) (n : BitVec 4) (A : Src),
    let routes := fun (i : Instr) (v : BitVec 6) => s.goes i → Completes i s (fun t => Quiet s t ∧ s.advanced t ∧
      (t.fib s.actor).regs = { s.me.regs with q := Tbl.set s.me.q q.toNat { kind := k, param := v } })
    let wrong := fun (i : Instr) => exec i s = .next (s.take 0x10 (tagDetail 1 false A.tag))
    let sum : Int := (s.active.map (fun l => intOf 32 (A.tag == 2) (A.lanes.getD l 0))).sum
    let of := fun (l : Nat) => Red.ofLane A.tag (A.lanes.getD l 0)
    routes (.route q k p) p ∧
    routes (.routeS q k sd) (BitVec.ofNat 6 ((s.sreg sd.toNat).toNat % (if k = 4 then 16 else 64))) ∧
    (s.vsrc 1 a x 1 = .ok A → A.pend = false →
      (s.goes (.ptld n a x) →
        (A.tag ≠ 1 → A.tag ≠ 2 → wrong (.ptld n a x)) ∧
        (A.tag = 1 ∨ A.tag = 2 → Completes (.ptld n a x) s (fun t =>
          (∀ b, t.hbm b = s.hbm b) ∧ (t.fib s.actor).regs = s.me.regs ∧ s.advanced t ∧
          (∀ g j, g ≠ s.actor.wg ∨ j < 64 * n.toNat ∨ 64 * n.toNat + 64 ≤ j → t.ptByte g j = s.ptByte g j) ∧
          ∀ l, l < 64 → t.ptByte s.actor.wg (64 * n.toNat + l) =
            if l ∈ s.active then BitVec.ofNat 8 (A.lanes.getD l 0 % 64) else s.ptByte s.actor.wg (64 * n.toNat + l)))) ∧
      (s.goes (.vreduce a x sd o) →
        let ok := A.tag = 1 ∨ A.tag = 2 ∨ (A.tag = 3 ∧ o.toNat < 3)
        (¬ok → wrong (.vreduce a x sd o)) ∧
        (∀ T : Nat → Nat → Option Red, ok → s.width ≤ 64 →
          (∀ l, T 0 l = if l < s.width ∧ s.me.mask.getLsbD l = true then some (of l) else none) →
          (∀ h l, T (h + 1) l = match T h (2 * l), T h (2 * l + 1) with
            | some u, some v => some (Red.comb o.toNat A.tag s.rm s.satHint u v)
            | some u, none => some u
            | none, v => v) →
          let r := (T 6 0).getD (Red.ident o.toNat A.tag)
          Completes (.vreduce a x sd o) s (fun t => Quiet s t ∧ s.advanced t ∧ (t.fib s.actor).regs = { s.me.regs with
            s := Tbl.set s.me.s sd.toNat (if A.tag = 3 then BitVec.ofNat 64 r.x else BitVec.ofInt 64 r.i)
            sticky := s.me.sticky ||| r.fl }) ∧
          (o = 0 → A.tag ≠ 3 → r.i = sum))) ∧
      (s.goes (.vscan d a x sd o) →
        let ok := A.tag = 1 ∨ A.tag = 2 ∨ (A.tag = 3 ∧ o.toNat < 4)
        let op := match o.toNat with | 0 => 0 | 1 => 0 | 2 => 1 | 3 => 2 | _ => 4
        (¬ok → wrong (.vscan d a x sd o)) ∧
        (∀ P : Nat → Red, ok → P 0 = Red.ident op A.tag →
          (∀ l, P (l + 1) = if s.me.mask.getLsbD l then Red.comb op A.tag s.rm s.satHint (P l) (of l) else P l) →
          let r := P s.width
          let w : DWord := if A.tag = 3 then BitVec.ofNat 64 r.x else BitVec.ofInt 64 r.i
          (∃ outs, exec (.vscan d a x sd o) s = .next (((s.setS sd.toNat w).raise r.fl).vdone d A.tag false outs) ∧
            ∀ l, l ∈ s.active → outs.getD l (0, 0) = scanOut o.toNat A.tag s.satHint (P (if o = 1 then l else l + 1))) ∧
          (o.toNat < 2 → A.tag ≠ 3 → r.i = sum))))

-- Load-store engine ---------------------------------------------------------------------------------------------------------

/-- R219-R226, R229-R231, R233: the address of a lane is s[SB] + offset + LIMM, its offset an I32, U32 or I64 value of VA; another tag is a
tag mismatch. A unit with a misaligned lane, or with a lane whose access fails, faults with the lowest such lane's cause and address and
the lanes that fail so; one that misses a translation waits for its walks. A load whose lanes pass and find free entries is posted: it
sets the tags of its destination registers at issue and leaves every value alone; without entries, or with its flag full, it waits in
place. `PREF` faults never, changes no register, and asks for a sector of its lanes or for nothing.
The model's choice in it: log 43. -/
def Obligations.LoadsIssue : Prop :=
  (∀ (s : State) (size : Nat) (lanes : List (Nat × DWord)) (chk : DWord → Access),
    let odd := lanes.filter (fun e => e.2.toNat % size != 0)
    (∀ l a rest, odd = (l, a) :: rest → s.checkLanes size lanes chk = .fault 0x22 0 a (maskOf (odd.map (·.1))) l) ∧
    (odd = [] →
      ((∃ e, e ∈ lanes ∧ s.deadCheck (chk e.2) = .miss) → ∃ vas, s.checkLanes size lanes chk = .miss vas ∧
        ∀ va, va ∈ vas ↔ ∃ e, e ∈ lanes ∧ e.2 = va ∧ s.deadCheck (chk va) = .miss) ∧
      ((∀ e, e ∈ lanes → s.deadCheck (chk e.2) ≠ .miss) →
        (∀ pre l a post c dt, lanes = pre ++ (l, a) :: post → (∀ e, e ∈ pre → ∃ x t, s.deadCheck (chk e.2) = .at x t) →
          s.deadCheck (chk a) = .fail c dt → ∃ m, s.checkLanes size lanes chk = .fault c dt a m l ∧
            ∀ k, k < 64 → (m.getLsbD k = true ↔ ∃ e dt', e ∈ lanes ∧ e.1 = k ∧ s.deadCheck (chk e.2) = .fail c dt')) ∧
        ((∀ e, e ∈ lanes → ∃ x t, s.deadCheck (chk e.2) = .at x t) → ∃ ls, s.checkLanes size lanes chk = .ok ls ∧
          ls.length = lanes.length ∧ ∀ (i l : Nat) (a : DWord), lanes[i]? = some (l, a) → ∃ x t, ls[i]? = some (l, x, t) ∧ s.deadCheck (chk a) = .at x t)))) ∧
  (∀ (s : State) (a : VReg),
    let v := s.vwin a.toNat
    let t := s.vtagOf a.toNat
    let pairs := t = 0xE ∧ a.toNat % 2 = 0
    (t = 1 → ∃ off, s.laneOffs a.toNat = .ok off ∧ ∀ l, off l = (v.lane l).signExtend 64) ∧
    (t = 2 → ∃ off, s.laneOffs a.toNat = .ok off ∧ ∀ l, off l = (v.lane l).setWidth 64) ∧
    (pairs → s.me.base.toNat + a.toNat + 1 < s.myWg.regs → s.vtagOf (a.toNat + 1) = 0xF →
      ∃ off, s.laneOffs a.toNat = .ok off ∧ ∀ l, off l = (s.vwin (a.toNat + 1)).lane l ++ v.lane l) ∧
    (pairs → s.myWg.regs ≤ s.me.base.toNat + a.toNat + 1 → s.laneOffs a.toNat = .error (0x05, 1)) ∧
    (pairs → s.me.base.toNat + a.toNat + 1 < s.myWg.regs → s.vtagOf (a.toNat + 1) ≠ 0xF →
      s.laneOffs a.toNat = .error (0x10, tagDetail 1 true (s.vtagOf (a.toNat + 1)))) ∧
    (t ≠ 1 → t ≠ 2 → ¬pairs → s.laneOffs a.toNat = .error (0x10, tagDetail 1 false t))) ∧
  ∀ (s : State) (d a : VReg) (b e : SReg) (t : Tag) (n : BitVec 3) (f p : BitVec 1) (x : BitVec 8),
    let base := s.me.base.toNat
    let fl := s.flagSel f
    let look := fun (ls : List (Nat × Loc × Option TLeaf)) => (s.sectorParts s.hint ls).map (s.lookup s.myWg.cu)
    let load := fun (i : Instr) (k : OpKind) (size : Nat) (lanes : List (Nat × DWord)) (tags : List Tag) =>
      s.goes i →
        (∀ c dt ad m l, s.checkLanes size lanes (fun va => s.accessMe va .read) = .fault c dt ad m l →
          exec i s = .next (s.takeAt c dt ad m (some l)).dropWalks) ∧
        (∀ vas, s.checkLanes size lanes (fun va => s.accessMe va .read) = .miss vas → exec i s = .next (s.joinWalks vas).waitHere) ∧
        (∀ ls, s.checkLanes size lanes (fun va => s.accessMe va .read) = .ok ls →
          (¬s.missRoom (look ls) ∨ ¬s.flagFree fl → exec i s = .next s.waitHere) ∧
          (s.missRoom (look ls) → s.flagFree fl → Completes i s (fun u => s.posted u k fl (look ls) ∧ s.tagged u d.toNat tags)))
    (let forms := fun (P : Instr → OpKind → Nat → List Tag → Prop) =>
       P (.ld32 d a b t f) (.load (.vec (base + d.toNat) 4 0)) 4 [t] ∧
       P (.ld64 d a b t f) (.load (.vec (base + d.toNat) 8 0)) 8 (if t = 0xE then [0xE, 0xF] else [t, t]) ∧
       P (.ld128 d a b t f) (.load (.vec (base + d.toNat) 16 0)) 16 [t, t, t, t] ∧
       P (.ldN d a b n f) (.load (.vec (base + d.toNat) (if n.toNat < 2 then 1 else 2) (n.toNat + 1)))
         (if n.toNat < 2 then 1 else 2) [if n.toNat = 0 ∨ n.toNat = 2 then 1 else if n.toNat = 1 ∨ n.toNat = 3 then 2 else 3]
     (∀ off, s.laneOffs a.toNat = .ok off → forms (fun i k size tags => load i k size (s.laneAddrs off b.toNat) tags)) ∧
     (∀ c dt, s.laneOffs a.toNat = .error (c, dt) → forms (fun i _ _ _ => s.goes i → exec i s = .next (s.take c dt)))) ∧
    (∀ off, ∀ q, q ∈ s.laneAddrs off b.toNat → s.me.mask.getLsbD q.1 = true ∧ q.2 = s.sreg b.toNat + off q.1 + s.limmDisp) ∧
    (let size := if n.toNat < 2 then 1 else if n.toNat < 4 then 2 else if n.toNat < 6 then 4 else 8
     load (.lds e b n f x) (.load (.scal e.toNat size (n.toNat % 2 == 0))) size [(0, s.scalAddr b x)] []) ∧
    load (.ldb d b t f) (.load (.bcast (base + d.toNat))) 4 [(0, s.sreg b.toNat + s.limmDisp)] [t] ∧
    (let va := s.sreg b.toNat + s.limmDisp
     (∀ c dt, s.goes (.ldw d b f) → s.windowReg va = .error (c, dt) → exec (.ldw d b f) s = .next (s.takeAt c dt va 0 none)) ∧
     (∀ k r, s.goes (.ldw d b f) → s.windowReg va = .ok (k, r) →
       let free := s.pendingV s.actor r &&& s.me.mask = 0 ∨ k ≠ s.actor.slot
       (¬free ∨ ¬s.flagFree fl → exec (.ldw d b f) s = .next s.waitHere) ∧
       (free → s.flagFree fl → Completes (.ldw d b f) s (fun u => s.tagged u d.toNat [] ∧
         s.posted u (.load (.reg (base + d.toNat))) fl [regPart s.actor.wg k (r * s.width * 4) []])))) ∧
    (s.goes (.pref a b p) →
      (∀ c, s.laneOffs a.toNat = .error c → exec (.pref a b p) s = .next s.retire) ∧
      Completes (.pref a b p) s (fun u => Kept s u ∧ s.advanced u ∧ s.tagged u 0 [] ∧
        (∀ o, o ∈ u.ops → o ∈ s.ops ∨ (p = 0 ∧ o.kind = .load .none ∧ o.cls = 0 ∧ ∀ c, c ∈ o.counts → c.flag = none)) ∧
        ∀ off l, s.laneOffs a.toNat = .ok off → s.active = [l] →
          let va := s.sreg b.toNat + off l + s.limmDisp
          va.toNat % 4 = 0 →
          (∀ loc leaf, s.accessMe va .read = .at loc leaf → cacheable loc leaf = true →
            let q := s.lookup s.myWg.cu { mkPart s.hint loc leaf with lanes := [(0, loc.off)] }
            (p = 0 → q.st = .todo → q.alloc = true → q.joined = false → s.missUsed s.myWg.cu < 4096 →
              ∃ o, o ∈ u.ops ∧ o.id = s.nextId ∧ o.kind = .load .none ∧ o.cu = s.myWg.cu ∧ o.parts = [q]) ∧
            (p = 1 → inHbm loc.pa = true → s.myWg.ctx ≠ 0 → Tbl.has u.owners (blockOf loc.pa) = true)) ∧
          (s.accessMe va .read = .miss → (s.cu s.myWg.cu).coal.length < 256 →
            ∃ c q, c ∈ (u.cu s.myWg.cu).coal ∧ c.asid = s.myCtx.asid ∧ c.page = va &&& ~~~ 0xFFF#64 ∧ q ∈ c.prefs ∧ q.va = va)))

/-- R227-R229, R233-R235: a store with an INVALID data register is a tag mismatch; its lanes are checked as a load's. One whose lanes pass
is posted with the bytes of its registers for each sector, and memory changes only when the request is performed; without entries, or
with its flag full, it waits in place. `STW` sends a whole register with its tag. `CLST` checks its offsets, its target and its data and
sends its lanes' bytes to the scratchpad of every rank it names.
The model's choice in it: log 43. -/
def Obligations.StoresIssue : Prop :=
  ∀ (s : State) (d a : VReg) (b e : SReg) (n f : BitVec 1) (m : BitVec 2) (x : BitVec 8),
    let fl := s.flagSel f
    let invalid := fun (k : Nat) => ∃ i, i < k ∧ s.vtagOf (d.toNat + i) = 0
    let emits := fun (i : Instr) (parts : List Part) =>
      (s.writeRoom parts → s.flagFree fl → Completes i s (fun u => s.posted u .store fl parts ∧ s.tagged u 0 [])) ∧
      (¬s.writeRoom parts ∨ ¬s.flagFree fl → exec i s = .next s.waitHere)
    let store := fun (i : Instr) (size : Nat) (lanes : List (Nat × DWord)) (bytes : Nat → List Byte) =>
      s.goes i →
        (∀ c dt ad mk l, s.checkLanes size lanes (fun va => s.accessMe va .write) = .fault c dt ad mk l →
          exec i s = .next (s.takeAt c dt ad mk (some l)).dropWalks) ∧
        (∀ vas, s.checkLanes size lanes (fun va => s.accessMe va .write) = .miss vas → exec i s = .next (s.joinWalks vas).waitHere) ∧
        (∀ ls, s.checkLanes size lanes (fun va => s.accessMe va .write) = .ok ls → emits i (withBytes (s.sectorParts s.hint ls) bytes))
    let vec := fun (i : Instr) (size : Nat) =>
      (∀ dt, s.goes i → s.laneOffs a.toNat = .error (0x05, dt) → exec i s = .next (s.take 0x05 dt)) ∧
      (s.goes i → (∀ dt, s.laneOffs a.toNat ≠ .error (0x05, dt)) → invalid ((size + 3) / 4) →
        exec i s = .next (s.take 0x10 (tagDetail 0 false 0))) ∧
      (∀ dt, s.goes i → ¬invalid ((size + 3) / 4) → s.laneOffs a.toNat = .error (0x10, dt) → exec i s = .next (s.take 0x10 dt)) ∧
      (∀ off, s.laneOffs a.toNat = .ok off → ¬invalid ((size + 3) / 4) → store i size (s.laneAddrs off b.toNat) (s.laneBytes d.toNat size))
    vec (.st32 d a b f) 4 ∧ vec (.st64 d a b f) 8 ∧ vec (.st128 d a b f) 16 ∧
    vec (.stN d a b n f) (if n = 0 then 1 else 2) ∧
    (∀ l, l < 64 → s.laneBytes d.toNat 1 l = leBytes ((s.vwin d.toNat).lane l).toNat 1 ∧
      s.laneBytes d.toNat 2 l = leBytes ((s.vwin d.toNat).lane l).toNat 2 ∧
      s.laneBytes d.toNat 4 l = leBytes ((s.vwin d.toNat).lane l).toNat 4 ∧
      s.laneBytes d.toNat 8 l = leBytes ((s.vwin d.toNat).lane l).toNat 4 ++ leBytes ((s.vwin (d.toNat + 1)).lane l).toNat 4 ∧
      s.laneBytes d.toNat 16 l = s.laneBytes d.toNat 8 l ++ s.laneBytes (d.toNat + 2) 8 l) ∧
    store (.sts e b m f x) (2 ^ m.toNat) [(0, s.scalAddr b x)] (fun _ => leBytes (s.sreg e.toNat).toNat (2 ^ m.toNat)) ∧
    (s.goes (.stw d b f) →
      let va := s.sreg b.toNat + s.limmDisp
      let i := Instr.stw d b f
      (∀ c dt, s.windowReg va = .error (c, dt) → exec i s = .next (s.takeAt c dt va 0 none)) ∧
      (∀ k r, s.windowReg va = .ok (k, r) →
        let free := s.pendingV s.actor r &&& s.me.mask = 0 ∨ k ≠ s.actor.slot
        (s.vtagOf d.toNat = 0 → exec i s = .next (s.take 0x10 (tagDetail 0 false 0))) ∧
        (s.vtagOf d.toNat ≠ 0 → ¬free ∨ ¬s.flagFree fl → exec i s = .next s.waitHere) ∧
        (s.vtagOf d.toNat ≠ 0 → free → s.flagFree fl → Completes i s (fun u => s.tagged u 0 [] ∧ s.posted u .store fl
          [regPart s.actor.wg k (r * s.width * 4) ({ s.vwin d.toNat with tag := s.vtagOf d.toNat }.bytes s.width)])))) ∧
    (s.goes (.clst d a b m f) →
      let i := Instr.clst d a b m f
      let tgt := s.sreg b.toNat
      let c := s.cluster s.myWg.cluster
      let size := 4 * 2 ^ m.toNat
      let ranks := (List.range 16).filter (fun r => tgt.getLsbD (32 + r))
      let fits := fld tgt 48 16 = 0 ∧ fld tgt 21 11 = 0 ∧ ranks ≠ [] ∧ ∀ r, r ∈ ranks → r < c.cw * c.ch
      (∀ er, s.laneOffs a.toNat = .error er → exec i s = .next (s.take er.1 er.2)) ∧
      (∀ off, s.laneOffs a.toNat = .ok off →
        let os := s.active.map (fun l => (l, (BitVec.ofNat 64 (fld tgt 0 21) + off l + s.limmDisp).toNat))
        let odd := os.filter (fun q => q.2 % size != 0)
        let beyond := os.filter (fun q => decide (s.myWg.ssize < q.2 + size))
        let parts := withBytes (s.sectorParts 0 (ranks.flatMap (fun r => match s.rankWg s.myWg.cluster r with
          | some g => os.map (fun q => (q.1, Loc.scratch g q.2, (none : Option TLeaf)))
          | none => []))) (s.laneBytes d.toNat size)
        (∀ l o r, odd = (l, o) :: r → exec i s = .next (s.takeAt 0x22 0 (BitVec.ofNat 64 o) (maskOf (odd.map (·.1))) (some l))) ∧
        (odd = [] → ¬fits → exec i s = .next (s.takeAt 0x20 (xDetail 1 0) tgt 0 none)) ∧
        (∀ l o r, odd = [] → fits → beyond = (l, o) :: r →
          exec i s = .next (s.takeAt 0x20 (xDetail 1 0) (BitVec.ofNat 64 o) (maskOf (beyond.map (·.1))) (some l))) ∧
        (odd = [] → fits → beyond = [] → invalid (2 ^ m.toNat) → exec i s = .next (s.take 0x10 (tagDetail 0 false 0))) ∧
        (odd = [] → fits → beyond = [] → ¬invalid (2 ^ m.toNat) → emits i parts)))

/-- R62, R81, R82, R84, R85, R93, R220, R221, R226, R229, R230: a load's request is read at its home in its turn, under a lease with the
stores of its CU laid beyond what the home holds, or without one and without the L1 copy; it then gives each lane its bits, the pending bits
clean, or the scalar register its extended value, and the observed time to the fibres it counts for, and a lease fills L1. A store's
request puts its bytes in memory and nothing else, is done when its reply is there, and completes when the lease time of its CU has
reached its GWCT.
The model's choice in it: log 5, 55, 153, 154. -/
def Obligations.LoadsAndStoresArePerformed : Prop :=
  (∀ x : Nat, (x < 256 → extendN 1 x = (BitVec.ofNat 8 x).signExtend 32 ∧ extendN 2 x = BitVec.ofNat 32 x) ∧
    (x < 65536 → extendN 3 x = (BitVec.ofNat 16 x).signExtend 32 ∧ extendN 4 x = BitVec.ofNat 32 x ∧
      extendN 6 x = BitVec.ofNat 32 (x * 65536) ∧
      (let w := (extendN 5 x).toNat
       let e := x / 1024 % 32
       w / 2 ^ 31 = x / 2 ^ 15 ∧ (x % 2 ^ 15 = 0 → w % 2 ^ 31 = 0) ∧
       (e = 31 → w / 2 ^ 23 % 256 = 255 ∧ w % 2 ^ 23 = x % 1024 * 2 ^ 13) ∧
       (0 < e → e < 31 → w / 2 ^ 23 % 256 = e + 112 ∧ w % 2 ^ 23 = x % 1024 * 2 ^ 13) ∧
       (e = 0 → x % 1024 ≠ 0 → (2 ^ 23 + w % 2 ^ 23) * 2 ^ (w / 2 ^ 23 % 256) = x % 1024 * 2 ^ 126)))) ∧
  ∀ (s : State) (id k pa : Nat) (o : Op) (p : Part), s.op id = some o → o.parts[k]? = some p → p.loc = .mem pa →
    let part := fun (t : State) => (t.op id).bind (fun q => q.parts[k]?)
    let live := fun (r : FRef) => (s.fib r).st ≠ .absent ∧ Tbl.has o.holders (s.fib r).fid = true
    let last := ∀ j q, j ≠ k → o.parts[j]? = some q → q.st = .done
    let home := s.hbmBytes pa 32
    (∀ d, o.kind = .load d → p.st = .todo → inHbm pa = true →
      let free := s.poisoned pa = false ∧ s.mustFollow o p false = false ∧ ¬(p.joined = true ∧ s.missEntry o.cu p.loc = true)
      (¬free → pa % 32 = 0 → exec (.homeRead id k) s = .next s) ∧
      (free → pa % 32 = 0 →
        (∀ n, p.lease = some n → Completes (.homeRead id k) s (fun t => Kept s t ∧ ∃ q, part t = some q ∧ q.st = .bound ∧
          q.data = s.merge o p.loc home true ∧ q.wvt = (s.secMeta pa).wvt ∧ q.expiry = s.sliceTime (homeOf pa) + n ∧
          s.sliceTime (homeOf pa) + n < (t.secMeta pa).recExp)) ∧
        (p.lease = none → Completes (.homeRead id k) s (fun t => Kept s t ∧ t.l1Hit o.cu pa = none ∧
          ∃ q, part t = some q ∧ q.st = .bound ∧ q.data = home ∧ q.wvt = (s.secMeta pa).wvt)))) ∧
    (let filled := fun (P : State → Prop) => Completes (.sectorFill id k) s (fun t => (∀ a, t.hbm a = s.hbm a) ∧ P t ∧
       (∀ q, part t = some q → q.st = .done) ∧
       (∀ r, live r → last → Nat.max (s.fib r).ot (Nat.max o.ot p.wvt) ≤ (t.fib r).ot) ∧ (last → ∀ q, q ∈ t.ops → q.id ≠ id) ∧
       (p.lease.isSome → p.joined = false → p.alloc = true → pa % 32 = 0 → ∃ x, x ∈ (t.cu o.cu).l1 ∧ x.pa = pa ∧
         x.data = s.merge o p.loc home false ∧ x.expiry = p.expiry ∧ x.wvt = (s.secMeta pa).wvt))
     let ready := p.st = .bound ∧ (p.lease.isSome → s.poisoned pa = false) ∧ inHbm pa = true ∧ last
     let lanes := fun (vd n : Nat) (f : Nat → Tag → Nat → Word) => filled (fun t =>
       (∀ g w x, (t.vreg g w x).tag = (s.vreg g w x).tag) ∧
       (∀ g w x, (g, w) ≠ (o.who.wg, o.who.slot) ∨ x < vd ∨ vd + n ≤ x → t.vreg g w x = s.vreg g w x) ∧
       ∀ i, i < n → (∀ l off, (l, off) ∈ p.lanes →
         (t.vreg o.who.wg o.who.slot (vd + i)).lane l = f i (s.vreg o.who.wg o.who.slot (vd + i)).tag off) ∧
         ∀ l, l ∉ p.lanes.map (·.1) → (t.vreg o.who.wg o.who.slot (vd + i)).lane l = (s.vreg o.who.wg o.who.slot (vd + i)).lane l)
     (∀ vd n, ready → (p.lanes.map (·.1)).Nodup → (∀ l, l ∈ p.lanes → l.1 < 64) → o.kind = .load (.vec vd (4 * n) 0) → n ∈ [1, 2, 4] →
       lanes vd n (fun i tag off =>
         let x := leNat ((p.data.drop (off + 4 * i)).take 4)
         if tag = 0x8 ∨ tag = 0x9 ∨ tag = 0xB then BitVec.ofNat 32 (x % 2 ^ 30) else BitVec.ofNat 32 x)) ∧
     (∀ vd n ext, ready → (p.lanes.map (·.1)).Nodup → (∀ l, l ∈ p.lanes → l.1 < 64) → o.kind = .load (.vec vd n ext) → 1 ≤ ext →
       lanes vd 1 (fun _ _ off => extendN ext (leNat ((p.data.drop off).take n)))) ∧
     (∀ vd, ready → o.kind = .load (.bcast vd) → filled (fun t =>
       let v := s.vreg o.who.wg o.who.slot vd
       let x := leNat ((p.data.drop (p.lanes.headD (0, 0)).2).take 4)
       (t.vreg o.who.wg o.who.slot vd).tag = v.tag ∧
       (∀ l, l < (s.wg o.who.wg).warp → (t.vreg o.who.wg o.who.slot vd).lane l = if o.lanes.getLsbD l then
         (if v.tag = 0x8 ∨ v.tag = 0x9 ∨ v.tag = 0xB then BitVec.ofNat 32 (x % 2 ^ 30) else BitVec.ofNat 32 x) else v.lane l) ∧
       ∀ g w n, (g, w, n) ≠ (o.who.wg, o.who.slot, vd) → t.vreg g w n = s.vreg g w n)) ∧
     (∀ sd n sg, ready → o.kind = .load (.scal sd n sg) → n ∈ [1, 2, 4, 8] → filled (fun t =>
       let x := leNat ((p.data.drop (p.lanes.headD (0, 0)).2).take n)
       ∀ r, live r → Tbl.get (t.fib r).s sd 0 =
         if sg then BitVec.ofInt 64 (if x < 2 ^ (8 * n - 1) then (x : Int) else (x : Int) - 2 ^ (8 * n)) else BitVec.ofNat 64 x))) ∧
    (o.kind = .store → p.st = .todo → pa % 32 = 0 → pa + 32 ≤ hbmEnd → (∀ w, w ∈ p.wr → w.1 < 32) → s.memOk →
      (s.mustFollow o p true = true → exec (.writeThrough id k) s = .next s) ∧
      (s.mustFollow o p true = false → Completes (.writeThrough id k) s (fun t =>
        (∀ a, t.hbm a = match p.wr.reverse.find? (fun w => pa + w.1 == a) with | some w => w.2 | none => s.hbm a) ∧
        (∀ r, (t.fib r).regs = (s.fib r).regs) ∧ (∀ g w n, t.vreg g w n = s.vreg g w n) ∧
        (p.wr ≠ [] → t.guardTag pa = 0) ∧ ∃ q, part t = some q ∧ q.st = .performed))) ∧
    (o.kind = .store → p.st = .performed →
      (¬last → Completes (.gwctReply id k) s (fun t => Kept s t ∧ ∃ q, part t = some q ∧ q.st = .done)) ∧
      (last → o.scope.code ≤ 3 → o.sticky = 0 → o.fault = none →
        Completes (.gwctReply id k) s (fun t => Kept s t ∧ ∀ q, q ∈ t.ops → q.id ≠ id))) ∧
    (o.kind = .store → o.st = .settling → o.sticky = 0 → o.fault = none →
      (o.gwct ≤ s.lease o.cu → Completes (.gwctWaitEnd id) s (fun t => Kept s t ∧ ∀ q, q ∈ t.ops → q.id ≠ id)) ∧
      (s.lease o.cu < o.gwct → 4 ≤ o.scope.code → (o.cls &&& clsWrites) ≠ 0 → Completes (.gwctWaitEnd id) s (fun t =>
        Kept s t ∧ t.op id = some o)))

/-- R88, R89: a fence is entered, and ends when its predecessors are performed at its scope with their lease waits; so do the fences of
fibres that a rejoin or a merge has joined to this one. R104, R236-R238: a
monitor's address is checked in the rule's order; the monitor is posted, takes one of its slice's 256 entries with its first test or queues
for one, is satisfied by the value it finds or by the first write after which its condition holds, and its completion gives that value to
s[SV]. -/
def Obligations.FencesAndMonitors : Prop :=
  (∀ (c : MonCond) (x : DWord), c.size = 4 ∨ c.size = 8 →
    let w := 8 * c.size
    let v := c.v.toNat % 2 ^ w
    let m := x.toNat % 2 ^ w
    c.holds x = true ↔ match c.op.toNat with
      | 0 => m = v | 1 => m ≠ v | 2 => v ≤ m | 3 => m < v
      | 4 => (BitVec.ofNat w v).toInt ≤ (BitVec.ofNat w m).toInt | 5 => (BitVec.ofNat w m).toInt < (BitVec.ofNat w v).toInt
      | 6 => ∃ k, m.testBit k = true ∧ v.testBit k = true | 7 => ∀ k, ¬(m.testBit k = true ∧ v.testBit k = true) | _ => False) ∧
  ∀ s : State,
    (∀ p q c sc, s.goes (.fence p q c) → scopeOf c.toNat = some sc → Completes (.fence p q c) s (fun t =>
      Quiet s t ∧ s.advanced t ∧ (t.fib s.actor).regs = s.me.regs ∧ (t.fib s.actor).fence =
        some { pred := p, succ := q, scope := sc, mark := s.nextId, pc := s.me.unitPc })) ∧
    (∀ r, let f := s.fib r
      let on := fun (fe : FenceSt) =>
        !s.earlierDone r fe.mark fe.pred fe.scope (decide (fe.pred &&& clsReads ≠ 0 ∧ fe.succ &&& clsWrites ≠ 0))
      (f.st = .absent ∨ ((∀ fe, f.fence = some fe → on fe = true) ∧ ∀ fe, fe ∈ f.fences → on fe = true) →
        exec (.fenceComplete r) s = .next s) ∧
      (f.st ≠ .absent → Completes (.fenceComplete r) s (fun t => Quiet s t ∧ (∀ q, q ≠ r → t.fib q = s.fib q) ∧
        t.fib r = { f with fence := f.fence.filter on, fences := f.fences.filter on }))) ∧
    (∀ (a v : SReg) (c : BitVec 4) (z f : BitVec 1), s.goes (.waitc a v c z f) →
      let i := Instr.waitc a v c z f
      let va := s.sreg a.toNat
      let k := if z = 1 then 8 else 4
      let window := inWindow va = true ∧ canonical va = true ∧ (s.winLoc s.actor.wg va).isSome
      let refused := fun (d : Nat) => exec i s = .next (s.takeAt 0x27 d va 0 none)
      (va.toNat % k ≠ 0 → exec i s = .next (s.takeAt 0x22 0 va 0 none)) ∧
      (va.toNat % k = 0 → window → refused 3) ∧
      (va.toNat % k = 0 → ¬window →
        (s.accessMe va .read = .miss → exec i s = .next (s.joinWalks [va]).waitHere) ∧
        (∀ e d, s.accessMe va .read = .fail e d → exec i s = .next (s.takeAt e d va 0 none).dropWalks) ∧
        (∀ d pa l, s.accessMe va .read = .at (.peer d pa) l → refused 1) ∧
        (∀ d n o l, s.accessMe va .read = .at (.decant d n o) l → refused 4) ∧
        (∀ pa l, s.accessMe va .read = .at (.mem pa) l →
          (cacheable (.mem pa) l = false → refused 2) ∧
          (cacheable (.mem pa) l = true → s.recordFull = true ∨ ¬s.flagFree (s.flagSel f) → exec i s = .next s.waitHere) ∧
          (cacheable (.mem pa) l = true → s.recordFull = false → s.flagFree (s.flagSel f) →
            Completes i s (fun t => s.posted t (.monitor { op := c, size := k, v := s.sreg v.toNat } v.toNat) (s.flagSel f)
              [{ mkPart 0 (.mem pa) l with loc := .mem pa, lanes := [(0, 0)] }]))))) ∧
    (∀ (id pa sd : Nat) (c : MonCond) (o : Op) (p : Part), s.op id = some o → o.kind = .monitor c sd → o.parts = [p] →
      p.loc = .mem pa →
      let sl := homeOf pa
      let v := leNat (s.hbmBytes pa c.size)
      let room := (s.mons.filter (fun m => m.slice == sl && m.armed)).length < 256
      let waits := ∃ m, m ∈ s.mons ∧ m.slice = sl ∧ m.armed = false
      let known := ∃ m, m ∈ s.mons ∧ m.op = id
      let tested := fun (t : State) (ms : List Mon) =>
        (c.holds (BitVec.ofNat 64 v) = true → (∀ m, m ∈ t.mons → m.op ≠ id) ∧
          ∃ q r, t.op id = some q ∧ q.parts = [r] ∧ r.st = .bound ∧ r.data = leBytes v c.size ∧ r.wvt = (s.secMeta pa).wvt) ∧
        (c.holds (BitVec.ofNat 64 v) = false → t.mons = ms ∧ t.op id = some o)
      (p.st = .todo → ¬known → room → ¬waits → Completes (.monitorArm id) s (fun t =>
        Kept s t ∧ tested t (s.mons ++ [{ op := id, slice := sl, armed := true }]))) ∧
      (p.st = .todo → ¬known → ¬room ∨ waits →
        exec (.monitorArm id) s = .next { s with mons := s.mons ++ [{ op := id, slice := sl, armed := false }] }) ∧
      (∀ pre post, p.st = .todo → s.mons = pre ++ { op := id, slice := sl, armed := false } :: post →
        (∀ m, m ∈ pre ++ post → m.op ≠ id) →
        (room → (∀ m, m ∈ pre → m.slice = sl → m.armed = true) → Completes (.monitorArm id) s (fun t =>
          Kept s t ∧ tested t (pre ++ { op := id, slice := sl, armed := true } :: post))) ∧
        (¬room ∨ (∃ m, m ∈ pre ∧ m.slice = sl ∧ m.armed = false) → exec (.monitorArm id) s = .next s)) ∧
      (∀ (st k : Nat) (w : Op) (q : Part) (x : Nat), s.mons = [{ op := id, slice := sl, armed := true }] → p.st = .todo → c.size ≤ 8 →
        pa % 32 + c.size ≤ 32 → s.op st = some w → w.kind = .store → w.parts[k]? = some q → q.loc = .mem (pa / 32 * 32) → q.st = .todo →
        s.mustFollow w q true = false → pa + 32 ≤ hbmEnd → s.memOk → q.wr = (leBytes x c.size).zipIdx.map (fun b => (pa % 32 + b.2, b.1)) →
        0 < c.size → s.queues = [] → x < 256 ^ c.size → Completes (.writeThrough st k) s (fun t =>
          leNat (t.hbmBytes pa c.size) = x ∧
          (c.holds (BitVec.ofNat 64 x) = true → t.mons = [] ∧
            ∃ y r, t.op id = some y ∧ y.parts = [r] ∧ r.st = .bound ∧ r.data = leBytes x c.size ∧ r.wvt = (t.secMeta pa).wvt) ∧
          (c.holds (BitVec.ofNat 64 x) = false → t.mons = s.mons ∧ t.op id = some o))) ∧
      (p.st = .bound → s.isSaved o.who.wg = false → Completes (.monitorComplete id) s (fun t =>
        (∀ a, t.hbm a = s.hbm a) ∧ (∀ q, q ∈ t.ops → q.id ≠ id) ∧
        ∀ r, (s.fib r).st ≠ .absent → Tbl.has o.holders (s.fib r).fid = true →
          Tbl.get (t.fib r).s sd 0 = BitVec.ofNat 64 (leNat p.data) ∧ p.wvt ≤ (t.fib r).ot)))

-- Atomics -------------------------------------------------------------------------------------------------------------------

/-- R249, R251-R257, R259-R261: the tags of an atomic's data registers give its type or a tag mismatch; its lanes are checked as a
load's, where no atomic reaches a window that has none. An atomic that finds its entries is posted with its operands and its order, and
its local requests join the queues of the service fibres that own their addresses; without entries, or with its flag full, it waits in
place. `ASINST` reads, validates and copies the code or is refused with its reason, waits until no request names the handler, and installs
or removes it.
The model's choice in it: log 48, 50, 51. -/
def Obligations.AtomicsIssue : Prop :=
  (∀ (s : State) (op d : Nat),
    let t := s.vtagOf d
    let pair := fun (i : Nat) => s.vtagOf i = 0xF ∨ s.vtagOf i = 2
    (t ≠ 0xE → (op = 0 ∧ (t = 1 ∨ t = 2 ∨ t = 3)) ∨ (op = 6 ∧ t ≠ 0 ∧ t ≠ 0xF) ∨ (op ≠ 0 ∧ op ≠ 6 ∧ (t = 1 ∨ t = 2)) →
      s.atomType op d = .ok { op := op, wide := false, tag := t, tagHi := 0 }) ∧
    (t ≠ 0xE → ¬((op = 0 ∧ (t = 1 ∨ t = 2 ∨ t = 3)) ∨ (op = 6 ∧ t ≠ 0 ∧ t ≠ 0xF) ∨ (op ≠ 0 ∧ op ≠ 6 ∧ (t = 1 ∨ t = 2))) →
      s.atomType op d = .error (0x10, tagDetail 0 false t)) ∧
    (t = 0xE → (pair (d + 1) → s.atomType op d = .ok { op := op, wide := true, tag := 0xE, tagHi := s.vtagOf (d + 1) }) ∧
      (¬pair (d + 1) → s.atomType op d = .error (0x10, tagDetail 0 true (s.vtagOf (d + 1))))) ∧
    (t ≠ 0xE → (t ≠ 0 → s.vtagOf (d + 1) = t → s.casType d = .ok false) ∧
      (t = 0 ∨ s.vtagOf (d + 1) ≠ t → ∃ x, s.casType d = .error (0x10, x))) ∧
    (t = 0xE → let good := pair (d + 1) ∧ s.vtagOf (d + 2) = 0xE ∧ pair (d + 3)
      (good → s.casType d = .ok true) ∧ (¬good → ∃ x, s.casType d = .error (0x10, x)))) ∧
  (∀ (s : State) (d a : VReg) (b : BitVec 4) (o p q : BitVec 3) (f : BitVec 1),
    s.issuing = true → s.me.hLimm = none → s.me.hMod = none → s.vtagOf d.toNat = 0xE → s.vtagOf a.toNat ≠ 0xE →
    (∀ n, s.pendingV s.actor n = 0) →
    let wrong := fun (i : Instr) (span : Nat) => wellFormed i = true →
      (d.toNat % span ≠ 0 → exec i s = .next (s.take 1 0)) ∧
      (d.toNat % span = 0 → s.myWg.regs < s.me.base.toNat + d.toNat + span → exec i s = .next (s.take 5 0))
    wrong (.amo d a b o p f) 2 ∧ wrong (.amor d a b o p f) 2 ∧ wrong (.cas d a b p q f) 4) ∧
  (∀ (s : State) (n : Need) (va : DWord) (l : Loc) (t : Option TLeaf), s.accessMe va n = .at l t →
    (∀ g k o, l = .regw g k o → s.atomAccess n false va = .fail 0x28 1 ∧ s.atomAccess n true va = .fail 0x28 3) ∧
    (∀ g o, l = .pt g o → s.atomAccess n false va = .fail 0x28 2 ∧ s.atomAccess n true va = .fail 0x28 3) ∧
    (∀ g o, l = .scratch g o → s.atomAccess n false va = .at l t ∧ s.atomAccess n true va = .fail 0x28 3) ∧
    (∀ d o, l = .peer d o → s.atomAccess n false va = .at l t ∧ s.atomAccess n true va = .fail 0x28 4)) ∧
  ∀ (s : State) (d a : VReg) (b c r : BitVec 4) (o p q : BitVec 3) (f : BitVec 1) (u v : SReg) (k : BitVec 2),
    let base := s.me.base.toNat + d.toNat
    let fl := s.flagSel f
    let queued := fun (t : State) (parts : List Part) => ∀ i x pa, parts[i]? = some x → x.loc = .mem pa → inHbm pa = true →
      (ownerOf pa, ASrc.slot s.myWg.cu s.mySlot.number, AReq.op s.nextId i) ∈ t.ase
    let acq := fun (n : Nat) => decide (n = 1 ∨ n = 3 ∨ n = 4)
    let rel := fun (n : Nat) => decide (n = 2 ∨ n = 3 ∨ n = 4)
    let lanes := fun (i : Instr) (reg size : Nat) (need : Need) (custom : Bool) (go : List (Nat × Loc × Option TLeaf) → Prop) =>
      (∀ er, s.laneOffs a.toNat = .error er → exec i s = .next (s.take er.1 er.2)) ∧
      (∀ off, s.laneOffs a.toNat = .ok off →
        let ls := s.checkLanes size (s.laneAddrs off reg) (s.atomAccess need custom)
        (∀ e dt ad m l, ls = .fault e dt ad m l → exec i s = .next (s.takeAt e dt ad m (some l)).dropWalks) ∧
        (∀ vas, ls = .miss vas → exec i s = .next (s.joinWalks vas).waitHere) ∧
        ∀ xs, ls = .ok xs → go xs)
    let post := fun (i : Instr) (kind : OpKind) (ret : Bool) (parts : List Part) (words : Nat) (wantsAcq wantsRel : Bool) =>
      (s.atomRoom ret parts → s.flagFree fl → Completes i s (fun t => s.posted t kind fl parts ∧ s.tagged t 0 [] ∧ queued t parts ∧
        ∃ z, z ∈ t.ops ∧ z.id = s.nextId ∧ z.acq = wantsAcq ∧ z.gate = (if wantsRel then some s.gateHere else none) ∧
          z.argv = s.active.map (fun l => (l, (List.range words).map (fun n => (s.vwin (d.toNat + n)).lane l))))) ∧
      (¬s.atomRoom ret parts ∨ ¬s.flagFree fl → exec i s = .next s.waitHere)
    let amo := fun (i : Instr) (ret : Bool) => s.goes i →
      (∀ er, s.atomType o.toNat d.toNat = .error er → exec i s = .next (s.take er.1 er.2)) ∧
      (∀ ty, s.atomType o.toNat d.toNat = .ok ty → lanes i b.toNat (if ty.wide then 8 else 4) .amo false (fun ls =>
        post i (.atomic ty ret base) ret (splitPeers (if ty.wide then 16 else 8) (s.atomParts s.hint false ls))
          (if ty.wide then 2 else 1) (acq p.toNat) (rel p.toNat)))
    amo (.amo d a b o p f) true ∧ amo (.amor d a b o p f) false ∧
    (s.goes (.cas d a b p q f) →
      let i := Instr.cas d a b p q f
      (∀ er, s.casType d.toNat = .error er → exec i s = .next (s.take er.1 er.2)) ∧
      (∀ wide, s.casType d.toNat = .ok wide →
        lanes i b.toNat (if wide then 8 else 4) .cas false (fun ls =>
          post i (.cas wide base) true (splitPeers (if wide then 24 else 16) (s.atomParts s.hint false ls)) (if wide then 4 else 2)
            (acq p.toNat || acq q.toNat) (rel p.toNat || rel q.toNat)))) ∧
    (s.goes (.acust d a o c k f) →
      let i := Instr.acust d a o c k f
      (s.myCtx.handlers.find? (fun e => e.1 == c.toNat) = none → exec i s = .next (s.take 0x29 1)) ∧
      (∀ h code, s.myCtx.handlers.find? (fun e => e.1 == c.toNat) = some (h, code) →
        (s.vtagOf d.toNat = 0 ∨ s.vtagOf (d.toNat + 1) = 0 → exec i s = .next (s.take 0x10 0)) ∧
        (s.vtagOf d.toNat ≠ 0 → s.vtagOf (d.toNat + 1) ≠ 0 → lanes i o.toNat 4 .amo true (fun ls =>
          post i (.acust c.toNat code base) true (splitPeers 24 (s.atomParts s.hint true ls)) 2 (acq k.toNat) (rel k.toNat))))) ∧
    (s.goes (.asinst r u v) →
      let i := Instr.asinst r u v
      let n := (s.sreg v.toNat).toNat
      let va := s.sreg u.toNat
      let put := fun (z : State) (mark : Nat) (ws : List Word) =>
        (z.handlerBusy r.toNat mark = true → Completes i s (fun t => (∀ x, t.hbm x = s.hbm x) ∧ (t.fib s.actor).wait = true ∧
          (t.fib s.actor).begun = some ws ∧ (t.fib s.actor).mark = mark ∧ (t.fib s.actor).idx = s.me.idx)) ∧
        (z.handlerBusy r.toNat mark = false → Completes i s (fun t => (∀ x, t.hbm x = s.hbm x) ∧ s.advanced t ∧
          (t.fib s.actor).regs = s.me.regs ∧ (t.ctx s.myWg.ctx).handlers =
            if ws = [] then Tbl.del z.myCtx.handlers r.toNat else Tbl.set z.myCtx.handlers r.toNat ws))
      (∀ ws, s.me.begun = some ws → put s s.me.mark ws) ∧
      (s.me.begun = none → n = 0 → put s s.nextId []) ∧
      (s.me.begun = none → n ≠ 0 → n % 4 ≠ 0 ∨ n < 8 ∨ 256 < n ∨ va.toNat % 4 ≠ 0 → exec i s = .next (s.take 0x2A 1)) ∧
      (s.me.begun = none → n % 4 = 0 → 8 ≤ n → n ≤ 256 → va.toNat % 4 = 0 →
        (∀ s1, s.readMe va n = .stop s1 → exec i s = .next s1) ∧
        (∀ s1 bs w, s.readMe va n = .ok s1 bs w →
          let ws := (List.range (n / 4)).map (fun i => BitVec.ofNat 32 (leNat ((bs.drop (4 * i)).take 4)))
          let full := 64 ≤ s1.handlersHeld ∧ Tbl.has s1.myCtx.handlers r.toNat = false
          (∀ y x, handlerBad ws = some (y, x) → exec i s = .next (s1.take 0x2A (y + x * 256))) ∧
          (handlerBad ws = none → full → exec i s = .next (s1.take 0x2A 6)) ∧
          (handlerBad ws = none → ¬full → put s1 s1.nextId ws))))

/-- R249-R252, R254, R257, R261: the service fibre of an address applies the lanes of a request one after the other in one action, each
on what the lanes before it left; each operation gives the new value of R252, a compare and swap stores where the old value is the
expected one and the lane's page lets it, a custom request runs its handler; the old values reach the lanes of the destination. A source is
served in the order of the ring.
The model's choice in it: log 47, 76. -/
def Obligations.AtomicsArePerformed : Prop :=
  (∀ (t : AtomTy) (x y : Nat),
    let w := if t.wide then 64 else 32
    let sg := t.tag = 1 ∨ (t.wide = true ∧ t.tagHi = 0xF)
    let num := fun (n : Nat) => if sg ∧ 2 ^ (w - 1) ≤ n then (n : Int) - 2 ^ w else (n : Int)
    (t.op = 0 → t.tag ≠ 3 ∨ t.wide = true → t.apply x y = ((x + y) % 2 ^ w, 0)) ∧
    (t.op = 0 → t.tag = 3 → t.wide = false → t.apply x y = addF32 x y) ∧
    (t.op = 1 → t.apply x y = (if num y < num x then y else x, 0)) ∧
    (t.op = 2 → t.apply x y = (if num x < num y then y else x, 0)) ∧
    (t.op = 3 → t.apply x y = (x &&& y, 0)) ∧ (t.op = 4 → t.apply x y = (x ||| y, 0)) ∧
    (t.op = 5 → t.apply x y = (x ^^^ y, 0)) ∧ (t.op = 6 → t.apply x y = (y, 0))) ∧
  (∀ (ty : Option AtomTy) (w : Nat) (wr : Nat → Bool) (sector : List Byte) (es : List AEntry) (e : AEntry),
    let d := applyLanes ty w wr sector es
    let n := applyLanes ty w wr sector (es ++ [e])
    let old := leNat ((d.sector.drop e.off).take w)
    let stores := fun (x : Nat) => n.sector.length = d.sector.length ∧
      ∀ i, n.sector.getD i 0 = if e.off ≤ i ∧ i < e.off + w then (leBytes x w).getD (i - e.off) 0 else d.sector.getD i 0
    (w = 4 ∨ w = 8) → e.off + w ≤ d.sector.length →
    applyLanes ty w wr sector [] = { sector := sector, olds := [], flags := 0, wrote := false, denied := [] } ∧
    n.olds = d.olds ++ [old] ∧
    (∀ t, ty = some t → stores (t.apply old (e.v % 256 ^ w)).1 ∧ n.flags = d.flags ||| (t.apply old (e.v % 256 ^ w)).2 ∧ n.denied = d.denied) ∧
    (ty = none →
      (old ≠ e.v % 256 ^ w → n.sector = d.sector ∧ n.denied = d.denied) ∧
      (old = e.v % 256 ^ w → wr d.olds.length = true → stores e.new ∧ n.denied = d.denied) ∧
      (old = e.v % 256 ^ w → wr d.olds.length = false → n.sector = d.sector ∧ n.denied = d.denied ++ [d.olds.length]))) ∧
  (∀ (last : Nat) (hs : List (ASrc × AReq)) (x : ASrc × AReq), nextSource last hs = some x →
    x ∈ hs ∧ ∀ y, y ∈ hs → y.1.number < 100000 → x.1.number < 100000 →
      (last < x.1.number → last < y.1.number → x.1.number ≤ y.1.number) ∧
      (x.1.number ≤ last → y.1.number ≤ last ∧ x.1.number ≤ y.1.number)) ∧
  (∀ (s : State) (id k pa : Nat) (o : Op) (p : Part), s.op id = some o → o.parts[k]? = some p → p.loc = .mem pa →
    let part := fun (t : State) => (t.op id).bind (fun x => x.parts[k]?)
    (∀ g src, (hostOf g).isSome → nextSource (Tbl.get s.ring g 0) ((heads g [] s.ase).filter (fun e => s.mayServe e.2)) = some (src, .op id k) →
      inHbm pa = true → pa + 32 ≤ hbmEnd → p.lanes ≠ [] → pa % 32 = 0 → s.memOk →
      let served := fun (t : State) (sector : List Byte) =>
        (∀ a, t.hbm a = if pa ≤ a ∧ a < pa + 32 then sector.getD (a - pa) 0 else s.hbm a) ∧
        (∀ r, (t.fib r).regs = (s.fib r).regs) ∧ Tbl.get t.ring g 0 = src.number
      (∀ ty ret vd, o.kind = .atomic ty ret vd →
        let w := if ty.wide then 8 else 4
        let d := applyLanes (some ty) w (fun _ => true) (s.hbmBytes pa 32)
          (p.lanes.map (fun l => entryOf ty.wide false l.2 (Tbl.get o.argv l.1 [])))
        (∀ l, l ∈ p.lanes → l.2 + w ≤ 32) →
        Completes (.atomicServiceSlot g) s (fun t => served t d.sector ∧
          ∃ q, part t = some q ∧ q.st = .performed ∧ q.data = d.olds.flatMap (fun x => leBytes x w) ∧ q.flags = d.flags)) ∧
      (∀ wide vd, o.kind = .cas wide vd →
        let w := if wide then 8 else 4
        let d := applyLanes none w (fun i => (p.seenBy p.expiry ((p.lanes[i]?.map (·.1)).getD 0)).2.1) (s.hbmBytes pa 32)
          (p.lanes.map (fun l => entryOf wide true l.2 (Tbl.get o.argv l.1 [])))
        (∀ l, l ∈ p.lanes → l.2 + w ≤ 32) →
        Completes (.atomicServiceSlot g) s (fun t => served t d.sector ∧
          ∃ q, part t = some q ∧ q.st = .performed ∧ q.data = d.olds.flatMap (fun x => leBytes x w) ∧
            (d.denied = [] → q.fault = none) ∧
            (d.denied ≠ [] → ∃ fr, q.fault = some fr ∧ fr.cause = 0x21 ∧ fr.detail.toNat % 16 = 1 ∧ fr.async = true ∧
              fr.lanes = maskOf (d.denied.filterMap (fun i => p.lanes[i]?.map (·.1)))))) ∧
      (∀ h code vd l, o.kind = .acust h code vd → p.lanes = [l] →
        let ws := Tbl.get o.argv l.1 []
        let ran := runHandler s.freeCtr code (s.hbmBytes pa 32) (ws.getD 1 0 ++ ws.getD 0 0) (BitVec.ofNat 64 l.2) (s.fe.devid.setWidth 64)
        (∀ sec x fc, ran = .done sec x fc → (∀ b, sec = some b → b.length = 32) →
          Completes (.atomicServiceSlot g) s (fun t => served t (sec.getD (s.hbmBytes pa 32)) ∧
            ∃ q, part t = some q ∧ q.st = .performed ∧ q.data = leBytes x.toNat 8)) ∧
        (∀ c fc, ran = .fault c fc → Completes (.atomicServiceSlot g) s (fun t => served t (s.hbmBytes pa 32) ∧
          ∃ q fr, part t = some q ∧ q.st = .performed ∧ q.fault = some fr ∧ fr.cause = 0x29 ∧
            fr.detail = BitVec.ofNat 47 (2 + c.toNat * 256))))) ∧
    (let gives := fun (vd n size : Nat) => p.st = .performed → p.data ≠ [] → (p.lanes.map (·.1)).Nodup → (∀ l, l ∈ p.lanes → l.1 < 64) →
       Completes (.atomicReply id k) s (fun t =>
         (∀ a, t.hbm a = s.hbm a) ∧ (∀ g m n, (t.vreg g m n).tag = (s.vreg g m n).tag) ∧
         (∀ q, part t = some q → q.st = .done) ∧
         ∀ i l j, i < n → p.lanes[j]? = some l → (t.vreg o.who.wg o.who.slot (vd + i)).lane l.1 =
           cleanLane (s.vreg o.who.wg o.who.slot (vd + i)).tag (BitVec.ofNat 32 (leNat ((p.data.drop (j * size + 4 * i)).take 4))))
     (∀ ty vd, o.kind = .atomic ty true vd → gives vd (if ty.wide then 2 else 1) (if ty.wide then 8 else 4)) ∧
     (∀ wide vd, o.kind = .cas wide vd → gives vd (if wide then 2 else 1) (if wide then 8 else 4)) ∧
     (∀ h code vd, o.kind = .acust h code vd → gives vd 2 8)))

-- Translation and decant windows ----------------------------------------------------------------------------------------------

/-- R212-R214: an invalidation whose operands are refused raises cause 0x26; else it waits for the fibre's stores to be performed at their
homes, is posted, and removes what it covers from every CU; a sync waits until what the fibre posted is complete, the system form also for
the answers of the share group, where a dead peer raises cause 0x50. R209: a walk waits while a line of its tables is poisoned (R388); it
fills the caches of those that wait, or leaves them its failure. R215: a probe gives its result word. R240, R241, R243: binding a decant window gives its number, or 2^63 plus the first reason that
refuses it; unbinding waits for the accesses through the window and returns its error bits.
The model's choice in it: log 58. -/
def Obligations.TranslationAndDecantWindows : Prop :=
  (∀ (s : State) (a b d : SReg),
    let x := s.sreg a.toNat
    let y := s.sB b
    let posts := fun (i : Instr) (r : InvRange) (sys : Bool) => s.goes i →
      (s.writesHome = false → exec i s = .next s.waitHere) ∧
      (s.writesHome = true → Completes i s (fun t =>
        Kept s t ∧ s.advanced t ∧ ∃ v, t.invs = s.invs ++ [v] ∧ v.range = r ∧ v.sys = sys ∧ v.applied = false ∧ v.fid = s.me.fid ∧
          v.reply = none ∧ v.waiting = (if sys then s.myCtx.share.filter (· ≠ s.fe.devid) else []) ∧
          (sys = true → ∀ z, z ∈ s.myCtx.share → z ≠ s.fe.devid → s.fe.dead.contains z = false →
            ∃ p, p ∈ t.fe.tx ∧ p.op = v.id ∧ p.pkt.dst = z ∧ p.pkt.ty = 9 ∧ p.pkt.aux = 1 ∧ p.st = .waiting)))
    let va := fun (i : Instr) (sys : Bool) => s.goes i →
      (canonical x = false → exec i s = .next (s.take 0x26 1)) ∧
      (canonical x = true → fld y 28 36 ≠ 0 → exec i s = .next (s.take 0x26 2)) ∧
      (canonical x = true → fld y 28 36 = 0 →
        let g := 2 ^ (match fld y 16 2 with | 0 => 12 | 1 => 16 | 2 => 21 | _ => 30)
        let lo := x.toNat % 2 ^ 57 / g * g
        posts i (.va (y.setWidth 16) lo (lo + (fld y 18 10 + 1) * g)) sys)
    let asid := fun (i : Instr) (sys : Bool) => s.goes i →
      (fld x 16 48 ≠ 0 → exec i s = .next (s.take 0x26 1)) ∧ (fld x 16 48 = 0 → posts i (.asid (x.setWidth 16)) sys)
    va (.tlbinvVaDev a b) false ∧ va (.tlbinvVaSys a b) true ∧ asid (.tlbinvAsidDev a) false ∧ asid (.tlbinvAsidSys a) true ∧
    posts .tlbinvAllDev .all false ∧ posts .tlbinvAllSys .all true ∧
    (s.writesHome = true ↔ ∀ o, o ∈ s.ops → Tbl.get o.holders s.me.fid s.nextId < s.nextId → o.cls &&& clsW ≠ 0 → match o.kind with
      | .store | .atomic .. | .cas .. | .acust .. => ∀ p, p ∈ o.parts → p.st = .performed ∨ p.st = .done
      | _ => o.st = .settling) ∧
    (let mine := fun (v : Inv) => v ∈ s.invs ∧ v.fid = s.me.fid ∧ v.reply = none
     let complete := ∀ v, mine v → s.invSettled v = true
     (s.goes .tlbsyncDev → (¬complete → exec .tlbsyncDev s = .next s.waitHere) ∧ (complete → exec .tlbsyncDev s = .next s.retire)) ∧
     (s.goes .tlbsyncSys →
       (¬complete → exec .tlbsyncSys s = .next s.waitHere) ∧
       (complete → (∃ v z, mine v ∧ z ∈ v.waiting ∧ s.fe.dead.contains z = true) → Completes .tlbsyncSys s (fun t => ∃ v z, mine v ∧ z ∈ v.waiting ∧
         s.fe.dead.contains z = true ∧ t.frozenWith s.actor 0x50 (deadDetail z) s.me.unitPc ∧ ∀ u, u ∈ t.invs → u.fid = s.me.fid → z ∉ u.waiting)) ∧
       (complete → (∀ v z, mine v → z ∈ v.waiting → s.fe.dead.contains z = false) →
         ((∃ v, mine v ∧ v.waiting ≠ []) → exec .tlbsyncSys s = .next s.waitHere) ∧
         ((∀ v, mine v → v.waiting = []) → Completes .tlbsyncSys s (fun t => Kept s t ∧ s.advanced t ∧
           ∀ v, v ∈ t.invs ↔ v ∈ s.invs ∧ ¬mine v)))) ∧
     (∀ v, s.invSettled v = true → v.applied = true ∧ ∀ o p pa, o ∈ s.ops → o.id < v.mark → p ∈ o.parts → p.loc = .mem pa →
       v.range.hits (s.ctx o.ctx).asid (sectorOf (p.va.toNat % 2 ^ 57)) 32 = true →
       (∀ l, o.kind = .load l → p.st = .bound ∨ p.st = .done) ∧ (o.kind = .store → p.st = .performed ∨ p.st = .done))) ∧
    (∀ n : BitVec 2, s.goes (.atrans d a n) →
      let need := if n = 0 then Need.read else if n = 1 then .amo else .exec
      let gives := fun (w : DWord) => Completes (.atrans d a n) s (fun t =>
        Still s t ∧ s.advanced t ∧ (t.fib s.actor).regs = { s.me.regs with s := Tbl.set s.me.s d.toNat w })
      (s.accessMe x need = .miss → exec (.atrans d a n) s = .next (s.joinWalks [x]).waitHere) ∧
      (∀ l e, s.accessMe x need = .at l e → gives (s.atransOk l e x)) ∧
      (∀ c e, s.accessMe x need = .fail c e → ∃ w : DWord, gives w ∧ w.getLsbD 0 = false ∧ fld w 1 8 = c.toNat ∧ fld w 12 4 = e % 16 ∧
        fld w 16 48 = 0 ∧ (c ≠ 0x23 → fld w 9 3 = e / 16 % 8) ∧
        (∀ l t, c = 0x23 → s.accessMe x .read = .at l (some t) → t.level < 8 → fld w 9 3 = t.level))) ∧
    (∀ l e, let w := s.atransOk l e x
      (∀ g o, l = .scratch g o → e = none → w = 1) ∧ (∀ c k o, l = .decant c k o → w = 0x23) ∧
      (∀ pa f, l = .mem pa → e = some f → f.size < 4 → f.pa x < 2 ^ 56 → f.pte.getLsbD 11 = false →
        w.getLsbD 0 = true ∧ fld w 1 2 = f.size ∧ w.getLsbD 3 = false ∧ w.getLsbD 4 = f.pte.getLsbD 3 ∧
        w.getLsbD 5 = f.pte.getLsbD 9 ∧ w.getLsbD 6 = f.pte.getLsbD 10 ∧ w.getLsbD 7 = f.pte.getLsbD 8 ∧ w.getLsbD 8 = f.pte.getLsbD 7 ∧
        fld w 9 3 = fld f.pte 56 3 ∧ fld w 12 44 = (if s.myCtx.priv then f.pa x / 4096 else 0) ∧ fld w 56 8 = 0)) ∧
    (∀ cu asid page e k c, (s.cu cu).coal.find? (fun e => e.asid == asid && e.page == page && e.fail.isNone) = some e →
      s.ctxs.find? (fun e => e.2.live && e.2.asid == asid) = some (k, c) →
      let start := s.walkStart cu c page
      let tables := s.walkPath (page.toNat % 2 ^ 57) start.1 start.2
      ((∃ z, z ∈ tables ∧ s.poisoned z = true) → exec (.pageWalk cu asid page) s = .next s) ∧
      ((∀ z, z ∈ tables → s.poisoned z = false) → Completes (.pageWalk cu asid page) s (fun t => Kept s t ∧
        (∀ z, z ∈ (t.cu cu).coal → z.asid = asid → z.page = page → z.fail ≠ none) ∧
        (∀ l, s.walkCached cu c page = .leaf l → e.waiters ≠ [] → l ∈ (t.cu cu).leaves) ∧
        (∀ f, s.walkCached cu c page = .fail f → e.waiters ≠ [] →
          ∃ z, z ∈ (t.cu cu).coal ∧ z.asid = asid ∧ z.page = page ∧ z.fail = some f ∧ z.waiters = e.waiters)))) ∧
    (∀ n v, s.invs.find? (fun v => v.id == n) = some v → v.applied = false → Completes (.invalidationApply n) s (fun t =>
      Kept s t ∧ (∃ z, z ∈ t.invs ∧ z.id = n ∧ z.applied = true) ∧
      (v.sys = true → ∀ z, z ∈ t.peerL2 → v.range.hits z.asid z.page z.bytes = false) ∧ (v.sys = false → t.peerL2 = s.peerL2) ∧
      ∀ e, e ∈ t.cus →
        (∀ l, l ∈ e.2.leaves → v.range.hits l.asid l.base l.bytes = false) ∧
        (∀ q, q ∈ e.2.qleaf → ∀ l, l ∈ q.2 → v.range.hits l.asid l.base l.bytes = false) ∧
        (∀ r, r ∈ e.2.tables → v.range.hits r.asid r.base (leafBytes (r.level + 1)) = false) ∧
        (∀ r, r ∈ e.2.rack → v.range.hits r.asid r.page r.bytes = false)))) ∧
  (∀ (r : InvRange) (asid : BitVec 16) (base n : Nat), (r = .all → r.hits asid base n = true) ∧
    (∀ a, r = .asid a → (r.hits asid base n = true ↔ a = asid)) ∧
    (∀ a lo hi, r = .va a lo hi → (r.hits asid base n = true ↔ a = asid ∧ base < hi ∧ lo < base + n))) ∧
  (∀ (s : State) (d a b : SReg),
    let cid := s.myWg.ctx
    let va := s.sreg a.toNat
    let gives := fun (t : State) (w : DWord) => (∀ x, t.hbm x = s.hbm x) ∧ s.advanced t ∧
      (t.fib s.actor).regs = { s.me.regs with s := Tbl.set s.me.s d.toNat w }
    (s.goes (.decantBind d a b) →
      (va.toNat % 64 ≠ 0 → exec (.decantBind d a b) s = .next (s.takeAt 0x22 0 va 0 none)) ∧
      (∀ s1, va.toNat % 64 = 0 → s.readMe va 64 = .stop s1 → exec (.decantBind d a b) s = .next s1) ∧
      (∀ s1 bs w, va.toNat % 64 = 0 → s.readMe va 64 = .ok s1 bs w → bs.length = 64 →
        let f := fun (o n : Nat) => leNat ((bs.drop o).take n)
        let esz := 4 * 2 ^ (f 0x18 4 % 4)
        let count := f 0x10 4
        let lo := (s.sreg b.toNat).toNat
        let size := (count * esz + 65535) / 65536 * 65536
        let hi := lo + size
        let bad4 := f 0 8 % 4 ≠ 0 ∨ f 8 8 % esz ≠ 0 ∨ count < 1 ∨ 2 ^ 28 < count ∨ f 0x14 4 < 1 ∨ 2 ^ 31 ≤ f 0x14 4 ∨ 4 ≤ f 0x18 4 ∨
          ∃ i, 0x1C ≤ i ∧ i < 64 ∧ bs.getD i 0 ≠ 0
        let bad2 := lo % 65536 ≠ 0 ∨ canonical (s.sreg b.toNat) = false ∨ 2 ^ 64 < hi ∨ canonical (BitVec.ofNat 64 (hi - 1)) = false ∨
          (lo < 2 ^ 56 ∧ 2 ^ 56 < hi) ∨ (lo < 0x00F0000000000000 ∧ winBase < hi)
        let bad3 := ∃ e, e ∈ s1.myCtx.decants ∧ e.2.base.toNat < hi ∧ lo < e.2.base.toNat + e.2.size
        let bad1 := ∀ k, k < 64 → ∃ e, e ∈ s1.myCtx.decants ∧ e.1 = k
        let refused := fun (e : Nat) => Completes (.decantBind d a b) s (fun t => gives t (BitVec.ofNat 64 (2 ^ 63 + e)) ∧
          (t.ctx cid).decants = s1.myCtx.decants)
        (bad4 → refused 4) ∧ (¬bad4 → bad2 → refused 2) ∧ (¬bad4 → ¬bad2 → bad3 → refused 3) ∧
        (¬bad4 → ¬bad2 → ¬bad3 → bad1 → refused 1) ∧
        (∀ k, ¬bad4 → ¬bad2 → ¬bad3 → k < 64 → (∀ e, e ∈ s1.myCtx.decants → e.1 ≠ k) →
          (∀ j, j < k → ∃ e, e ∈ s1.myCtx.decants ∧ e.1 = j) →
          Completes (.decantBind d a b) s (fun t => gives t (BitVec.ofNat 64 k) ∧ (t.ctx cid).decants = s1.myCtx.decants ++ [(k,
            { base := s.sreg b.toNat, size := size, idxbase := BitVec.ofNat 64 (f 0 8), srcbase := BitVec.ofNat 64 (f 8 8), count := count,
              bound := f 0x14 4, esize := esz, errIndex := false, errXlate := false })])))) ∧
    (s.goes (.decantUnbind d a) →
      let k := va.toNat
      let through := fun (o : Op) => o.ctx = cid ∧ ∃ p j, p ∈ o.parts ∧ p.st ≠ .done ∧ p.loc = .decant cid k j
      (s.myCtx.decants.find? (fun e => e.1 == k) = none →
        Completes (.decantUnbind d a) s (fun t => gives t (BitVec.ofNat 64 (2 ^ 63)))) ∧
      (∀ x, s.myCtx.decants.find? (fun e => e.1 == k) = some (k, x) →
        ((∃ o, o ∈ s.ops ∧ through o) → exec (.decantUnbind d a) s = .next s.waitHere) ∧
        ((∀ o, o ∈ s.ops → o.ctx ≠ cid ∨ (¬through o ∧ ((∃ l, o.kind = .load l) ∨ o.kind = .store))) → Completes (.decantUnbind d a) s (fun t =>
          gives t (BitVec.ofNat 64 ((if x.errIndex then 1 else 0) + (if x.errXlate then 2 else 0))) ∧
          ∀ e, e ∈ (t.ctx cid).decants ↔ e ∈ s.myCtx.decants ∧ e.1 ≠ k)))))

-- Matrix engine -------------------------------------------------------------------------------------------------------------------

/-- R271, R282-R284, R288, R293, R294: the instructions of the gang registers. `MBIND` binds a record's address, which must be a
multiple of 64; `MREADY` waits for the fibre's earlier accesses; a signature joins the gang, and one that does not fit is refused with
cause 0x33 and its reason; an operation is posted with the bindings as they stand, once. Until it is posted and every expected member
has signed it is gathering; then it is issued, and stands in its CU's queue, or takes an entry there at once, which may end it with a
fault. `MSTAT` reads the expected set, the signed set and the state word; `MRFENCE` drops the context's records from the CU.
The model's choice in it: log 63. -/
def Obligations.GangRegisters : Prop :=
  ∀ (s : State) (a d : SReg) (g m : BitVec 3) (f : BitVec 1) (acc : VReg),
    let wg := s.actor.wg
    let x := s.gang wg g.toNat
    let cu := s.myWg.cu
    let step := fun (t : State) => (∀ z, t.hbm z = s.hbm z) ∧ s.advanced t ∧ ∀ k, k ≠ g.toNat → t.gang wg k = s.gang wg k
    let issues := fun (t : State) (full : Prop) =>
      (¬full → Kept s t ∧ (t.gang wg g.toNat).st = .gathering) ∧
      (full → ((s.cu cu).mxq ≠ [] → Kept s t ∧ (t.gang wg g.toNat).st = .issued ∧
          ∃ n, (t.gang wg g.toNat).opId = some n ∧ n ∈ (t.cu cu).mxq) ∧
        ((s.cu cu).mxq = [] → (t.gang wg g.toNat).st = .issued ∨ (t.gang wg g.toNat).st = .idle))
    (∀ n o, x.opId = some n → s.op n = some o → o.cu = cu ∧ ∃ p ss, o.kind = .gang g.toNat p ss) →
    (∀ n : BitVec 2, s.goes (.mbind a g n) →
      ((s.sreg a.toNat).toNat % 64 = 0 → Completes (.mbind a g n) s (fun t =>
        Kept s t ∧ step t ∧ t.gang wg g.toNat = (if n = 0 then { x with bindA := s.sreg a.toNat }
          else if n = 1 then { x with bindB := s.sreg a.toNat } else { x with bindE := s.sreg a.toNat }))) ∧
      ((s.sreg a.toNat).toNat % 64 ≠ 0 → exec (.mbind a g n) s =
        .next (s.takeAt 0x22 (s.sreg a.toNat).toNat (s.sreg a.toNat) 0 none))) ∧
    (s.goes .mready →
      let ready := (∀ r, r < 128 → s.pendingV s.actor (s.me.base.toNat + r) &&& s.me.mask = 0) ∧
        s.earlierDone s.actor s.nextId 0xFF (s.scopeOr .workgroup) false = true
      (ready → exec .mready s = .next s.retire) ∧ (¬ready → exec .mready s = .next s.waitHere)) ∧
    (s.goes (.msign a g f) →
      let e := s.sreg a.toNat
      let b := memberBit s.actor
      let bad := fun (n : Nat) => exec (.msign a g f) s = .next (s.take 0x33 n)
      (s.actor.idx = 8 ∨ e = 0 → bad 5) ∧
      (s.actor.idx ≠ 8 → e ≠ 0 →
        (e.getLsbD b = false → bad 1) ∧
        (e.getLsbD b = true → x.st = .issued → exec (.msign a g f) s = .next s.waitHere) ∧
        (e.getLsbD b = true → x.st = .gathering → x.e ≠ 0 → x.e ≠ e → bad 2) ∧
        (e.getLsbD b = true → x.st ≠ .issued → (x.st = .gathering → x.e = 0 ∨ x.e = e) →
          (x.signed.getLsbD b = true → bad 3) ∧
          (x.signed.getLsbD b = false → s.flagFree (s.flagSel f) → Completes (.msign a g f) s (fun t =>
            let full := x.post ≠ none ∧ ∀ k, k < 64 → (e.getLsbD k = true ↔ k = b ∨ x.signed.getLsbD k = true)
            step t ∧ issues t full ∧ ((¬full ∨ (s.cu cu).mxq ≠ []) → (t.gang wg g.toNat).e = e ∧
              ∃ z, (t.gang wg g.toNat).signers = addSigner z x.signers ∧ z.bit = b ∧ z.who = s.actor ∧ z.fid = s.me.fid ∧
                z.mask = s.me.mask ∧ z.base = s.me.base ∧ z.flag = s.flagSel f ∧ z.ipc = s.me.unitPc)))))) ∧
    (let posts := fun (i : Instr) (op minor : Nat) (word : DWord) => s.goes i →
        (x.st = .issued → exec i s = .next s.waitHere) ∧
        (x.st ≠ .issued → x.post ≠ none → exec i s = .next (s.take 0x33 4)) ∧
        (x.st ≠ .issued → x.post = none → s.recordFull = false → Completes i s (fun t =>
          let full := x.e ≠ 0 ∧ x.signed = x.e
          step t ∧ issues t full ∧ ((¬full ∨ (s.cu cu).mxq ≠ []) →
            (t.gang wg g.toNat).signers = x.signers ∧ ∃ rows, (t.gang wg g.toNat).post = some
              { op := op, minor := minor, acc := acc.toNat, word := word, hint := s.hint, a := x.bindA, b := x.bindB, e := x.bindE
                m := rows })))
     posts (.mma acc a g) 1 0 (s.sreg a.toNat) ∧ posts (.mtile acc a g) 2 0 (s.sreg a.toNat) ∧ posts (.mepi acc g m) 3 m.toNat 0) ∧
    (WritesScalar (.mstat 0 d g) s d x.e ∧ WritesScalar (.mstat 1 d g) s d x.signed ∧
      WritesScalar (.mstat 2 d g) s d (s.gangWord x) ∧
      (let w := s.gangWord x
       fld w 0 2 = (match x.st with | .idle => 0 | .gathering => 1 | .issued => 2) ∧
       w.getLsbD 2 = x.post.isSome ∧ (∀ p, x.post = some p → p.op < 4 → fld w 3 2 = p.op) ∧ (x.post = none → fld w 3 2 = 0) ∧
       fld w 8 8 = x.cause.toNat ∧ fld w 16 16 = x.step.toNat ∧
       ((gangLanes x.signers).length ≤ 64 → fld w 32 7 = (gangLanes x.signers).length))) ∧
    (s.goes .mrfence →
      (s.writesHome = true → Completes .mrfence s (fun t => Quiet s t ∧ s.advanced t ∧
        (t.fib s.actor).regs = s.me.regs ∧ ∀ r, r ∈ (t.cu cu).recs ↔ r ∈ (s.cu cu).recs ∧ r.1 ≠ s.myCtx.asid)) ∧
      (s.writesHome = false → exec .mrfence s = .next s.waitHere))

/-- R74, R75, R273, R275, R286, R289-R292: the split instructions post their operation, which stands in its CU's queue, or takes an entry at once;
the oldest operation without an entry takes one after the checks of its records, ends with the fault they find, or waits for its
record; a step of `MMA` or `MTILE` adds one K-step to every accumulator, in the entry and in the registers; an image is written one
piece at a time, its last piece no earlier than the write times of the others; the last unit lets the operation complete.
A K-step adds to an accumulator the dense partial and then the outlier sum, each sum rounded once to F32 by RNE. The dense partial is,
for finite elements, the exact sum of the blocks' integer dots at their exponents, what weighs less than 2^(Emax - 60) discarded toward
zero, rounded once; a block whose scale is NaN makes it NaN if an element of it is not masked. The outlier sum takes one term per k in
ascending k. The encoder traps on more than 512 candidates in mode TRAP; with no more than 512 it writes the header, every block's codes
and scale, and the pool, of which each element's code and each block's exponent are said by value.
The model's choice in it: log 41, 60, 62, 64, 69. -/
def Obligations.MatrixOperations : Prop :=
  (∀ (fa fb : Nat) (a b : Array El) (acc : Nat),
    let f32 := FV.ofBits fmtF32
    let round := fun (v : FV) => (encFV fmtF32 0 false v).1
    let add := fun (x y : Nat) => round (fvAdd 0 (f32 x) (f32 y)).1
    let A := fun (k : Nat) => a.getD k El.none
    let B := fun (k : Nat) => b.getD k El.none
    let sa := fun (j : Nat) => (A (32 * j)).scale
    let sb := fun (j : Nat) => (B (32 * j)).scale
    let n := kStep fa / 32
    let ua := if fa = 1 then -133 else unitExp fa
    let ub := if fb = 1 then -133 else unitExp fb
    let whole := fun (u : Int) (e : El) (c : Int) => (e.masked = true ∨ e.out.isSome = true → c = 0) ∧
      (e.masked = false → e.out = none → ∃ neg m x, e.v = .fin neg m x ∧ u ≤ x ∧ c = scaled u neg m x)
    let dense := (densePartial fa fb (kStep fa) a b).1
    (stepElem fa fb a b acc).1 = add (add acc dense) (if isSplit fa then (outlierSum (kStep fa) a b).1 else 0) ∧
    (stepElem fa fb a b acc).2 &&& (flNV ||| flOF ||| flUF) = (stepElem fa fb a b acc).2 ∧
    (∀ (ca cb : Nat → Int), 1 ≤ fa → fa ≤ 7 → (fa = 1 ↔ fb = 1) → (∀ j, j < n → sa j ≠ 0xFF ∧ sb j ≠ 0xFF) →
      (∀ k, k < kStep fa → whole ua (A k) (ca k) ∧ whole ub (B k) (cb k)) →
      let P := fun (j : Nat) => ((List.range 32).map (fun i => ca (32 * j + i) * cb (32 * j + i))).sum
      let E := fun (j : Nat) => (sa j : Int) + sb j - 254 + ua + ub
      ((∀ j, j < n → P j = 0) → dense = 0) ∧
      (∀ hi lo, (∃ j, j < n ∧ P j ≠ 0 ∧ E j = hi) → (∃ j, j < n ∧ P j ≠ 0 ∧ E j = lo) →
        (∀ j, j < n → P j ≠ 0 → lo ≤ E j ∧ E j ≤ hi) →
        (fa ≠ 1 →
          let S := ((List.range n).map (fun j => P j * 2 ^ (E j - lo).toNat)).sum
          dense = round (.fin (decide (S < 0)) (S.natAbs / 2 ^ (hi - 60 - lo).toNat) (max lo (hi - 60)))) ∧
        (fa = 1 →
          let S := ((List.range n).map P).sum
          (S = 0 → dense = 0) ∧ (S ≠ 0 → dense = round (.fin (decide (S < 0)) S.natAbs (-266)))))) ∧
    (∀ j i, j < n → i < 32 → (sa j = 0xFF ∧ (A (32 * j + i)).masked = false) ∨ (sb j = 0xFF ∧ (B (32 * j + i)).masked = false) →
      dense = fmtF32.nanCode) ∧
    (outlierSum 0 a b).1 = 0 ∧
    (∀ k,
      let o := (outlierSum k a b).1
      let next := (outlierSum (k + 1) a b).1
      let bf := FV.ofBits fmtBF16
      let term := fun (u v : FV) => add o (round (fvMul u v).1)
      let body := fun (e : El) (v : FV) => (e.scale = 0xFF → v = .nan false) ∧
        (e.scale ≠ 0xFF → ∀ neg m x, e.v = .fin neg m x → v = .fin neg m (x + e.scale - 127))
      (∀ u v, (A k).out = some u → (B k).out = some v → next = term (bf u) (bf v)) ∧
      (∀ u, (A k).out = some u → (B k).out = none → ((B k).masked = true → next = o) ∧
        ((B k).masked = false → ∃ v, body (B k) v ∧ next = term (bf u) v)) ∧
      (∀ v, (A k).out = none → (B k).out = some v → ((A k).masked = true → next = o) ∧
        ((A k).masked = false → ∃ u, body (A k) u ∧ next = term u (bf v))) ∧
      ((A k).out = none → (B k).out = none → next = o))) ∧
  (∀ (fmt : Nat) (xs : List (Option Nat × Bool)), fmt = 4 ∨ fmt = 5 → xs.length = 32 →
    let w := codeWidth fmt
    let r := encBlock fmt xs
    let code := fun (i : Nat) => bitsN (leNat r.1) (w * i) w
    let f32 := FV.ofBits fmtF32
    let body := fun (x : Nat) => (some x, false) ∈ xs
    w = fmt - 1 ∧ r.1.length = 4 * w ∧
    (∀ i, xs[i]? = some (none, true) ∨ xs[i]? = some (none, false) → code i = 2 ^ (w - 1)) ∧
    (∀ i x, xs[i]? = some (some x, true) → code i = 0) ∧
    ((∀ x, body x → x % 2 ^ 31 = 0) → r.2 = (0, false) ∧ ∀ i x, xs[i]? = some (some x, false) → code i = 0) ∧
    (∀ top neg M X, body top → f32 top = .fin neg M X → M ≠ 0 →
      (∀ x, body x → x < 2 ^ 32 ∧ x % 2 ^ 31 ≤ top % 2 ^ 31) →
      let fits := fun (e : Int) => if fmt = 4 then scaled (min X e) false M X ≤ scaled (min X e) false 3 e
        else scaled (min X e) false M X < scaled (min X e) false 8 e
      ∃ e : Int, -127 ≤ e ∧ r.2.1.toNat = (e + 127).toNat ∧ fits e ∧ (-127 < e → ¬fits (e - 1)) ∧
        (r.2.2 = true ↔ e = -127 ∧ fits (-128)) ∧
        ∀ i x n m y, xs[i]? = some (some x, false) → f32 x = .fin n m y →
          let q := if fmt = 4 then min 3 (if e ≤ y then m * 2 ^ (y - e).toNat else (rshr 0 n m (e - y).toNat).1)
            else (encFV fmtE2M1 0 true (.fin false m (y - e))).1
          code i = if q = 0 then 0 else (if n then 2 ^ (w - 1) else 0) + q)) ∧
  (∀ (fmt : Nat) (rows : List (Array (Option Nat))) (theta : Word) (mode : Bool) (v : Nat),
    let one := fun (x : Nat) => decide (0x7F800000 ≤ x % 2 ^ 31 ∨ theta.toNat < x % 2 ^ 31)
    let cand := fun (x : Option Nat) => x.any one
    let count := (rows.map (fun row => (row.toList.filter cand).length)).sum
    let at' := fun (r k : Nat) => (rows.getD r #[]).getD k none
    (512 < count → mode = false → encodeSeg fmt rows theta mode v = .trap count) ∧
    (fmt = 4 ∨ fmt = 5 → count ≤ 512 → rows.length ≤ 64 → (∀ row, row ∈ rows → row.size ≤ kStep fmt) → v < 2 ^ 12 →
      ∃ (bs : List Byte) (fl : Fl) (es : List (Nat × Nat × Nat)), encodeSeg fmt rows theta mode v = .ok bs fl ∧
        bs.length = segSize fmt ∧ es.length = count ∧
        es.Pairwise (fun p q => p.1 * 1024 + p.2.1 < q.1 * 1024 + q.2.1) ∧
        (∀ r k x, (r, k, x) ∈ es ↔ at' r k = some x ∧ one x = true) ∧
        let field := fun (o n : Nat) => leNat ((bs.drop o).take n)
        let blocks := kStep fmt / 32
        let block := fun (r j : Nat) => encBlock fmt ((List.range 32).map (fun i =>
          (at' r (32 * j + i), cand (at' r (32 * j + i)))))
        let under := ∃ r j, r < 64 ∧ j < blocks ∧ (block r j).2.2 = true
        field 0 4 = 0x3A7E5E61 ∧ bitsN (field 4 4) 0 12 = v ∧ bitsN (field 4 4) 12 10 = count ∧ bitsN (field 4 4) 22 2 = fmt - 4 ∧
        (bitsN (field 4 4) 24 1 = 1 ↔ mode = true) ∧ bitsN (field 4 4) 25 1 = 0 ∧ (bitsN (field 4 4) 26 1 = 1 ↔ under) ∧
        bitsN (field 4 4) 27 1 = 1 ∧ bitsN (field 4 4) 28 4 = 0 ∧ field 8 4 = theta.toNat ∧
        field 12 4 = (crc32c (bs.drop 0x80)).toNat ∧
        (∀ r, bitsN (field 0x10 8) r 1 = 1 ↔ ∃ e, e ∈ es ∧ e.1 = r) ∧ field 0x18 0x68 = 0 ∧
        (∀ r j, r < 64 → j < blocks → (bs.drop (0x80 + 384 * r + 4 * codeWidth fmt * j)).take (4 * codeWidth fmt) = (block r j).1 ∧
          bs[0x6080 + blocks * r + j]? = some (block r j).2.1) ∧
        (∀ n, n < 512 → field (poolOff fmt + 4 * n) 4 = match es[n]? with
          | some (r, k, x) => (encFV fmtBF16 0 false (FV.ofBits fmtF32 x)).1 * 65536 + r * 1024 + k
          | none => 0) ∧
        (fl &&& flBUF ≠ 0 ↔ under) ∧ fl &&& flBCLAMP = 0)) ∧
  (∀ (s s1 : State) (o : Op) (r : MxRun) im fl w, s.encImage o r = .ok s1 im fl w → isSplit r.recB.fmt →
    ∃ rows bs, encodeSeg r.recB.fmt rows r.recB.theta r.recB.mode r.recB.version = .ok bs fl ∧
      (∀ i k, r.recA.dim1 ≤ i ∨ r.recA.dim0 ≤ k → (rows.getD i #[]).getD k none = none) ∧
      (∀ i k, i < 64 → k < kStep r.recB.fmt → i < r.recA.dim1 → k < r.recA.dim0 → r.recA.scalebase = 0 →
        (rows.getD i #[]).getD k none ≠ none) ∧
      let headerFirst := im.drop (im.length - 1) ++ im.take (im.length - 1)
      headerFirst.flatMap (·.2.2) = bs ∧
      ∀ n l a b, headerFirst[n]? = some (l, a, b) →
        a = r.recB.base + BitVec.ofNat 64 ((headerFirst.take n).flatMap (·.2.2)).length) ∧
  ∀ s : State,
    (∀ (a b : SReg) (f : BitVec 1) (enc : Bool),
      let i := if enc then Instr.splitEnc a b f else Instr.splitDec a b f
      let x := s.sreg a.toNat
      let y := s.sreg b.toNat
      let cu := s.myWg.cu
      s.goes i → s.recordFull = false → s.flagFree (s.flagSel f) →
      (x.toNat % 64 ≠ 0 → exec i s = .next (s.takeAt 0x22 0 x 0 none)) ∧
      (x.toNat % 64 = 0 → y.toNat % 64 ≠ 0 → exec i s = .next (s.takeAt 0x22 0 y 0 none)) ∧
      (x.toNat % 64 = 0 → y.toNat % 64 = 0 →
        ((s.cu cu).mxq ≠ [] → Completes i s (fun t => s.posted t (.split enc x y s.hint) (s.flagSel f) [] ∧
          (t.cu cu).mxq = (s.cu cu).mxq ++ [s.nextId])) ∧
        ((s.cu cu).mxq = [] → Completes i s (fun t => (∀ z, t.hbm z = s.hbm z) ∧ s.advanced t ∧
          (s.nextId ∈ (t.cu cu).mxq ∨ (∃ r, r ∈ (t.cu cu).mxRuns ∧ r.op = s.nextId) ∨ ∀ o, o ∈ t.ops → o.id ≠ s.nextId))))) ∧
    (∀ cu id rest o, (s.cu cu).mxq = id :: rest → (s.cu cu).mxRuns.length < 16 → s.op id = some o → o.cu = cu →
      let go := fun (r : MxTry) =>
        (∀ s1 o1 run, r = .go s1 o1 run → Completes (.mxQueueEntry cu) s (fun t => (∀ a, t.hbm a = s.hbm a) ∧
          (t.cu cu).mxq = rest ∧ run ∈ (t.cu cu).mxRuns ∧ t.op id = some { o1 with st := .running })) ∧
        (∀ s1 w c d a, r = .fail s1 w c d a → o.gwct ≤ s.lease cu → Completes (.mxQueueEntry cu) s (fun t =>
          (∀ a, t.hbm a = s.hbm a) ∧ id ∉ (t.cu cu).mxq ∧ ∀ q, q ∈ t.ops → q.id ≠ id)) ∧
        (r = .wait → exec (.mxQueueEntry cu) s = .next s)
      (∀ g p ss, o.kind = .gang g p ss → go (if p.op = 3 then s.epiEntry o g p ss else s.mmEntry o g p ss)) ∧
      (∀ enc a b h, o.kind = .split enc a b h → go (s.splitEntry o enc a b))) ∧
    (∀ cu r rest o, (s.cu cu).mxRuns = r :: rest → s.op r.op = some o →
      (∀ g p ss s1 s2 ra rb w1 w2, o.kind = .gang g p ss → p.op ≠ 3 → r.t ≠ r.tEnd →
        s.fetchStep o r.recA r.t 0 r.recA.dim1 = .ok s1 ra w1 → s1.fetchStep o r.recB r.t 1 r.recB.dim1 = .ok s2 rb w2 →
        let acc := (r.acc.zip ra).map (fun e => (e.1.zip rb).map (fun y => (stepElem r.recA.fmt r.recB.fmt e.2 y.2 y.1).1))
        Completes (.matrixStep cu) s (fun t => (∀ a, t.hbm a = s.hbm a) ∧
          (t.gang o.who.wg g).step = BitVec.ofNat 16 (r.t + 1) ∧
          (∃ x, x ∈ (t.cu cu).mxRuns ∧ x.op = r.op ∧ x.t = r.t + 1 ∧ x.acc = acc) ∧
          (∀ z, ss = [z] → z.who.wg = o.who.wg → (lanesOf z.mask).length ≤ rb.length → acc.length = ra.length →
            r.acc.length = ra.length → (∀ row, row ∈ r.acc → row.length = (lanesOf z.mask).length) →
            ∀ (i j l : Nat), i < ra.length → (lanesOf z.mask)[j]? = some l → l < (s.wg z.who.wg).warp →
              let v := t.vreg z.who.wg z.who.slot (z.base.toNat + p.acc + i)
              v.tag = 3 ∧ v.lane l = BitVec.ofNat 32 ((acc.getD i []).getD j 0)))) ∧
      (∀ img pa va bs, (∃ enc a b h, o.kind = .split enc a b h) ∨ (∃ g p ss, o.kind = .gang g p ss ∧ p.op = 3) →
        r.t ≠ r.tEnd → r.img = some img → img[r.t]? = some (.mem pa, va, bs) →
        r.t + 1 < img.length ∨ o.gwct ≤ s.lease o.cu → inHbm pa = true → s.memOk →
        Completes (.matrixStep cu) s (fun t =>
          (∀ a, t.hbm a = if pa ≤ a ∧ a < pa + bs.length then bs.getD (a - pa) 0 else s.hbm a) ∧
          ∃ x, x ∈ (t.cu cu).mxRuns ∧ x.op = r.op ∧ x.t = r.t + 1)) ∧
      (r.t = r.tEnd → o.scope.code ≤ 3 ∨ (o.cls &&& clsWrites) = 0 ∨ o.gwct ≤ s.lease o.cu →
        Completes (.mxOperationComplete cu) s (fun t => (∀ a, t.hbm a = s.hbm a) ∧ (∀ q, q ∈ t.ops → q.id ≠ r.op) ∧
          (∀ x, x ∈ (t.cu cu).mxRuns → x.op ≠ r.op) ∧
          ∀ g p ss, o.kind = .gang g p ss → (t.gang o.who.wg g).st = .idle)))

-- Sparse engine and copy engine -----------------------------------------------------------------------------------------------------

/-- R304-R310: a row product or a flush with a bad operand raises its cause and reason; else it is posted to the CU's queue of 16, or waits
in place. A term is added to its column of the working list, in ascending columns. A finished row product is committed to the accumulator in
the scratchpad; a flush writes its entries, and once they are performed its header, and clears the count; what fails ends with its fault.
The rack serves a copy it holds and fetches another with its lease; `RACK.INV` removes the lines of its range and no other, and `RACK.HINT`
changes no register and no memory.
The model's choice in it: log 52, 70. -/
def Obligations.SparseOperations : Prop :=
  (∀ (j p : Nat) (l : List (Nat × Nat)), List.Pairwise (fun x y => x.1 < y.1) l →
    let r := (addTerm j p l).1
    List.Pairwise (fun x y => x.1 < y.1) r ∧ (∀ c v, c ≠ j → ((c, v) ∈ r ↔ (c, v) ∈ l)) ∧
    (∀ v, (j, v) ∈ l → (j, (addF32 v p).1) ∈ r ∧ (addTerm j p l).2 = (addF32 v p).2) ∧
    ((∀ v, (j, v) ∉ l) → (j, (addF32 0 p).1) ∈ r ∧ (addTerm j p l).2 = (addF32 0 p).2)) ∧
  (∀ (s : State) (wg off : Nat),
    let n := s.pad32 wg off
    let col := fun (i : Nat) => s.pad32 wg (off + 0x40 + 4 * i)
    let good := n ≤ 4096 ∧ (∀ i, i < 60 → s.pad wg (off + 4 + i) = 0) ∧ ∀ i, i + 1 < n → col i < col (i + 1)
    (good → s.readSpa wg off = some ((List.range n).map (fun i => (col i, s.pad32 wg (off + 0x4040 + 4 * i))))) ∧
    (¬good → s.readSpa wg off = none)) ∧
  (∀ (s : State) (wg cu : Nat) (cid : BitVec 12) (va : DWord) (n pa : Nat) (l : Option TLeaf) (retain : Bool),
    let asid := (s.ctx cid).asid
    let sec := BitVec.ofNat 64 (sectorOf va.toNat)
    (∀ x, (s.cu cu).rack.find? (fun x => x.asid == asid && x.va == sec) = some x → (∀ e, x.expiry = some e → s.lease cu < e) →
      ∃ t, s.rackRead wg cu cid va n retain = .ok t ((x.data.drop (va.toNat % 32)).take n) x.wvt ∧ ∀ a, t.hbm a = s.hbm a) ∧
    ((∀ x, x ∈ (s.cu cu).rack → x.asid = asid → x.va = sec → ∃ e, x.expiry = some e ∧ e ≤ s.lease cu) →
      s.accessOp wg cu cid va .read = .at (.mem pa) l → refuseGse (.mem pa) l = none → cacheable (.mem pa) l = true → s.poisoned pa = false →
      ∃ t x, s.rackRead wg cu cid va n retain = .ok t (((s.hbmBytes (sectorOf pa) 32).drop (va.toNat % 32)).take n) (s.secMeta (sectorOf pa)).wvt ∧
        x ∈ (t.cu cu).rack ∧ x.asid = asid ∧ x.va = sec ∧ x.data = s.hbmBytes (sectorOf pa) 32 ∧ ∀ a, t.hbm a = s.hbm a)) ∧
  ∀ s : State,
    (∀ (a b : SReg) (f : BitVec 1),
      let d := s.sreg a.toNat
      let w := s.sreg b.toNat
      let posts := fun (i : Instr) (k : OpKind) =>
        let room := (s.cu s.myWg.cu).gseq.length < 16 ∧ s.recordFull = false ∧ s.flagFree (s.flagSel f)
        (¬room → exec i s = .next s.waitHere) ∧
        (room → Completes i s (fun t => s.posted t k (s.flagSel f) [] ∧
          (t.cu s.myWg.cu).gseq = (s.cu s.myWg.cu).gseq ++ [s.nextId]))
      let bad := fun (i : Instr) (n : Nat) => exec i s = .next (s.take 0x40 n)
      let fits := fun (off : Nat) => off % 64 = 0 ∧ off + 0x8040 ≤ s.myWg.ssize
      (s.goes (.spgRow a b f) →
        let i := Instr.spgRow a b f
        let ok := fld w 53 11 = 0
        (d.toNat % 128 ≠ 0 → exec i s = .next (s.takeAt 0x22 0 d 0 none)) ∧ (d.toNat % 128 = 0 → ¬ok → bad i 6) ∧
        (d.toNat % 128 = 0 → ok → ¬fits (fld w 32 21) → bad i 7) ∧
        (d.toNat % 128 = 0 → ok → fits (fld w 32 21) → posts i (.spgRow d (fld w 0 32) (fld w 32 21)))) ∧
      (s.goes (.spgFlush a b f) →
        let i := Instr.spgFlush a b f
        let ok := fld w 21 11 = 0 ∧ fld w 50 14 = 0
        (d.toNat % 16 ≠ 0 → exec i s = .next (s.takeAt 0x22 0 d 0 none)) ∧ (d.toNat % 16 = 0 → ¬ok → bad i 6) ∧
        (d.toNat % 16 = 0 → ok → ¬fits (fld w 0 21) → bad i 7) ∧
        (d.toNat % 16 = 0 → ok → fits (fld w 0 21) → 4096 < fld w 32 16 → bad i 8) ∧
        (d.toNat % 16 = 0 → ok → fits (fld w 0 21) → fld w 32 16 ≤ 4096 → posts i (.spgFlush d w none))) ∧
      (s.goes (.rackHint a b) → Completes (.rackHint a b) s (fun t => Kept s t ∧ s.advanced t ∧ t.ops = s.ops)) ∧
      (s.goes (.rackInv a b) → Completes (.rackInv a b) s (fun t => Quiet s t ∧ s.advanced t ∧
        (t.fib s.actor).regs = s.me.regs ∧ ∀ x,
          let lo := x.va.toNat / 128 * 128
          let hit := x.asid = s.myCtx.asid ∧ 0 < w.toNat ∧ (2 ^ 32 ≤ w.toNat ∨ (lo < d.toNat + w.toNat ∧ d.toNat < lo + 128))
          x ∈ (t.cu s.myWg.cu).rack ↔ x ∈ (s.cu s.myWg.cu).rack ∧ ¬hit))) ∧
    (∀ cu id rest o, (s.cu cu).gseq = id :: rest → s.op id = some o →
      (∀ desc row off, o.kind = .spgRow desc row off → o.st = .queued →
        (∀ s1 work fl w, s.rowProduct o desc row off = .ok s1 work fl w →
          Completes (.gseOperation cu) s (fun t => Kept s t ∧ ∃ q, t.op id = some q ∧ q.st = .running ∧ q.sticky = o.sticky ||| fl ∧
            q.ot = Nat.max o.ot w ∧ q.argv = [(0, work.map (fun e => BitVec.ofNat 32 e.1)), (1, work.map (fun e => BitVec.ofNat 32 e.2))])) ∧
        (∀ s1 fl w c dt a, s.rowProduct o desc row off = .fail s1 fl w c dt a → s.settles o → Completes (.gseOperation cu) s (fun t =>
          (∀ z, t.hbm z = s.hbm z) ∧ s.failed t o c dt ∧ id ∉ (t.cu cu).gseq)) ∧
        (s.rowProduct o desc row off = .wait → exec (.gseOperation cu) s = .next s)) ∧
      (∀ desc row off cs vs, o.kind = .spgRow desc row off → o.st = .running → o.argv = [(0, cs), (1, vs)] → cs.length = vs.length →
        cs.length ≤ 4096 → Completes (.gseOperation cu) s (fun t => (∀ a, t.hbm a = s.hbm a) ∧ id ∉ (t.cu cu).gseq ∧
          t.pad32 o.who.wg off = cs.length ∧
          (∀ i, i < cs.length → t.pad32 o.who.wg (off + 0x40 + 4 * i) = (cs.getD i 0).toNat ∧
            t.pad32 o.who.wg (off + 0x4040 + 4 * i) = (vs.getD i 0).toNat) ∧
          ∀ g x, g ≠ o.who.wg ∨ x < off ∨ off + 0x8040 ≤ x → t.pad g x = s.pad g x)) ∧
      (∀ d w, o.kind = .spgFlush d w none → o.st = .queued →
        let off := fld w 0 21
        let cap := fld w 32 16
        (s.readSpa o.who.wg off = none → s.settles o → Completes (.gseOperation cu) s (fun t => (∀ a, t.hbm a = s.hbm a) ∧
          s.failed t o 0x42 1)) ∧
        (∀ es, s.readSpa o.who.wg off = some es →
          let l := es.filter (fun e => !w.getLsbD 48 || e.2 % 2 ^ 31 != 0)
          (∀ c x a, s.engPlaces o.who.wg cu o.ctx d (16 + 8 * cap) refuseGse = .error (c, x, a) → s.settles o →
            Completes (.gseOperation cu) s (fun t => (∀ z, t.hbm z = s.hbm z) ∧ s.failed t o c x)) ∧
          (∀ ps, s.engPlaces o.who.wg cu o.ctx d (16 + 8 * cap) refuseGse = .ok ps →
            (∀ s1 g1, cap < l.length → s.engWriteVa o.who.wg cu o.ctx d (leBytes l.length 4 ++ leBytes 1 4) (fun _ => .clear) refuseGse = .ok s1 g1 →
              Completes (.gseOperation cu) s (fun t => (∀ a, t.hbm a = s1.hbm a) ∧ ∀ g a, t.pad g a = s1.pad g a)) ∧
            (∀ s1 g1 s2 g2, l.length ≤ cap →
              s.engWriteVa o.who.wg cu o.ctx (d + 16) (l.flatMap (fun e => leBytes e.1 4)) (fun _ => .clear) refuseGse = .ok s1 g1 →
              s1.engWriteVa o.who.wg cu o.ctx (d + BitVec.ofNat 64 (16 + 4 * cap)) (l.flatMap (fun e => leBytes e.2 4)) (fun _ => .clear)
                refuseGse = .ok s2 g2 →
              Completes (.gseOperation cu) s (fun t => (∀ a, t.hbm a = s2.hbm a) ∧ ∃ q, t.op id = some q ∧ q.st = .running ∧
                q.gwct = Nat.max (Nat.max o.gwct g1) g2 ∧ q.argv = [(0, [BitVec.ofNat 32 l.length])] ∧
                q.kind = .spgFlush d w (ps.head?.map (·.1))))))) ∧
      (∀ d w pa m, o.kind = .spgFlush d w (some (.mem pa)) → o.st = .running → o.argv = [(0, [m])] → inHbm pa = true → s.memOk →
        pa + 16 ≤ hbmEnd →
        (4 ≤ o.scope.code → s.lease cu < o.gwct → exec (.gseOperation cu) s = .next s) ∧
        (o.scope.code ≤ 3 ∨ o.gwct ≤ s.lease cu → Completes (.gseOperation cu) s (fun t =>
          (∀ a, t.hbm a = if pa ≤ a ∧ a < pa + 16 then (leBytes m.toNat 16).getD (a - pa) 0 else s.hbm a) ∧ id ∉ (t.cu cu).gseq ∧
          (w.getLsbD 49 = false → t.pad32 o.who.wg (fld w 0 21) = 0) ∧
          ∀ g x, g ≠ o.who.wg ∨ x < fld w 0 21 ∨ fld w 0 21 + 4 ≤ x ∨ w.getLsbD 49 = true → t.pad g x = s.pad g x))))

/-- R315, R317, R321, R323, R325-R330: a copy whose operands fail a check raises its cause and reason; one of length zero ends at once; else
it is posted to the CU's queue, or waits in place. The oldest takes a free channel, a tensor copy after the checks of its records. Each step
moves the next unit, or the elements of one aligned 8-byte unit, in copy order, with the bytes and the tag of its kind, under the check of
its guard, whose failure ends it with the units before it committed; aligned 8-byte units of the source are read whole. After the last
unit, and for a segment copy after its first, written as a release, the copy completes.
The model's choice in it: log 71, 72, 73, 74. -/
def Obligations.CopyOperations : Prop :=
  (∀ d n i : Nat, 0 < n → i < unitCount d n →
    let u := unitOf d n i
    0 < u.2 ∧ u.2 ≤ 128 ∧ (d + u.1) / 128 = d / 128 + i ∧ (d + u.1 + u.2 - 1) / 128 = d / 128 + i ∧
    (i = 0 → u.1 = 0) ∧ (i + 1 < unitCount d n → (unitOf d n (i + 1)).1 = u.1 + u.2) ∧ (i + 1 = unitCount d n → u.1 + u.2 = n)) ∧
  ∀ s : State,
    (∀ (l a b : SReg) (f : BitVec 1),
      let d := s.sreg a.toNat
      let x := s.sreg b.toNat
      let n := (s.sreg l.toNat).toNat
      let g := s.sreg (l.toNat + 1)
      let bad := fun (i : Instr) (r : Nat) => exec i s = .next (s.take 0x48 r)
      let posts := fun (i : Instr) (c : CopyArgs) =>
        let room := (s.cu s.myWg.cu).ceq.length + (s.cu s.myWg.cu).chans.length < 64 ∧ s.recordFull = false ∧ s.flagFree (s.flagSel f)
        (¬room → exec i s = .next s.waitHere) ∧
        (room → Completes i s (fun t => s.posted t (.copy c) (s.flagSel f) [] ∧
          (t.cu s.myWg.cu).ceq = (s.cu s.myWg.cu).ceq ++ [s.nextId]))
      let meet := x.toNat < d.toNat + n ∧ d.toNat < x.toNat + n
      (s.goes (.cp l a b f) →
        let i := Instr.cp l a b f
        (n = 0 → exec i s = .next s.retire) ∧ (2 ^ 36 ≤ n → bad i 2) ∧ (n ≠ 0 → n < 2 ^ 36 → meet → bad i 4) ∧
        (n ≠ 0 → n < 2 ^ 36 → ¬meet → posts i (.start 0 d x n 0 s.hint))) ∧
      (s.goes (.cpG l a b f) →
        let i := Instr.cpG l a b f
        let mode := fld g 0 2
        let seg := g.getLsbD 2
        let ver := fld g 4 12
        let rsv := g.getLsbD 3 = true ∨ fld g 16 48 ≠ 0 ∨ mode = 3
        let wrong := (mode = 0 ∧ (ver = 0 ∨ seg = true)) ∨ (seg = true ∧ ver ≠ 0)
        let odd := d.toNat % 128 ≠ 0 ∨ x.toNat % 128 ≠ 0
        (n = 0 → exec i s = .next s.retire) ∧ (2 ^ 36 ≤ n → bad i 2) ∧
        (n ≠ 0 → n < 2 ^ 36 → (rsv → bad i 1) ∧ (¬rsv → wrong → bad i 5) ∧ (¬rsv → ¬wrong → odd → bad i 3) ∧
          (¬rsv → ¬wrong → ¬odd → n % 128 ≠ 0 → bad i 2) ∧ (¬rsv → ¬wrong → ¬odd → n % 128 = 0 → meet → bad i 4) ∧
          (¬rsv → ¬wrong → ¬odd → n % 128 = 0 → ¬meet → posts i (.start 1 d x n g s.hint)))) ∧
      (s.goes (.cpMc l a b f) →
        let i := Instr.cpMc l a b f
        let c := s.cluster s.myWg.cluster
        let size := n % 16 ≠ 0 ∨ 2 ^ 36 ≤ n
        let odd := fld d 0 21 % 16 ≠ 0 ∨ x.toNat % 16 ≠ 0
        let out := fld d 21 11 ≠ 0 ∨ fld d 48 16 ≠ 0 ∨ targetRanks d = [] ∨ (∃ r, r ∈ targetRanks d ∧ c.cw * c.ch ≤ r) ∨
          s.myWg.ssize < fld d 0 21 + n
        (n = 0 → exec i s = .next s.retire) ∧
        (n ≠ 0 → (size → bad i 2) ∧ (¬size → odd → bad i 3) ∧ (¬size → ¬odd → out → bad i 6) ∧
          (¬size → ¬odd → ¬out → c.place = .stopping → exec i s = .next s.waitHere) ∧
          (¬size → ¬odd → ¬out → c.place ≠ .stopping → posts i (.start 3 d x n 0 s.hint)))) ∧
      (∀ r, r ∈ targetRanks d ↔ r < 16 ∧ d.getLsbD (32 + r) = true) ∧
      (s.goes (.cpT a b f) →
        let i := Instr.cpT a b f
        (d.toNat % 64 ≠ 0 → exec i s = .next (s.takeAt 0x22 0 d 0 none)) ∧
        (d.toNat % 64 = 0 → x.toNat % 64 ≠ 0 → exec i s = .next (s.takeAt 0x22 0 x 0 none)) ∧
        (d.toNat % 64 = 0 → x.toNat % 64 = 0 → posts i (.start 2 d x 0 0 s.hint))) ∧
      (∃ v : DWord, WritesScalar (.cpStat 0 l) s l v ∧ (∀ c, c < 4 → v.getLsbD c = Tbl.has (s.cu s.myWg.cu).chans c) ∧
        v.toNat / 16 = ((s.cu s.myWg.cu).ceq.length + (s.cu s.myWg.cu).chans.length) % 2 ^ 60) ∧
      WritesScalar (.cpStat 1 l) s l (BitVec.ofNat 64 (s.ops.countP (fun o => o.who == s.actor && o.fid == s.me.fid &&
        (match o.kind with | .copy _ => true | _ => false)))) ∧
      WritesScalar (.cpStat 2 l) s l s.me.ceTag) ∧
    (∀ cu chan id rest o c, (s.cu cu).ceq = id :: rest → s.op id = some o → o.kind = .copy c →
      let started := fun (q : Op) => Completes (.copyStart cu chan) s (fun t => Kept s t ∧ (t.cu cu).ceq = rest ∧
        Tbl.get (t.cu cu).chans chan 0 = id ∧ t.op id = some { q with st := .running })
      (4 ≤ chan ∨ Tbl.has (s.cu cu).chans chan = true → exec (.copyStart cu chan) s = .next s) ∧
      (chan < 4 → Tbl.has (s.cu cu).chans chan = false → (c.kind ≠ 2 → started o) ∧
        (c.kind = 2 → c.recD = none → ∀ s1 bd w1 s2 bs w2,
          s.engRead o.who.wg o.cu o.ctx c.dst 192 refuseCe = .ok s1 bd w1 → s1.engRead o.who.wg o.cu o.ctx c.src 192 refuseCe = .ok s2 bs w2 →
          let d := recOf c.dst bd
          let x := recOf c.src bs
          (∀ r, copyPair bd d bs x = some r → o.cu = cu → c.off = 0 → s.settles o → Completes (.copyStart cu chan) s (fun t =>
            (∀ a, t.hbm a = s.hbm a) ∧ s.failed t o 0x49 (r % 256) ∧ id ∉ (t.cu cu).ceq)) ∧
          (copyPair bd d bs x = none → started { o with
            ot := Nat.max o.ot (Nat.max w1 w2), kind := .copy { c with recD := some d, recS := some x } })))) ∧
    (∀ id o c, s.op id = some o → o.kind = .copy c → o.st = .running →
      let lands := fun (t : State) (pa : Nat) (bs : List Byte) =>
        (∀ a, t.hbm a = if pa ≤ a ∧ a < pa + bs.length then bs.getD (a - pa) 0 else s.hbm a) ∧ ∀ r, (t.fib r).regs = (s.fib r).regs
      let next := fun (t : State) (c1 : CopyArgs) => ∃ q, t.op id = some q ∧ q.kind = .copy c1
      let free := c.off = 0 → s.copyTagless o c = none
      (∀ a, c.off = 0 → c.off < c.units → s.copyTagless o c = some a → c.first = none → s.settles o → Completes (.copyComplete id) s (fun t =>
        (∀ z, t.hbm z = s.hbm z) ∧ s.failed t o 0x4A 3)) ∧
      (∀ va n lim v, 0 < n →
        (c.heldAt va = [] → ∃ m, n ≤ m ∧ m < n + 8 ∧ (m = n ∨ m ≤ lim) ∧ (lim ≤ m ∨ (va.toNat + m) % 8 = 0) ∧
          s.copyFetch o c va n lim v = s.copyRead o va m v) ∧
        (∀ bs, c.held = some (va, bs) → n ≤ bs.length → s.copyFetch o c va n lim v = .ok s bs 0 (s.tagAt o va))) ∧
      (∀ s1 all bs w tag pa e, c.kind = 0 ∨ c.kind = 1 → c.off < c.units → free → ¬(c.kind = 1 ∧ c.guard.getLsbD 2 = true ∧ c.off = 0) →
        let u := unitOf c.dst.toNat c.len c.off
        let mode := fld c.guard 0 2
        let va := c.dst + BitVec.ofNat 64 u.1
        c.dst.toNat + c.len < 2 ^ 64 →
        s.copyFetch o c (c.src + BitVec.ofNat 64 u.1) u.2 (c.len - u.1) (if c.kind = 1 ∧ mode ≠ 0 then some (s.copyVersion o c) else none) =
          .ok s1 all w tag → all.take u.2 = bs →
        s1.accessOp o.who.wg o.cu o.ctx va .write = .at (.mem pa) e → refuseCe (.mem pa) e = none → inHbm pa = true →
        pa / 128 = (pa + bs.length - 1) / 128 → bs.length = u.2 → s.memOk → Completes (.copyComplete id) s (fun t =>
          lands t pa bs ∧ next t { c with off := c.off + 1, held := some (c.src + BitVec.ofNat 64 (u.1 + u.2), all.drop u.2) } ∧
          (c.kind = 0 ∨ mode = 2 → t.guardTag pa = 0) ∧
          (c.kind = 1 → mode = 1 → pa % 128 = 0 → t.guardTag pa = mkTag (fld tag 52 12) va (tag.setWidth 32)) ∧
          (c.kind = 1 → mode = 0 → pa % 128 = 0 → u.2 = 128 → t.guardTag pa = mkTag (fld c.guard 4 12) va (crc32c bs)))) ∧
      (∀ s1 w k dt a tag, c.kind = 0 ∨ c.kind = 1 → c.off < c.units → free →
        let u := unitOf c.dst.toNat c.len c.off
        s.copyFetch o c (c.src + BitVec.ofNat 64 u.1) u.2 (c.len - u.1)
            (if c.kind = 1 ∧ fld c.guard 0 2 ≠ 0 then some (s.copyVersion o c) else none) =
          .fail s1 w k dt a tag → s.settles o → Completes (.copyComplete id) s (fun t => (∀ z, t.hbm z = s.hbm z) ∧
            s.failed t o k (dt % 256 + (if c.kind = 1 ∧ c.guard.getLsbD 2 = true then 0 else c.off % 2 ^ 39) * 256))) ∧
      (∀ s1 all w tag, c.kind = 1 → c.guard.getLsbD 2 = true → c.off = 0 → c.off < c.units → free →
        let u := unitOf c.dst.toNat c.len 0
        s.copyFetch o c (c.src + BitVec.ofNat 64 u.1) u.2 (c.len - u.1)
          (if fld c.guard 0 2 ≠ 0 then some (s.copyVersion o c) else none) = .ok s1 all w tag →
        Completes (.copyComplete id) s (fun t => (∀ a, t.hbm a = s.hbm a) ∧ ∃ q c1, t.op id = some q ∧ q.kind = .copy c1 ∧ c1.off = 1 ∧
          ∃ tg, c1.first = some (all.take u.2, tg))) ∧
      (∀ bs tag, c.units ≤ c.off → c.first = some (bs, tag) →
        (4 ≤ o.scope.code → s.lease o.cu < max o.gwct o.ot → exec (.copyComplete id) s = .next s) ∧
        (∀ pa e, o.scope.code ≤ 3 ∨ max o.gwct o.ot ≤ s.lease o.cu → s.accessOp o.who.wg o.cu o.ctx c.dst .write = .at (.mem pa) e →
          refuseCe (.mem pa) e = none → inHbm pa = true → 0 < bs.length → c.dst.toNat % 128 + bs.length ≤ 128 →
          pa / 128 = (pa + bs.length - 1) / 128 → s.memOk →
          Completes (.copyComplete id) s (fun t => lands t pa bs ∧ next t { c with first := none }))) ∧
      (∀ d x s1 q c1 t, c.kind = 2 → c.recD = some d → c.recS = some x → c.off < c.units → free → s.moveElement o c d x = s1 →
        s1.op id = some q → q.kind = .copy c1 → q.st = .running → c1.off = c.off + 1 → c1.off < c.units →
        (d.elemAt c1.off).toNat / 8 = (d.elemAt c.off).toNat / 8 →
        (∃ j, j ≤ 8 ∧ (c.units ≤ c.off + j ∨ (d.elemAt (c.off + j)).toNat / 8 ≠ (d.elemAt c.off).toNat / 8)) →
        exec (.copyComplete id) s1 = .next t → t ≠ s1 → exec (.copyComplete id) s = .next t) ∧
      (∀ d x s1 all bs w tag pa e, c.kind = 2 → c.recD = some d → c.recS = some x → c.off < c.units → free → d.fmt = x.fmt →
        c.units ≤ c.off + 1 ∨ (d.elemAt (c.off + 1)).toNat / 8 ≠ (d.elemAt c.off).toNat / 8 →
        let lim := match s.accessOp o.who.wg o.cu o.ctx (x.elemAt c.off) .read with | .at (.decant ..) _ => copySize x.fmt | _ => 8
        s.copyFetch o c (x.elemAt c.off) (copySize x.fmt) lim (if x.guard then some x.version else none) = .ok s1 all w tag →
        all.take (copySize x.fmt) = bs → bs.length = copySize x.fmt → pa % copySize x.fmt = 0 → (d.elemAt c.off).toNat % copySize x.fmt = 0 →
        s1.accessOp o.who.wg o.cu o.ctx (d.elemAt c.off) .write = .at (.mem pa) e → refuseCe (.mem pa) e = none → inHbm pa = true → s.memOk →
        Completes (.copyComplete id) s (fun t => lands t pa bs ∧ next t { c with off := c.off + 1, held := some (x.elemAt c.off, all) })) ∧
      (∀ s1 bs w tag, c.kind = 3 → c.off < c.units → s.copyRead o (c.src + BitVec.ofNat 64 (unitOf (fld c.dst 0 21) c.len c.off).1)
          (unitOf (fld c.dst 0 21) c.len c.off).2 none = .ok s1 bs w tag →
        Completes (.copyComplete id) s (fun t => (∀ a, t.hbm a = s.hbm a) ∧ next t { c with off := c.off + 1 } ∧
          ∀ r g i, r ∈ targetRanks c.dst → s.rankWg (s.wg o.who.wg).cluster r = some g → i < bs.length →
            t.pad g (fld c.dst 0 21 + (unitOf (fld c.dst 0 21) c.len c.off).1 + i) = bs.getD i 0)) ∧
      (c.units ≤ c.off → c.first = none → s.settles o →
        Completes (.copyComplete id) s (fun t => (∀ a, t.hbm a = s.hbm a) ∧ (∀ q, q ∈ t.ops → q.id ≠ id) ∧
          ∀ e, e ∈ (t.cu o.cu).chans → e.2 ≠ id)))

-- Fabric ------------------------------------------------------------------------------------------------------------------

/-- R354, R357, R359-R366: a transfer whose checks pass is posted and its first packet, or local piece, waits to be sent; one of length
zero ends at once; `TSEND` is armed, and waits while its CU has no room. The receive counters of a workgroup are read, set and
advanced; a message queue is posted, withdrawn and popped, a message waits to be sent; the dead peers are read and cleared. A word
with a reserved bit, an operand out of its range, a check that fails, and a queue that is not the context's raise the cause and the
reason of their rule.
The model's choice in it: log 83, 89, 90, 91. -/
def Obligations.FabricInstructions : Prop :=
  ∀ (s : State) (l a b c d : SReg) (f : BitVec 1),
    let fl := s.flagSel f
    let x := s.sreg a.toNat
    let y := s.sreg b.toNat
    let w := s.sreg c.toNat
    let k := w.toNat
    let g := s.actor.wg
    let bad := fun (i : Instr) (cause : BitVec 8) (detail : Nat) => exec i s = .next (s.take cause detail)
    let plan := fun (get : Bool) (gd : Option DWord) (n : Nat) => s.plan (fun need va => s.accessMe va need) get gd x y n
    let started := fun (i : Instr) (get : Bool) (gd : Option DWord) (n : Nat) (wrap : XferArgs → OpKind) =>
      (∀ v, plan get gd n = .ok v → s.flagFree fl → Completes i s (fun t => s.posted t (wrap v) fl [] ∧
        (wrap v = .xfer v → ∃ z, z ∈ t.fe.tx ∧ z.op = s.nextId ∧ z.part = 0 ∧ z.st = .waiting))) ∧
      (∀ e v q, plan get gd n = .fail e v q → exec i s = .next (s.takeAt e v q 0 none).dropWalks) ∧
      (∀ v, plan get gd n = .miss v → exec i s = .next (s.joinWalks v).waitHere)
    (let n := (s.sreg l.toNat).toNat
     let gw := s.sreg (l.toNat + 1)
     let plain := fun (i : Instr) (get : Bool) => s.goes i →
       (n = 0 → exec i s = .next s.retire) ∧ (2 ^ 32 ≤ n → bad i 0x51 2) ∧
       (n ≠ 0 → n < 2 ^ 32 → started i get none n .xfer)
     let guarded := fun (i : Instr) (get : Bool) => s.goes i →
       let aligned := x.toNat % 128 = 0 ∧ y.toNat % 128 = 0 ∧ n % 128 = 0
       (n = 0 → exec i s = .next s.retire) ∧ (2 ^ 32 ≤ n → bad i 0x51 2) ∧
       (n ≠ 0 → n < 2 ^ 32 →
         (badGuard get gw = true → bad i 0x51 5) ∧ (badGuard get gw = false → ¬aligned → bad i 0x51 3) ∧
         (badGuard get gw = false → aligned → started i get (some gw) n .xfer))
     plain (.put l a b f) false ∧ plain (.get l a b f) true ∧ guarded (.putG l a b f) false ∧ guarded (.getG l a b f) true) ∧
    (s.goes (.tsend c a b f) →
      let w2 := s.sreg (c.toNat + 1)
      let n := fld w 0 36
      let ok := fld w 36 4 = 0 ∧ fld w 48 16 = 0 ∧ fld w2 32 32 = 0 ∧ n ≠ 0
      let room := (s.ops.filter (fun o => o.cu == s.myWg.cu && !s.isSaved o.who.wg &&
        (match o.kind with | .tsend .. => true | _ => false))).length < 4096
      (¬ok → bad (.tsend c a b f) 0x51 4) ∧ (ok → 2 ^ 32 ≤ n → bad (.tsend c a b f) 0x51 2) ∧
      (ok → n < 2 ^ 32 → ¬room → exec (.tsend c a b f) s = .next s.waitHere) ∧
      (ok → n < 2 ^ 32 → room → started (.tsend c a b f) false none n (fun v => .tsend v (fld w 40 8) (w2.setWidth 32)))) ∧
    (k < 256 → WritesScalar (.cntRd d c) s d ((s.counter g k).value.setWidth 64)) ∧
    (256 ≤ k → (s.goes (.cntRd d c) → bad (.cntRd d c) 0x51 4) ∧ (s.goes (.cntAdd a c) → bad (.cntAdd a c) 0x51 4) ∧
      (s.goes (.cntwait a c f) → bad (.cntwait a c f) 0x51 4)) ∧
    (s.goes (.cntSet l a c) →
      let n := (s.sreg l.toNat).toNat
      let j := fld w 0 8
      let i := Instr.cntSet l a c
      let armed := ∃ o, o ∈ s.ops ∧ o.who.wg = g ∧ ∃ v th, o.kind = .tsend v j th
      let sets := fun (r : Option (DWord × Nat)) (ps : List (Nat × Nat)) =>
        (armed → exec i s = .next s.waitHere) ∧
        (¬armed → Completes i s (fun t => Kept s t ∧ s.advanced t ∧
          t.counter g j = { value := BitVec.ofNat 32 (fld w 32 32), region := r } ∧ (∀ e, e ≠ j → t.counter g e = s.counter g e) ∧
          ∀ e, e ∈ t.fe.regions ↔ (e ∈ s.fe.regions ∧ ¬(e.wg = g ∧ e.counter = j)) ∨
            ∃ p, p ∈ ps ∧ e = { wg := g, counter := j, pa := p.1, len := p.2 }))
      (fld w 8 24 ≠ 0 → bad i 0x51 4) ∧
      (fld w 8 24 = 0 → n = 0 → sets none []) ∧
      (fld w 8 24 = 0 → n ≠ 0 →
        (∀ rs e ps, s.regionCheck x n = (.ok rs e, ps) → sets (some (x, n)) ps) ∧
        (∀ e v q ps, s.regionCheck x n = (.fail e v q, ps) → exec i s = .next (s.takeAt e v q 0 none).dropWalks) ∧
        (∀ v ps, s.regionCheck x n = (.miss v, ps) → exec i s = .next (s.joinWalks v).waitHere))) ∧
    (s.goes (.cntAdd a c) → k < 256 →
      let stored := s.storesHome s.actor s.nextId clsW ∧ s.earlierDone s.actor s.nextId clsW .device false = true
      (¬stored → exec (.cntAdd a c) s = .next s.waitHere) ∧
      (stored → s.myWg.live = true → Completes (.cntAdd a c) s (fun t =>
        Kept s t ∧ s.advanced t ∧ (t.counter g k).value.toNat = min ((s.counter g k).value.toNat + x.toNat) (2 ^ 32 - 1) ∧
        (t.counter g k).region = (s.counter g k).region ∧ ∀ j, j ≠ k → t.counter g j = s.counter g j))) ∧
    (s.goes (.cntwait a c f) → k < 256 → s.flagFree fl →
      Completes (.cntwait a c f) s (fun t => s.posted t (.cntwait k x) fl [])) ∧
    (s.goes (.qpost c a) →
      let i := Instr.qpost c a
      (1024 ≤ k → bad i 0x51 4) ∧
      (k < 1024 → x = 0 →
        (s.msgQ k = none → bad i 0x54 1) ∧
        ∀ m, s.msgQ k = some m →
          (m.ctx ≠ s.myWg.ctx → bad i 0x54 1) ∧
          (m.ctx = s.myWg.ctx → (∃ o, o ∈ s.fe.owed ∧ ∃ e, o.queue = some e ∧ e.1 = k) → exec i s = .next s.waitHere) ∧
          (m.ctx = s.myWg.ctx → (∀ o, o ∈ s.fe.owed → ∀ e, o.queue = some e → e.1 ≠ k) →
            Completes i s (fun t => Kept s t ∧ s.advanced t ∧ t.msgQ k = none ∧ ∀ j, j ≠ k → t.msgQ j = s.msgQ j))) ∧
      (k < 1024 → x ≠ 0 →
        (x.toNat % 64 ≠ 0 → bad i 0x54 5) ∧
        ∀ s1 bs wvt, x.toNat % 64 = 0 → s.readMe x 64 = .ok s1 bs wvt →
          let cw := leNat ((bs.drop 8).take 8)
          let n := 2 ^ (cw % 32)
          let base : DWord := BitVec.ofNat 64 (leNat (bs.take 8))
          let ok := 4 ≤ cw % 32 ∧ cw % 32 ≤ 16 ∧ cw < 2 ^ 14 ∧ (bs.drop 16).any (· != 0) = false
          (¬ok → exec i s = .next (s1.take 0x54 5)) ∧
          (ok → s1.msgQ k ≠ none → exec i s = .next (s1.take 0x54 3)) ∧
          (ok → s1.msgQ k = none →
            (∀ e v q, s1.queueArea base n = .fail e v q → exec i s = .next (s1.takeAt e v q 0 none).dropWalks) ∧
            (∀ v, s1.queueArea base n = .miss v → exec i s = .next (s1.joinWalks v).waitHere) ∧
            ∀ pages, s1.queueArea base n = .ok pages → s.memOk →
              let bit := fun (i : Nat) =>
                let o := base.toNat + 320 * n + i
                pages.getD (o / 4096 - base.toNat / 4096) 0 + o % 4096
              Completes i s (fun t => s.advanced t ∧ (t.fib s.actor).regs = s.me.regs ∧
                (∀ z, ((∃ i, i < 8192 ∧ z = bit i) → t.hbm z = 0) ∧ ((∀ i, i < 8192 → z ≠ bit i) → t.hbm z = s.hbm z)) ∧
                t.msgQ k = some
                  { ctx := s.myWg.ctx, base := base, pages := pages, nslots := n, cnt := if cw / 2 ^ 13 = 1 then some (cw / 32 % 256) else none
                    wg := g, slots := [], order := [], waiting := [], lastGrant := 0xFFFF, reserved := [] } ∧
                ∀ j, j ≠ k → t.msgQ j = s.msgQ j)))) ∧
    (s.goes (.msend l c b f) →
      let n := (s.sreg l.toNat).toNat
      let dev : BitVec 16 := w.setWidth 16
      let i := Instr.msend l c b f
      (fld w 26 38 ≠ 0 → bad i 0x51 6) ∧ (fld w 26 38 = 0 → 256 < n → bad i 0x51 2) ∧
      (fld w 26 38 = 0 → n ≤ 256 →
        (s.fe.dead.contains dev = true → bad i 0x50 (deadDetail dev)) ∧
        (s.fe.dead.contains dev = false → dev ≠ s.fe.devid → s.hasRoute dev = false → bad i 0x52 (deadDetail dev)) ∧
        (s.fe.dead.contains dev = false → dev = s.fe.devid ∨ s.hasRoute dev = true → s.flagFree fl →
          Completes i s (fun t => s.posted t (.msend dev (fld w 16 10) y []) fl [] ∧
            ∃ z, z ∈ t.fe.tx ∧ z.op = s.nextId ∧ z.st = .waiting ∧ z.pkt.ty = 8 ∧ z.pkt.tc = 3 ∧ z.pkt.dst = dev ∧
              z.pkt.src = s.fe.devid ∧ z.pkt.len.toNat = n ∧ z.pkt.aux.toNat = fld w 16 10 ∧
              z.pkt.tag = (s.sreg (l.toNat + 1)).setWidth 32 ∧ z.pkt.addr = (s.sreg (l.toNat + 1) >>> 32).setWidth 40)))) ∧
    (s.goes (.qpop a d c) →
      let i := Instr.qpop a d c
      let gives := fun (t : State) (v : DWord) => s.advanced t ∧ (t.fib s.actor).regs = { s.me.regs with s := Tbl.set s.me.s d.toNat v }
      (1024 ≤ k → bad i 0x51 4) ∧
      (k < 1024 → (∀ m, s.msgQ k = some m → m.ctx ≠ s.myWg.ctx) → bad i 0x54 1) ∧
      (∀ m, k < 1024 → s.msgQ k = some m → m.ctx = s.myWg.ctx → m.nslots ≤ 2 ^ 16 →
        let oldest := m.order.find? (fun e => m.slot e == .filled)
        (∀ j, x = 0 → oldest = some j → Completes i s (fun t => (∀ z, t.hbm z = s.hbm z) ∧
          gives t (m.base + BitVec.ofNat 64 (320 * j)) ∧ ∃ q, t.msgQ k = some q ∧
            q.slot j = .held ∧ q.order = m.order.filter (· ≠ j) ∧ ∀ e, e ≠ j → q.slot e = m.slot e)) ∧
        (x = 0 → oldest = none → Completes i s (fun t => (∀ z, t.hbm z = s.hbm z) ∧ gives t 0 ∧ t.msgQ k = some m)) ∧
        (∀ j, j < m.nslots → x = m.base + BitVec.ofNat 64 (320 * j) → x ≠ 0 → m.slot j = .held → Completes i s (fun t =>
          (∀ z, t.hbm z ≠ s.hbm z → m.waiting ≠ []) ∧
          gives t (match oldest with | some e => m.base + BitVec.ofNat 64 (320 * e) | none => 0) ∧
          ∃ q, t.msgQ k = some q ∧ q.slot j = .free ∧ (∀ e, e ≠ j → oldest ≠ some e → q.slot e = m.slot e) ∧
            (∀ e, oldest = some e → q.slot e = .held) ∧
            (m.nextWaiting = none → q.reserved = m.reserved) ∧
            (∀ dev p, m.nextWaiting = some (dev, p) → q.lastGrant = dev ∧ Tbl.has q.waiting dev = false ∧
              q.reserved = m.reserved ++ [(j, dev, s.feTime + s.fe.fertimer.toNat)]))) ∧
        (x ≠ 0 → (∀ j, j < m.nslots → x = m.base + BitVec.ofNat 64 (320 * j) → m.slot j ≠ .held) → bad i 0x54 4))) ∧
    (k < 1024 → ∃ v : DWord, WritesScalar (.peerStat d c) s d v ∧
      ∀ e, e < 64 → v.getLsbD e = s.fe.dead.contains (BitVec.ofNat 16 (64 * k + e))) ∧
    (1024 ≤ k → s.goes (.peerStat d c) → bad (.peerStat d c) 0x51 4) ∧
    (s.issuing = true → s.me.hLimm = none → s.me.hMod = none → s.myCtx.priv = false → bad (.peerClr c) 0x04 0) ∧
    (s.goes (.peerClr c) →
      let dev : BitVec 16 := w.setWidth 16
      let mine := s.fe.resync.any (fun e => e.1 == dev && e.2.1 == s.actor && e.2.2 == s.me.fid)
      (2 ^ 16 ≤ k → bad (.peerClr c) 0x51 4) ∧
      (k < 2 ^ 16 →
        (mine = false → s.fe.dead.contains dev = false → exec (.peerClr c) s = .next s.retire) ∧
        (mine = true → exec (.peerClr c) s = .next s.waitHere) ∧
        (mine = false → s.fe.dead.contains dev = true → dev ≠ s.fe.devid → Completes (.peerClr c) s (fun t => Kept s t ∧
          t.fe.dead.contains dev = false ∧ (dev, s.actor, s.me.fid) ∈ t.fe.resync ∧ (t.fib s.actor).wait = true ∧
          (t.fib s.actor).idx = s.me.idx ∧ (∀ tc, Tbl.get t.fe.rx (dev, tc) (0, []) = (0, [])) ∧
          Tbl.get t.fe.nextSeq (dev, 0) 0 = 1 ∧ (∀ tc, tc ≠ 0 → Tbl.get t.fe.nextSeq (dev, tc) 0 = 0) ∧
          ∃ z, z ∈ t.fe.tx ∧ z.pkt.dst = dev ∧ z.pkt.ty = 9 ∧ z.pkt.tc = 0 ∧ z.pkt.aux = 3 ∧ z.pkt.seq = 0 ∧ z.st = .sent))))

/-- R335, R345, R348, R350, R358, R360-R362, R364: a packet that waits is sent when its window and the retry buffer have room, with the
next number of its destination and class: a store's or atomic's request once its release is open, a put's bytes with their guard tags
after the sender's checks, a get's request, a message with its body; a local piece is written at once. A packet whose timer ends is sent
again on the next route, and after route 3 its peer is dead and the operations on it end. A transit packet leaves by the hop R335 names.
A reservation that lapses is granted to the next source. An armed send fires at its threshold, in arming order; a counter wait ends
at its threshold.
The model's choice in it: log 77, 78, 79, 83, 84, 95, 96. -/
def Obligations.FabricSteps : Prop :=
  ∀ s : State,
    (∀ (n : Nat) (x : TxPkt), s.fe.tx.find? (fun z => z.id == n) = some x →
      let seq := Tbl.get s.fe.nextSeq (x.pkt.dst, x.pkt.tc) 0
      let sent := fun (t : State) (bs : List Byte) (tags : List DWord) => ∃ z, z ∈ t.fe.tx ∧ z.id = n ∧ z.st = .sent ∧ z.pkt.seq = seq ∧
        z.pkt.dst = x.pkt.dst ∧ z.pkt.tc = x.pkt.tc ∧ z.pkt.ty = x.pkt.ty ∧ z.pkt.payload = bs ∧ z.pkt.trailer = tags ∧ z.op = x.op ∧
        z.deadline = s.feTime + s.fe.fertimer.toNat
      let next := fun (t : State) => Tbl.get t.fe.nextSeq (x.pkt.dst, x.pkt.tc) 0 = seq + 1
      let idle := fun (i : Instr) => exec i s = .next s
      let fits := fun (bs : List Byte) (tags : List DWord) => s.mayHold { x.pkt with payload := bs, trailer := tags } = true
      let k := x.pkt.len.toNat
      (x.st ≠ .waiting → idle (.packetSend n)) ∧
      (x.st ≠ .sent ∨ s.feTime < x.deadline → idle (.feReplayTimer n)) ∧
      (x.st ≠ .busy ∨ s.feTime < x.deadline → idle (.msgBackoffResend n)) ∧
      (x.st = .waiting → s.op x.op = none →
        (s.mayHold x.pkt = true → Completes (.packetSend n) s (fun t => Kept s t ∧ sent t x.pkt.payload x.pkt.trailer ∧ next t)) ∧
        (s.mayHold x.pkt = false → idle (.packetSend n))) ∧
      (∀ o, x.st = .waiting → s.op x.op = some o → (∀ v, o.kind ≠ .xfer v) → (∀ d q a b, o.kind ≠ .msend d q a b) →
        (s.mayHold x.pkt = true → s.gateOpen o = true → Completes (.packetSend n) s (fun t => Kept s t ∧
          sent t x.pkt.payload x.pkt.trailer ∧ next t ∧ t.op x.op = some (o.partSent x.part))) ∧
        (s.mayHold x.pkt = false ∨ s.gateOpen o = false → idle (.packetSend n))) ∧
      (∀ o v, x.st = .waiting → s.op x.op = some o → o.kind = .xfer v → x.pkt.ty ≠ 0 →
        let zeros := List.replicate k (0 : Byte)
        (¬fits zeros [0, 0] → idle (.packetSend n)) ∧
        (fits zeros [0, 0] → v.get = true → Completes (.packetSend n) s (fun t => Kept s t ∧ sent t x.pkt.payload x.pkt.trailer ∧ next t ∧
          ∃ q, t.op x.op = some q ∧ q.kind = .xfer { v with sent := v.sent + x.pkt.aux.toNat })) ∧
        (fits zeros [0, 0] → v.get = false →
          (s.xferRead o.ctx v x.part k = none → idle (.packetSend n)) ∧
          ∀ s1 bs w ahead, s.xferRead o.ctx v x.part k = some (s1, bs, w, ahead) →
            let ts := s1.xferTags v x.part k
            let bad := if v.carries then firstBad (fun i g => senderCheck g (v.sva + BitVec.ofNat 64 (x.part + 128 * i))) ts else none
            (bad = none → Completes (.packetSend n) s (fun t => (∀ a, t.hbm a = s.hbm a) ∧ next t ∧
              sent t bs (if v.guard = none then [] else if v.carries then [ts.getD 0 0, ts.getD 1 0] else [0, 0]) ∧
              ∃ q, t.op x.op = some q ∧ q.ot = max o.ot w ∧ q.kind = .xfer { v with hold := ahead, sent := v.sent + k })) ∧
            (∀ e, bad = some e → o.fault = none → Completes (.packetSend n) s (fun t => (∀ a, t.hbm a = s.hbm a) ∧
              s.fails t (s.underWay o none 0) o 0x24 (32 + e.2 + s1.committed o.id v % 2 ^ 39 * 256) ∧ ∀ z, z ∈ t.fe.tx → z.op = x.op → z.st ≠ .waiting)))) ∧
      (∀ o v s1 bs w ahead pa, x.st = .waiting → s.op x.op = some o → o.kind = .xfer v → x.pkt.ty = 0 → v.guard = none → s.memOk → n < s.nextId →
        s.xferRead o.ctx v x.part k = some (s1, bs, w, ahead) → pa + bs.length ≤ hbmEnd →
        (∀ j, j < bs.length → placeAt v.dst (x.part + j) = some (.mem (pa + j))) →
        Completes (.packetSend n) s (fun t => (∀ z, z ∈ t.fe.tx → z.id ≠ n) ∧
          ∀ a, t.hbm a = if pa ≤ a ∧ a < pa + bs.length then bs.getD (a - pa) 0 else s.hbm a)) ∧
      (∀ o d q a b, x.st = .waiting → s.op x.op = some o → o.kind = .msend d q a b →
        let fit := s.mayHold { x.pkt with payload := List.replicate k 0 } = true
        let body := s.engRead o.who.wg o.cu o.ctx a k (fun l _ => if isPeer l then some (0x51, 8) else none)
        (¬fit → idle (.packetSend n)) ∧ (fit → body = .wait → idle (.packetSend n)) ∧
        (∀ s1 bs w, fit → body = .ok s1 bs w → Completes (.packetSend n) s (fun t => (∀ z, t.hbm z = s.hbm z) ∧ next t ∧
          sent t bs x.pkt.trailer)) ∧
        (∀ s1 w c e va, fit → body = .fail s1 w c e va → o.fault = none → Completes (.packetSend n) s (fun t =>
          (∀ z, t.hbm z = s.hbm z) ∧ s.fails t (s.underWay o none 0) o c e ∧ ∀ z, z ∈ t.fe.tx → z.op = x.op → z.st ≠ .waiting))) ∧
      (x.st = .sent → x.deadline ≤ s.feTime → x.pkt.route ≠ 3 → Completes (.feReplayTimer n) s (fun t => Kept s t ∧
        t.fe.replays = s.fe.replays + 1 ∧ (∃ z, z ∈ t.fe.tx ∧ z.id = n ∧ z.pkt.route = x.pkt.route + 1 ∧ z.pkt.payload = x.pkt.payload ∧
          z.pkt.seq = x.pkt.seq ∧ z.replayed = true ∧ z.deadline = s.feTime + s.fe.fertimer.toNat) ∧
        ∀ p h, x.pkt.dst ≠ s.fe.devid → s.onRoute x.pkt (x.pkt.route.toNat + 1) = some p → s.nextHop p = some (false, h) →
          (s.localPort h).up = true → (s.localPort h).since = none → t.out = s.out ++ [.frame (uaClass p) p h (3 * p.tc.toNat)])) ∧
      (x.st = .sent → x.deadline ≤ s.feTime → x.pkt.route = 3 → Completes (.feReplayTimer n) s (fun t =>
        (∀ a, t.hbm a = s.hbm a) ∧ t.fe.dead.contains x.pkt.dst = true ∧ (∀ z, z ∈ t.fe.tx → z.pkt.dst ≠ x.pkt.dst) ∧
        (∀ o, o ∈ s.ops → o.involves x.pkt.dst = true →
          (∀ q, q ∈ t.ops → q.id = o.id → q.fault ≠ none) ∧
          (s.settles o → (∀ z, z ∈ s.fe.tx → z.op = o.id → z.pkt.dst = x.pkt.dst) → (∀ y, y ∈ s.fe.owed → y.op ≠ o.id) →
            (∀ p, p ∈ o.parts → p.st = .done) ∨ (o.drops = false ∧ ∀ p, p ∈ o.parts → ∃ pa, p.loc = .peer x.pkt.dst pa) →
            ∀ q, q ∈ t.ops → q.id ≠ o.id)) ∧
        (∀ e, e ∈ t.fe.resync → e.1 ≠ x.pkt.dst) ∧ ∃ l, t.out = l ++ [.note 0x84 [x.pkt.dst.setWidth 64]])) ∧
      (x.st = .busy → x.deadline ≤ s.feTime → Completes (.msgBackoffResend n) s (fun t => Kept s t ∧
        ∃ z, z ∈ t.fe.tx ∧ z.id = n ∧ z.st = .sent ∧ z.pkt.seq = x.pkt.seq ∧ z.pkt.payload = x.pkt.payload ∧
          z.deadline = s.feTime + s.fe.fertimer.toNat))) ∧
    (∀ p : Packet,
      let g := groupOf s.fe.devid
      let m := memberOf s.fe.devid
      let port := fun (k : Nat) => (false, 2 * k + p.seq.toNat % 2)
      let ways := s.gatewaysTo (if p.val then p.mid.toNat else groupOf p.dst)
      let turn := memberOf p.src + memberOf p.dst + (if p.val = true ∨ groupOf p.src ≠ g then 0 else p.route.toNat - 1)
      (groupOf p.dst = g → p.val = false → s.nextHop p = some (port
        (if groupOf p.src = g ∧ m = memberOf p.src ∧ p.route ≠ 1 then p.viam.toNat else memberOf p.dst))) ∧
      (groupOf p.dst ≠ g ∨ p.val = true → (ways = [] → s.nextHop p = none) ∧
        ∀ e, ways[turn % ways.length]? = some e → s.nextHop p = some (if e.1 = m then (true, e.2) else port e.1))) ∧
    (∀ (p : Packet) (gl : Bool) (st : Nat),
      let mid := groupOf s.fe.devid = p.mid.toNat
      let q := { p with val := p.val && !decide mid }
      let out := gl || (groupOf p.src == groupOf p.dst && p.route != 1 && memberOf s.fe.devid == p.viam.toNat)
      let stage := st + if out then 1 else 0
      (p.dst = s.fe.devid ∨ s.nextHop q = none → exec (.packetForward p gl st) s = .next s) ∧
      (∀ h, p.dst ≠ s.fe.devid → s.nextHop q = some h → s.hopUp h = false → exec (.packetForward p gl st) s = .next s) ∧
      (∀ h, p.dst ≠ s.fe.devid → s.nextHop q = some h → s.hopUp h = true →
        exec (.packetForward p gl st) s = .next (s.sendOn h.1 h.2 stage q)) ∧
      (∀ k, p.dst ≠ s.fe.devid → s.nextHop q = some (false, k) → (s.localPort k).up = true →
        ((s.localPort k).since = none → Completes (.packetForward p gl st) s (fun t => Kept s t ∧
          t.out = s.out ++ [.frame (uaClass q) q k (3 * p.tc.toNat + stage)] ∧
          (t.localPort k).held = (s.localPort k).held ++ [(3 * p.tc.toNat + stage, q)] ∧ ∀ j, j ≠ k → t.localPort j = s.localPort j)) ∧
        ((s.localPort k).since ≠ none → Completes (.packetForward p gl st) s (fun t => t.out = s.out ∧
          (t.localPort k).queue = (s.localPort k).queue ++ [(3 * p.tc.toNat + stage, q)]))) ∧
      (∀ k, p.dst ≠ s.fe.devid → s.nextHop q = some (true, k) → (s.port k).st = .retrain →
        Completes (.packetForward p gl st) s (fun t => t.out = s.out ∧
          (t.port k).queue = (s.port k).queue ++ [(3 * p.tc.toNat + stage, q.bytes)]))) ∧
    (∀ q m, s.msgQ q = some m →
      (m.reserved.find? (fun e => decide (e.2.2 ≤ s.feTime)) = none → exec (.grantLapse q) s = .next s) ∧
      ∀ e, m.reserved.find? (fun e => decide (e.2.2 ≤ s.feTime)) = some e →
        let m1 := { m with reserved := m.reserved.filter (fun x => x.1 != e.1) }
        (m1.nextWaiting = none → exec (.grantLapse q) s = .next (s.setMsgQ q m1)) ∧
        (∀ d p, m1.nextWaiting = some (d, p) → Completes (.grantLapse q) s (fun t =>
          (∀ r, (t.fib r).regs = (s.fib r).regs) ∧ (∃ m2, t.msgQ q = some m2 ∧
            (e.1, d, s.feTime + s.fe.fertimer.toNat) ∈ m2.reserved ∧ m2.lastGrant = d ∧ Tbl.has m2.waiting d = false) ∧
          ∀ r k, p.src ≠ s.fe.devid → s.pickRoute { answerTo p 0x15 with aux := BitVec.ofNat 32 q } 1 = some (r, false, k) →
            (s.localPort k).since = none → .frame (uaClass r) r k 3 ∈ t.out))) ∧
    (∀ id o v c th, s.op id = some o → o.kind = .tsend v c th →
      let stands := fun (h : Word) => h.toNat ≤ (s.counter o.who.wg c).value.toNat
      let look := s.plan (fun need va => s.accessOp o.who.wg o.cu o.ctx va need) false none v.dva v.sva v.len
      let first := ∀ p h v', p ∈ s.ops → p.id < id → p.who.wg = o.who.wg → p.kind = .tsend v' c h → ¬stands h
      (¬stands th ∨ ¬first → exec (.tsendFire id) s = .next s) ∧
      (∀ y, stands th → first → look = .ok y → 0 < y.len → Completes (.tsendFire id) s (fun t => Kept s t ∧
        (∃ q, t.op id = some q ∧ q.kind = .xfer y) ∧ ∃ z, z ∈ t.fe.tx ∧ z.op = id ∧ z.part = 0 ∧ z.st = .waiting)) ∧
      (∀ l, stands th → first → look = .miss l → exec (.tsendFire id) s = .next s) ∧
      (∀ cz d a, stands th → first → look = .fail cz d a → o.fault = none → Completes (.tsendFire id) s (fun t => Kept s t ∧
        (∀ q, q ∈ t.ops → q.id = id → ∃ fr, q.fault = some fr ∧ fr.addr = if cz = 0x50 then v.dva else a) ∧
        s.fails t (s.underWay o none 0) o cz d))) ∧
    (∀ id o c th, s.op id = some o → o.kind = .cntwait c th →
      ((s.counter o.who.wg c).value.toNat < th.toNat → exec (.cntwaitComplete id) s = .next s) ∧
      (th.toNat ≤ (s.counter o.who.wg c).value.toNat → o.sticky = 0 → o.fault = none → Completes (.cntwaitComplete id) s (fun t =>
        Kept s t ∧ ∀ q, q ∈ t.ops → q.id ≠ id)))

/-- R343, R344, R346, R347, R351, R354, R357, R358, R360, R366: what a target does with a packet that reaches it. A malformed one is
discarded and counted; one of a dead peer is ignored; one that R351 refuses is answered REFUSED with the reason and its number counts as
received. A duplicate has no effect: reads are served again, an atomic is answered with what its first copy was, the others are
acknowledged as duplicates, no earlier than the first copy. A packet taken for the first time has its effect once, and is acknowledged once
the recorded lease times of what it wrote have passed: sectors and ranges are read with their guard tags, their lines that no context
owns becoming the source context's, and a range is answered once the time it observed has passed; bytes are written, guarded
blocks stamped or checked and carried, an atomic joins its service fibre's FIFO or is answered BUSY, a message takes a slot and its record
stands there, or is answered BUSY, an invalidation is posted, and a resynchronisation resets what is held for its source.
The model's choice in it: log 76, 85, 87, 94, 97, 98, 155. -/
def Obligations.FabricTargets : Prop :=
  ∀ (s : State) (p : Packet),
    let a := p.addr.toNat
    let len := p.len.toNat
    let tells := fun (t : State) (r : Packet) => p.src ≠ s.fe.devid → ∀ q k, s.pickRoute r 1 = some (q, false, k) →
      (s.localPort k).since = none → .frame (uaClass q) q k 3 ∈ t.out
    let owes := fun (t : State) (b : Nat) => s.feTime < (s.secMeta (sectorOf b)).recExp →
      ∃ z, z ∈ t.fe.owed ∧ z.reply = some (ackOf p false) ∧ (s.secMeta (sectorOf b)).recExp ≤ z.gwct
    let answered := fun (t : State) => ∀ o, o ∈ t.fe.owed → o ∈ s.fe.owed ∨ (o.reply = some (ackOf p false) ∧ s.feTime < o.gwct)
    let idle := fun (i : Instr) => exec i s = .next s
    let taken := fun (t : State) => (∀ r, (t.fib r).regs = (s.fib r).regs) ∧ (∀ g o, t.pad g o = s.pad g o) ∧ t.isDup p = true ∧
      answered t
    let written := fun (t : State) (bs : List Byte) => ∀ z, t.hbm z = if a ≤ z ∧ z < a + bs.length then bs.getD (z - a) 0 else s.hbm z
    let reads := fun (i : Instr) (ty : Nat) (n at' : Nat) (r : Packet) =>
      let out := { r with dst := p.src, src := p.dst, tc := 1, seq := p.seq, tag := p.tag, len := BitVec.ofNat 9 n
                          payload := s.hbmBytes at' n }
      let at1 := sectorsOf at' n
      let wvt := if ty = 1 then 0 else at1.foldl (fun m x => Nat.max m (s.secMeta x).wvt) 0
      let served := fun (u : State) => Completes i s (fun t => Kept s t ∧
        (∀ x, x ∈ at1 → inHbm x = true → p.sctx ≠ 0 → Tbl.has s.owners (blockOf x) = false → t.lineOwner x = p.sctx) ∧
        (∀ b, Tbl.has s.owners b = true → Tbl.get t.owners b 0 = Tbl.get s.owners b 0) ∧
        t.isDup p = u.isDup p ∧
        (wvt ≤ s.feTime → let v := u.launchPacket out 1
          t.out = v.out ∧ t.agenda = v.agenda ∧ t.ports = v.ports ∧ t.locals = v.locals) ∧
        (s.feTime < wvt → t.out = s.out ∧ ∃ z, z ∈ t.fe.owed ∧ z.reply = some out ∧ z.gwct = wvt))
      s.readPoisoned p = false → 0 < n → n ≤ 256 →
        (s.receive p [ty] = .fresh → served (s.markSeq p)) ∧ (s.receive p [ty] = .dup → served s)
    (∀ ty i, (ty, i) ∈ [(1, Instr.readPacket p), (2, .writePacket p), (3, .atomicPacket p), (4, .putPacket p), (5, .putgPacket p),
        (6, .getPacket p), (7, .getgPacket p), (8, .msgPacket p)] →
      (p.dst ≠ s.fe.devid → idle i) ∧
      (p.dst = s.fe.devid → formed p = false ∨ p.ty.toNat ≠ ty → exec i s = .next s.discard) ∧
      (p.dst = s.fe.devid → formed p = true → p.ty.toNat = ty →
        (s.shunned p.src = true → idle i) ∧
        (s.shunned p.src = false → s.isDup p = false → s.noBitmap p = true → idle i) ∧
        (∀ r, s.shunned p.src = false → s.isDup p = true ∨ s.noBitmap p = false → s.refuses p = some r →
          Completes i s (fun t => Kept s t ∧ t = (if s.isDup p then s else s.markSeq p).launchPacket (refusalOf p r) 1)) ∧
        (ty = 1 ∨ ty = 6 ∨ ty = 7 → s.receive p [ty] = .fresh → s.readPoisoned p = true → Completes i s (fun t => Kept s t ∧
          t.out = s.out ∧ t.isDup p = true ∧ ∃ o, o ∈ t.fe.owed ∧ ∃ q, o.read = some q ∧ q.src = p.src ∧ q.seq = p.seq ∧ q.ty = p.ty)) ∧
        (ty = 2 ∨ ty = 4 ∨ ty = 5 ∨ ty = 8 → s.receive p [ty] = .dup → Completes i s (fun t => Kept s t ∧
          ((∀ o, o ∈ s.fe.owed → o.reply = none) → tells t (ackOf p true)) ∧
          ∀ o, o ∈ s.fe.owed → o.reply = some (ackOf p false) → s.feTime < o.gwct →
            ∃ z, z ∈ t.fe.owed ∧ z.reply = some (ackOf p true) ∧ o.gwct ≤ z.gwct)))) ∧
    (let c := (s.ctxs.find? (fun e => e.1 == p.sctx)).map (·.2)
     (c = none → s.refuses p = some 1) ∧
     ∀ x, c = some x → (x.share.contains p.src = false → s.refuses p = some 1) ∧
       (x.share.contains p.src = true → x.live = false → s.refuses p = some 5) ∧
       (x.share.contains p.src = true → x.live = true →
         (p.ty = 2 → (s.refuses p = some 2 ↔ hbmEnd < a + 32)) ∧ (p.ty = 4 → len ≠ 0 → (s.refuses p = some 2 ↔ hbmEnd < a + len)) ∧
         (p.ty = 8 ∨ p.ty = 9 → s.refuses p = none))) ∧
    (let w := (List.range (p.aux.toNat % 8 + 1)).foldl (fun m i => Nat.max m (s.secMeta (sectorOf a + 32 * i)).wvt) 0
     reads (.readPacket p) 1 (32 * (p.aux.toNat % 8 + 1)) (sectorOf a) { answerTo p 0x10 with aux := s.remaining w }) ∧
    reads (.getPacket p) 6 p.aux.toNat a (answerTo p 0x13) ∧
    reads (.getgPacket p) 7 p.aux.toNat a { answerTo p 0x13 with aux := 1, trailer := [s.guardTag a, s.guardTag (a + 128)] } ∧
    (s.receive p [2] = .fresh → sectorOf a + 32 ≤ hbmEnd → s.memOk → Completes (.writePacket p) s (fun t => taken t ∧
      (∀ i, i < p.payload.length → p.aux.getLsbD i = true → owes t (sectorOf a + i)) ∧
      ∀ z, t.hbm z = if sectorOf a ≤ z ∧ z < sectorOf a + 32 ∧ z - sectorOf a < p.payload.length ∧ p.aux.getLsbD (z - sectorOf a)
        then p.payload.getD (z - sectorOf a) 0 else s.hbm z)) ∧
    (s.receive p [4] = .fresh → s.memOk → Completes (.putPacket p) s (fun t => taken t ∧ written t (p.payload.take len) ∧
      ∀ z, a ≤ z → z < a + (p.payload.take len).length → t.guardTag z = 0 ∧ owes t z)) ∧
    (∀ m, s.receive p [5] = .fresh → s.memOk → a % 128 = 0 → len ≤ p.payload.length → len % 128 = 0 → m ≤ len / 128 →
      let tag := fun (i : Nat) => p.trailer.getD i 0
      let block := fun (i : Nat) => (p.payload.drop (128 * i)).take 128
      let bad := fun (i : Nat) => if tag i = 0 then none else receiverCheck (tag i) (p.aux.toNat / 2 ^ 20) (block i)
      (∀ i, i < m → bad i = none) → (m < len / 128 → bad m ≠ none) → Completes (.putgPacket p) s (fun t =>
        (∀ r, (t.fib r).regs = (s.fib r).regs) ∧ t.isDup p = true ∧ written t (p.payload.take (128 * m)) ∧
        (∀ i, i < m → t.guardTag (a + 128 * i) =
          let lba : DWord := BitVec.ofNat 64 ((p.aux.toNat + i) % 2 ^ 20 * 128)
          if tag i = 0 then mkTag (p.aux.toNat / 2 ^ 20) lba (crc32c (block i))
          else mkTag (fld (tag i) 52 12) lba ((tag i).setWidth 32)) ∧
        (m = len / 128 → answered t ∧ ∀ z, a ≤ z → z < a + len → owes t z) ∧
        ∀ r, m = 0 → bad m = some r → 0 < len → tells t (refusalOf p (128 + r)))) ∧
    (s.receive p [3] = .fresh →
      let g := ownerOf (sectorOf a)
      ((s.aseOf g (.peer p.src)).length < 48 → Completes (.atomicPacket p) s (fun t => Kept s t ∧ t.isDup p = true ∧
        t.ase = s.ase ++ [(g, .peer p.src, .packet p)])) ∧
      (48 ≤ (s.aseOf g (.peer p.src)).length → Completes (.atomicPacket p) s (fun t => Kept s t ∧ t.isDup p = false ∧ t.ase = s.ase ∧
        tells t { answerTo p 0x14 with aux := BitVec.ofNat 32 (1024 + g) }))) ∧
    (s.receive p [3] = .dup →
      (∀ r, (p.seq, r) ∉ Tbl.get s.fe.dedup p.src []) → idle (.atomicPacket p)) ∧
    (s.receive p [3] = .dup → ∀ e, (Tbl.get s.fe.dedup p.src []).find? (fun e => e.1 == p.seq) = some e →
      (∀ o, o ∈ s.fe.owed → o.reply = none) → Completes (.atomicPacket p) s (fun t => Kept s t ∧ t.ase = s.ase ∧
        (p.src ≠ s.fe.devid → ∀ q k, e.2.dst = p.src → s.pickRoute { e.2 with dup := e.2.ty == 0x11 } 1 = some (q, false, k) →
          (s.localPort k).since = none → .frame (uaClass q) q k (3 * q.tc.toNat) ∈ t.out))) ∧
    (s.receive p [8] = .fresh →
      let q := p.aux.toNat
      (s.msgQ q = none → exec (.msgPacket p) s = .next ((s.markSeq p).launchPacket (refusalOf p 7) 1)) ∧
      (∀ m, s.msgQ q = some m →
        (m.slotFor p.src = none → Completes (.msgPacket p) s (fun t => (∀ r, (t.fib r).regs = (s.fib r).regs) ∧ t.isDup p = false ∧
          tells t { answerTo p 0x14 with aux := BitVec.ofNat 32 q } ∧
          ∃ m1, t.msgQ q = some m1 ∧ Tbl.has m1.waiting p.src = true ∧ m1.slots = m.slots ∧ m1.order = m.order)) ∧
        (∀ j, m.slotFor p.src = some j → Completes (.msgPacket p) s (fun t => taken t ∧
          (∃ m1, t.msgQ q = some m1 ∧ (m1.slot j = .writing ∨ m1.slot j = .filled) ∧ m1.order = m.order ++ [j] ∧
            ∀ e, e ∈ m1.reserved → e.1 ≠ j) ∧
          let rec' := leBytes p.src.toNat 2 ++ leBytes len 2 ++ List.replicate 4 0 ++ leBytes p.tag.toNat 4 ++
            leBytes (a % 2 ^ 32) 4 ++ List.replicate 48 0 ++ p.payload.take len
          let va := m.base.toNat + 320 * j
          let pa := m.pages.getD (va / 4096 - m.base.toNat / 4096) 0 + va % 4096
          (s.memOk → va % 4096 + rec'.length ≤ 4096 → m.pages.getD (va / 4096 - m.base.toNat / 4096) 0 % 4096 = 0 →
            pa + rec'.length ≤ hbmEnd → ∀ i, i < rec'.length → t.hbm (pa + i) = rec'.getD i 0 ∧ owes t (pa + i)))))) ∧
    (p.aux.setWidth 8 ≠ 1#8 → idle (.ctrlInvalidation p)) ∧
    (s.receive p [9] = .fresh → p.aux.setWidth 8 = 1#8 → Completes (.ctrlInvalidation p) s (fun t => Kept s t ∧ t.isDup p = true ∧
      ∃ v, t.invs = s.invs ++ [v] ∧ v.reply = some p ∧ v.applied = false ∧ v.sys = false ∧
        v.range = invRange (leNat (p.payload.take 8)) (BitVec.ofNat 64 (leNat ((p.payload.drop 8).take 8)))
          (BitVec.ofNat 64 (leNat ((p.payload.drop 16).take 8))))) ∧
    (s.receive p [9] = .dup → p.aux.setWidth 8 = 1#8 →
      ((∃ v, v ∈ s.invs ∧ v.reply = some p) → idle (.ctrlInvalidation p)) ∧
      ((∀ v, v ∈ s.invs → v.reply = none) → exec (.ctrlInvalidation p) s = .next (s.launchPacket (ackOf p true) 1))) ∧
    (p.dst = s.fe.devid → p.ty = 9 → p.aux.setWidth 8 = 3#8 →
      (formed p = false → exec (.ctrlResync p) s = .next s.discard) ∧
      (formed p = true → s.shunned p.src = true → idle (.ctrlResync p)) ∧
      (∀ r, formed p = true → s.shunned p.src = false → s.refuses p = some r →
        exec (.ctrlResync p) s = .next (s.launchPacket (refusalOf p r) 1)) ∧
      (formed p = true → s.shunned p.src = false → s.refuses p = none →
        Completes (.ctrlResync p) s (fun t => Kept s t ∧ tells t (ackOf p false) ∧ Tbl.get t.fe.rx (p.src, 0) (0, []) = (1, []) ∧
          (∀ c, c ≠ 0 → Tbl.get t.fe.rx (p.src, c) (0, []) = (0, [])) ∧ Tbl.get t.fe.dedup p.src [] = [] ∧
          ∀ e c, e ≠ p.src → Tbl.get t.fe.rx (e, c) (0, []) = Tbl.get s.fe.rx (e, c) (0, []))))

/-- R29, R85, R257, R264, R321, R344, R347, R351, R358, R360, R366: an answer of a peer that is not heard, or that no packet of the retry
buffer waits for, changes nothing but the count of spurious replays. Else it takes its packet out of the retry buffer and gives its
operation what it brings: a read its data and its time, kept as a line where it is a whole one; a store, an atomic, a piece of a put, a
message, a resynchronisation and an invalidation their acknowledgement; an atomic its old values, and a swap through a read-only page the
fault of the lanes that would have succeeded; a get the bytes of every aligned 8-byte unit that has arrived whole, after the checks of
its guards; a refusal the fault of its reason. BUSY stops the timer of a message or atomic, GRANT sends it again with the same number.
The model's choice in it: log 80, 81, 85, 86, 96, 155, 157, 159, 166. -/
def Obligations.FabricAnswers : Prop :=
  ∀ (s : State) (p : Packet),
    let idle := fun (i : Instr) => exec i s = .next s
    let tcOf := fun (k : Nat) => p.aux.toNat / k % 4
    ((s.hears p 0x10 = false ∨ s.txFor p [0] = none → idle (.rdata p)) ∧ (s.hears p 0x11 = false → idle (.ack p)) ∧
      (s.hears p 0x12 = false ∨ s.txFor p [0] = none → idle (.aresult p)) ∧
      (s.hears p 0x13 = false ∨ s.txFor p [2] = none → idle (.getdata p)) ∧
      (s.hears p 0x14 = false ∨ s.txFor p [if p.aux.toNat < 1024 then 3 else 0] = none → idle (.busy p)) ∧
      (s.hears p 0x15 = false ∨ s.txFor p [3] = none → idle (.grant p)) ∧
      (s.hears p 0x16 = false ∨ s.txFor p [tcOf 256] = none → idle (.refused p)) ∧
      (s.hears p 0x11 = true → s.txFor p [tcOf 1] = none → Completes (.ack p) s (fun t => Kept s t ∧ t.fe.tx = s.fe.tx ∧ t.ops = s.ops ∧
        t.fe.spur = if p.dup = true ∧ (p.src, BitVec.ofNat 2 (tcOf 1), p.seq) ∈ s.fe.replayed then s.fe.spur + 1 else s.fe.spur))) ∧
    ∀ x : TxPkt,
    let gone := fun (t : State) => ∀ z, z ∈ t.fe.tx → z.id ≠ x.id
    let part := fun (t : State) => (t.op x.op).bind (fun q => q.parts[x.part]?)
    let rest := fun (o : Op) => ∃ (j : Nat) (z : Part), j ≠ x.part ∧ o.parts[j]? = some z ∧ z.st ≠ .done
    let closed := fun (t : State) (o : Op) => ∀ z, z ∈ t.ops → z.id ≠ o.id
    (∀ o q, s.hears p 0x10 = true → s.txFor p [0] = some x → x.pkt.ty = 1 → s.op x.op = some o → o.parts[x.part]? = some q →
      let wvt := s.lease o.cu + p.aux.toNat
      (x.pkt.aux ≠ 3 → Completes (.rdata p) s (fun t => Kept s t ∧ gone t ∧
        part t = some { q with st := .bound, data := p.payload.take 32, wvt := wvt })) ∧
      (x.pkt.aux = 3 → Completes (.rdata p) s (fun t => Kept s t ∧ gone t ∧
        part t = some { q with st := .bound, data := (p.payload.drop (q.loc.pa % 128)).take 32, wvt := wvt } ∧
        ∃ y, y ∈ t.peerL2 ∧ y.ctx = o.ctx ∧ y.asid = (s.ctx o.ctx).asid ∧ y.va = BitVec.ofNat 64 (blockOf q.va.toNat) ∧
          y.dev = x.pkt.dst ∧ y.pa = x.pkt.addr.toNat ∧ y.data = p.payload ∧ y.wvt = wvt))) ∧
    (s.hears p 0x11 = true → s.txFor p [tcOf 1] = some x →
      (x.pkt.ty = 1 ∨ x.pkt.ty = 6 ∨ x.pkt.ty = 7 → Completes (.ack p) s (fun t => Kept s t ∧ t.fe.tx = s.fe.tx ∧ t.ops = s.ops)) ∧
      (x.pkt.ty = 9 → s.op x.op = none →
        (x.pkt.aux = 3 → Completes (.ack p) s (fun t => Kept s t ∧ gone t ∧ t.fe.resync = s.fe.resync.filter (fun e => e.1 != p.src))) ∧
        (x.pkt.aux ≠ 3 → Completes (.ack p) s (fun t => Kept s t ∧ gone t ∧ ∀ v, v ∈ t.invs → v.id = x.op → p.src ∉ v.waiting))) ∧
      (∀ o q, x.pkt.ty = 2 ∨ x.pkt.ty = 3 → s.op x.op = some o → o.parts[x.part]? = some q →
        (rest o → Completes (.ack p) s (fun t => Kept s t ∧ gone t ∧ ∃ z, part t = some z ∧ z.st = .done ∧ z.lanes = q.lanes)) ∧
        (¬rest o → s.settles o → q.gwct ≤ s.lease o.cu → o.sticky = 0 → (x.pkt.ty = 3 → p.addr.toNat % 32 = 0) → o.fault = none →
          (x.pkt.ty = 3 → q.fault = none) → Completes (.ack p) s (fun t => Kept s t ∧ gone t ∧ closed t o))) ∧
      (∀ o v, x.pkt.ty = 4 ∨ x.pkt.ty = 5 → s.op x.op = some o → o.kind = .xfer v → o.fault ≠ none →
        (¬s.underWay o (some x.id) 0 → (∀ z, z ∈ s.fe.tx → z.op = o.id → z.id = x.id) → s.settles o →
          Completes (.ack p) s (fun t => (∀ a, t.hbm a = s.hbm a) ∧ gone t ∧ closed t o)) ∧
        (s.underWay o (some x.id) 0 → Completes (.ack p) s (fun t => Kept s t ∧ gone t ∧
          ∃ z, t.op x.op = some z ∧ z.fault = o.fault ∧ z.kind = .xfer { v with acked := v.acked + x.pkt.len.toNat }))) ∧
      (∀ o v, x.pkt.ty = 4 ∨ x.pkt.ty = 5 → s.op x.op = some o → o.kind = .xfer v → o.fault = none →
        let n := v.acked + x.pkt.len.toNat
        (n ≠ v.len ∨ v.sent ≠ v.len → Completes (.ack p) s (fun t => Kept s t ∧ gone t ∧
          ∃ z, t.op x.op = some z ∧ z.kind = .xfer { v with acked := n })) ∧
        (n = v.len → v.sent = v.len → s.settles o → Completes (.ack p) s (fun t => (∀ a, t.hbm a = s.hbm a) ∧ gone t ∧ closed t o))) ∧
      (∀ o, x.pkt.ty = 8 → s.op x.op = some o → s.settles o →
        Completes (.ack p) s (fun t => (∀ a, t.hbm a = s.hbm a) ∧ gone t ∧ closed t o))) ∧
    (∀ o q, s.hears p 0x12 = true → s.txFor p [0] = some x → x.pkt.ty = 3 → s.op x.op = some o → o.parts[x.part]? = some q →
      let gives := fun (vd w : Nat) => p.payload ≠ [] → (q.lanes.map (·.1)).Nodup → (∀ l, l ∈ q.lanes → l.1 < 64) →
        Completes (.aresult p) s (fun t => (∀ a, t.hbm a = s.hbm a) ∧ gone t ∧ (∀ g m n, (t.vreg g m n).tag = (s.vreg g m n).tag) ∧
          (∀ z, part t = some z → z.st = .done) ∧
          ∀ i j l, i < w / 4 → q.lanes[j]? = some l → (t.vreg o.who.wg o.who.slot (vd + i)).lane l.1 =
            cleanLane (s.vreg o.who.wg o.who.slot (vd + i)).tag (BitVec.ofNat 32 (leNat ((p.payload.drop (j * w + 4 * i)).take 4))))
      (∀ ty vd, o.kind = .atomic ty true vd → gives vd (if ty.wide then 8 else 4)) ∧
      (∀ wide vd, o.kind = .cas wide vd →
        let w := if wide then 8 else 4
        let won := fun (j : Nat) (l : Nat × Nat) => q.lanes[j]? = some l ∧
          leNat ((p.payload.drop (j * w)).take w) = (entryOf wide true l.2 (Tbl.get o.argv l.1 [])).v % 256 ^ w
        gives vd w ∧
        (q.writable = false → (∃ j l, won j l) → o.fault = none → Completes (.aresult p) s (fun t => (∀ a, t.hbm a = s.hbm a) ∧ gone t ∧
          ∀ z, t.op x.op = some z → ∃ fr, z.fault = some fr ∧ fr.cause = 0x21 ∧ fr.detail.toNat % 16 = 1 ∧ fr.async = true ∧
            ∀ j l, won j l → l.1 < 64 → fr.lanes.getLsbD l.1 = true)))) ∧
    (∀ o v, s.hears p 0x13 = true → s.txFor p [2] = some x → x.pkt.ty = 6 ∨ x.pkt.ty = 7 →
      let off := p.addr.toNat % 4096
      ((∃ e, e ∈ x.got ∧ e.1 = off) → idle (.getdata p)) ∧
      ((∀ e, e ∈ x.got → e.1 ≠ off) → s.op x.op = some o → o.kind = .xfer v →
        let at' := x.part + off
        let bs := p.payload.take p.len.toNat
        let kept := fun (t : State) => (gotBytes x.got + p.len.toNat < x.pkt.aux.toNat →
            ∃ z, z ∈ t.fe.tx ∧ z.id = x.id ∧ z.got = x.got ++ [(off, p.len.toNat)]) ∧
          (x.pkt.aux.toNat ≤ gotBytes x.got + p.len.toNat → gone t)
        (o.fault ≠ none → Completes (.getdata p) s (fun t => (∀ a, t.hbm a = s.hbm a) ∧ kept t)) ∧
        (∀ pa, o.fault = none → v.guard = none → v.hold = [] → s.memOk → pa + bs.length ≤ hbmEnd →
          (∀ k, k < bs.length → placeAt v.dst (at' + k) = some (.mem (pa + k))) →
          let whole := fun (k : Nat) => k < bs.length ∧ ∀ j, j < v.len → (v.dva.toNat + j) / 8 = (v.dva.toNat + at' + k) / 8 →
            at' ≤ j ∧ j < at' + bs.length
          Completes (.getdata p) s (fun t => (∀ r, (t.fib r).regs.s = (s.fib r).regs.s) ∧ kept t ∧
            (∀ k, whole k → t.hbm (pa + k) = bs.getD k 0) ∧
            (∀ a, (∀ k, whole k → a ≠ pa + k) → t.hbm a = s.hbm a) ∧
            ∀ z, t.op x.op = some z → s.lease o.cu ≤ z.ot ∧ ∃ y, z.kind = .xfer y ∧
              ∀ k, k < bs.length → ¬whole k → (at' + k, bs.getD k 0) ∈ y.hold)) ∧
        (∀ i r, v.carries = true →
          firstBad (fun i g => (senderCheck g (v.sva + BitVec.ofNat 64 (at' + 128 * i))).orElse
            (fun _ => receiverCheck g ((v.guard.map gVer).getD 0) ((bs.drop (128 * i)).take 128)))
            (p.trailer.take (p.len.toNat / 128)) = some (i, r) → o.fault = none →
          Completes (.getdata p) s (fun t => (∀ a, t.hbm a = s.hbm a) ∧ ∃ n,
            s.fails t (gotBytes x.got + p.len.toNat < x.pkt.aux.toNat ∨ s.underWay o (some x.id) 0) o 0x24 (32 + r + n * 256))))) ∧
    (s.hears p 0x14 = true → s.txFor p [if p.aux.toNat < 1024 then 3 else 0] = some x →
      (x.st = .sent → x.pkt.ty = 3 ∨ x.pkt.ty = 8 → Completes (.busy p) s (fun t => Kept s t ∧
        ∃ z, z ∈ t.fe.tx ∧ z.id = x.id ∧ z.st = .busy ∧ z.deadline = s.feTime + 1000 * x.backoff ∧
          z.backoff = min 64 (2 * x.backoff) ∧ z.pkt = x.pkt)) ∧
      (x.st ≠ .sent → idle (.busy p))) ∧
    (s.hears p 0x15 = true → s.txFor p [3] = some x →
      (x.st = .busy → Completes (.grant p) s (fun t => Kept s t ∧
        ∃ z, z ∈ t.fe.tx ∧ z.id = x.id ∧ z.st = .sent ∧ z.pkt.seq = x.pkt.seq ∧ z.pkt.payload = x.pkt.payload)) ∧
      (x.st ≠ .busy → idle (.grant p))) ∧
    (s.hears p 0x16 = true → s.txFor p [tcOf 256] = some x →
      let r := p.aux.toNat % 256
      let cause : BitVec 8 := if r = 7 then 0x54 else if 128 ≤ r then 0x24 else 0x53
      let why := if 128 ≤ r then 32 + r % 16 else r
      (∀ o, s.op x.op = some o → o.kind ≠ .load .none → (∀ v, o.kind ≠ .xfer v) → o.fault = none → Completes (.refused p) s (fun t =>
        (∀ a, t.hbm a = s.hbm a) ∧ gone t ∧ s.fails t (s.underWay o (some x.id) x.part) o cause why)) ∧
      (∀ o v, s.op x.op = some o → o.kind = .xfer v → o.fault = none → Completes (.refused p) s (fun t =>
        (∀ a, t.hbm a = s.hbm a) ∧ gone t ∧ ∃ n, s.fails t (s.underWay o (some x.id) x.part) o cause (why + n * 256))) ∧
      (∀ o, s.op x.op = some o → o.kind = .load .none → Completes (.refused p) s (fun t => (∀ a, t.hbm a = s.hbm a) ∧ gone t ∧ closed t o ∧
        (o.cls ≠ 0 → (s.fib o.who).fid = o.fid → (s.fib o.who).st = .ready →
          t.frozenWith o.who cause why (s.fib o.who).unitPc))) ∧
      (∀ w id, s.op x.op = none → x.pkt.ty = 9 → x.pkt.aux.setWidth 8 = 3#8 → s.fe.resync = [(x.pkt.dst, w, id)] →
        (s.fib w).fid = id → (s.fib w).st = .ready → Completes (.refused p) s (fun t => (∀ a, t.hbm a = s.hbm a) ∧ gone t ∧
          t.fe.resync = [] ∧ t.frozenWith w 0x53 r (s.fib w).unitPc)))

-- Links -------------------------------------------------------------------------------------------------------------------

/-- R336-R341: a good data flit in order is taken, and its buffer's credit returned; another one is answered with NAK, as is every flit
that fails its CRC; acknowledgements free the held flits, and NAK or 4 µs without progress sends them again. Packets leave in numbered
data flits as credit and the replay buffer allow, and are held until they are acknowledged. A port trains, retrains and goes down as R341
says. What a port sends is striped over its wavelengths in numbered codewords with idle flits for what is missing; codewords give and lose
FEC lock, and the slices of one count of all wavelengths make the flits again. A local port takes the frames of its three classes that
pass their CRC and asks for the others again; it holds what it sent until its partner has acknowledged it, and sends it again on
request. A retrain that a partner of four lanes answers within 10 µs sends what is held and what waits; the third failure in a row takes
the port down.
The model's choice in it: log 106, 107, 108, 109, 165. -/
def Obligations.Links : Prop :=
  ∀ (s : State) (n : Nat) (f : Flit),
    let p := s.port n
    let idle := fun (i : Instr) => exec i s = .next s
    let keep := fun (t : State) => Kept s t ∧ ∀ m, m ≠ n → t.port m = s.port m
    let moved := p.held.findIdx? (fun h => h.seq == f.ack)
    let naks := fun (t : State) => keep t ∧ (t.port n).rxNext = p.rxNext ∧ t.agenda = s.agenda ∧
      ∃ g, t.out = s.out ++ [.flit n g] ∧ g.nak = true ∧ g.ack = p.rxNext - 1
    (p.st ≠ .up → idle (.eolDataFlit n f) ∧ idle (.idleFlit n f) ∧ idle (.eolNak n f) ∧ idle (.eolReplayTimeout n) ∧ idle (.fecLockLoss n)) ∧
    (p.st = .up →
      (f.good = false ∨ f.ftype ≠ 1 ∨ f.seq ≠ p.rxNext →
        ((∀ z, p.lastNak = some z → z + 1000 ≤ s.now) → Completes (.eolDataFlit n f) s naks) ∧
        (∀ z, p.lastNak = some z → s.now < z + 1000 → idle (.eolDataFlit n f))) ∧
      (f.good = false → (∀ z, p.lastNak = some z → z + 1000 ≤ s.now) →
        Completes (.idleFlit n f) s naks ∧ (∃ t, s.flitArrives n f = .next t ∧ naks t) ∧ idle (.eolNak n f))) ∧
    (p.st = .up → p.queue = [] → p.again = [] →
      (f.good = true → f.ftype = 1 → f.seq = p.rxNext →
        let c := f.pvc.toNat
        let bs := (if f.first = 0 then [] else Tbl.get p.stream c []) ++ f.payload
        let took := fun (rest : List Byte) (evs : List Turn) => Completes (.eolDataFlit n f) s (fun t => keep t ∧
          (t.port n).rxNext = p.rxNext + 1 ∧ Tbl.get (t.port n).stream c [] = rest ∧ t.agenda = s.agenda ++ evs ∧
          ∃ l g, t.out = l ++ [.flit n g] ∧ g.crvc = f.pvc ∧ g.crn = 1)
        (n ≠ 255 → took (cutPackets 16 bs).2 ((cutPackets 16 bs).1.map (fun k => Turn.packet k true (c % 3)))) ∧
        (n = 255 → took (cutRecords 8 bs).2 (if c = 0 then (cutRecords 8 bs).1.map Turn.record else []))) ∧
      (∀ i, f.good = true → f.ackv = true → moved = some i →
        Completes (.idleFlit n f) s (fun t => keep t ∧ (t.port n).held = p.held.drop (i + 1) ∧ (t.port n).rxNext = p.rxNext ∧
          ∀ c, c < 12 → Tbl.get (t.port n).credits c 0 = Tbl.get p.credits c 0 + if f.crvc.toNat = c then f.crn.toNat else 0) ∧
        (f.nak = true → Completes (.eolNak n f) s (fun t => keep t ∧ (t.port n).held = p.held.drop (i + 1) ∧
          t.out = s.out ++ (p.held.drop (i + 1)).map (fun h => Msg.flit n h))) ∧
        (f.nak = true → f.ftype = 0 ∨ f.ftype = 1 → ∃ t, s.flitArrives n f = .next t ∧
          ∀ c, c < 12 → Tbl.get (t.port n).credits c 0 = Tbl.get p.credits c 0 + if f.crvc.toNat = c then f.crn.toNat else 0))) ∧
    (∀ bs : List Byte, bs.length = 64 → bs.any (fun b => b != 0) = true → cutRecords 8 bs = ([bs], [])) ∧
    (∀ (st : Nat) (pk : Packet),
      let c := 3 * pk.tc.toNat + st
      let bs := pk.bytes
      let fl := (bs.length + 239) / 240
      p.st = .up → p.queue = [] → p.again = [] → c < 12 → fl ≤ Tbl.get p.credits c 0 → p.held.length + fl ≤ 2048 →
      let t := s.sendOn true n st pk
      ∃ fs, fs.length = fl ∧ t.out = s.out ++ fs.map (Msg.flit n) ∧ (t.port n).held = p.held ++ fs ∧ (t.port n).queue = [] ∧
        Tbl.get (t.port n).credits c 0 = Tbl.get p.credits c 0 - fl ∧ (fs.flatMap Flit.payload).take bs.length = bs ∧
        ∀ i g, fs[i]? = some g → g.seq = p.txSeq + BitVec.ofNat 12 i ∧ g.ftype = 1 ∧ g.pvc.toNat = c ∧ g.good = true) ∧
    (let l := s.line n
     let w := portWaves n
     let k := 640 * w / 256
     let t := s.sendCodeword n
     let nth := fun (i : Nat) => l.wait.getD i (p.stamped Flit.blank)
     (t.line n).wait = l.wait.drop k ∧ (t.line n).count = (l.count + 1) % 4096 ∧
     ∃ ms, t.out = s.out ++ ms ∧ ms.length = w ∧ ∀ j, j < w → ∃ fw bs, ms[j]? = some (.codeword n j fw bs) ∧ bs.length = 640 ∧
       fw.toNat % 16 = j ∧ fw.toNat / 16 % 16 = 0xA ∧ fw.toNat / 256 = l.count % 4096 ∧
       ∀ i, i < k → (bs.drop (256 / w * i)).take (256 / w) = ((nth i).bytes.drop (256 / w * j)).take (256 / w)) ∧
    (p.st = .up → p.held = [] ∨ s.now < p.ackAt + 4000 → idle (.eolReplayTimeout n)) ∧
    (p.st = .up → p.held ≠ [] → p.ackAt + 4000 ≤ s.now →
      (p.replays < 7 → Completes (.eolReplayTimeout n) s (fun t => keep t ∧ (t.port n).replays = p.replays + 1 ∧
        (t.port n).held = p.held ∧
        t.out = s.out ++ (p.held.take (p.held.length - p.again.length)).map (fun h => Msg.flit n h))) ∧
      (7 ≤ p.replays → Completes (.eolReplayTimeout n) s (fun t => keep t ∧ (t.port n).st = .retrain ∧ (t.port n).held = p.held))) ∧
    (let joins := f.good = true ∧ p.st = .down ∧ f.ctl 9 = 1 ∧ (f.ctl 0x0A).toNat = portWaves n ∧ p.lockedAll n = true
     (¬joins → idle (.ts1 n f)) ∧
     (joins → Completes (.ts1 n f) s (fun t => keep t ∧ (t.port n).st = .train ∧
        (t.port n).partner = BitVec.ofNat 16 (leNat [f.ctl 0x0C, f.ctl 0x0D]) ∧ (t.port n).partnerPort = f.ctl 0x0E ∧
        ∃ g, t.out = s.out ++ [.flit n g] ∧ g.ftype = 2 ∧ g.ctl 8 = 1))) ∧
    (p.st ≠ .down ∨ s.now < p.lastTs1 + 1000 → idle (.ts1Timer n)) ∧
    (p.st = .down → p.lastTs1 + 1000 ≤ s.now → Completes (.ts1Timer n) s (fun t => keep t ∧ (t.port n).st = .down ∧
      ∃ g, t.out = s.out ++ [.flit n g] ∧ g.ftype = 2 ∧ g.ctl 8 = 0 ∧ g.ctl 9 = 1 ∧ g.ctl 0x0A = BitVec.ofNat 8 (portWaves n))) ∧
    (f.good = false → idle (.ts2 n f) ∧ idle (.creditInit n f)) ∧
    (f.good = true →
      (p.st = .train → Completes (.ts2 n f) s (fun t => keep t ∧ (t.port n).st = .credit ∧ (t.port n).txSeq = 0 ∧
        (t.port n).rxNext = 0 ∧ (t.port n).held = [] ∧ ∃ g, t.out = s.out ++ [.flit n g] ∧ g.ftype = 2 ∧ g.ctl 8 = 2 ∧
          ∀ c, c < 12 → leNat [g.ctl (0x10 + 2 * c), g.ctl (0x11 + 2 * c)] = if n = 255 then (if c < 2 then 64 else 0) else 128)) ∧
      (p.st = .retrain → Completes (.ts2 n f) s (fun t => keep t ∧ t.port n = { p with ts2 := true })) ∧
      (p.st ≠ .train → p.st ≠ .retrain → idle (.ts2 n f)) ∧
      (let given := fun (c : Nat) => leNat [f.ctl (0x10 + 2 * c), f.ctl (0x11 + 2 * c)]
       let used := fun (c : Nat) => (p.held.filter (fun h => h.pvc.toNat == c)).length
       p.st = .credit ∨ (p.st = .retrain ∧ p.ts2 = true) → p.queue = [] →
       ((∀ h, h ∈ p.held → h.pvc.toNat < 12 ∧ used h.pvc.toNat ≤ given h.pvc.toNat) → Completes (.creditInit n f) s (fun t =>
         keep t ∧ (t.port n).st = .up ∧ (t.port n).txSeq = p.txSeq ∧ (t.port n).rxNext = p.rxNext ∧ (t.port n).held = p.held ∧
         t.out = s.out ++ p.held.map (fun h => Msg.flit n h) ∧
         ∀ c, c < 12 → Tbl.get (t.port n).credits c 0 = given c - used c)) ∧
       (∀ h l, p.held = h :: l → h.pvc.toNat < 12 → given h.pvc.toNat = 0 → Completes (.creditInit n f) s (fun t =>
         keep t ∧ (t.port n).st = .up ∧ t.out = s.out ∧ (t.port n).again = p.held))) ∧
      (p.st ≠ .credit → p.st ≠ .retrain ∨ p.ts2 = false → idle (.creditInit n f))) ∧
    (s.now < p.since + 10000 ∨ (p.st ≠ .train ∧ p.st ≠ .retrain) → idle (.trainTimeout n)) ∧
    (p.since + 10000 ≤ s.now →
      (p.st = .train → Completes (.trainTimeout n) s (fun t => keep t ∧ (t.port n).st = .down)) ∧
      (p.st = .retrain → p.retrains < 2 → Completes (.trainTimeout n) s (fun t => keep t ∧ (t.port n).st = .retrain ∧
        (t.port n).retrains = p.retrains + 1 ∧ (t.port n).held = p.held)) ∧
      (p.st = .retrain → 2 ≤ p.retrains → Completes (.trainTimeout n) s (fun t => keep t ∧ (t.port n).st = .down ∧
        (t.port n).failed = true ∧ (t.port n).held = [] ∧ (t.port n).queue = []))) ∧
    (p.st = .up → p.lockedAll n = true ∨ s.now < p.since + 1000 → idle (.fecLockLoss n)) ∧
    (p.st = .up → p.lockedAll n = false → p.since + 1000 ≤ s.now →
      Completes (.fecLockLoss n) s (fun t => keep t ∧ (t.port n).st = .retrain ∧ (t.port n).held = p.held)) ∧
    (∀ w msg, portWaves n ≤ w → idle (.codeword n w msg)) ∧
    (∀ w, w < portWaves n →
      let x := Tbl.get p.waves w Wave.dark
      let wave := fun (t : State) => Tbl.get (t.port n).waves w Wave.dark
      (∀ fw bs, fw.toNat % 16 = w → fw.toNat / 16 % 16 = 0xA → fw.toNat / 256 = (x.count + 1) % 4096 →
        Completes (.codeword n w (some (fw, bs))) s (fun t => keep t ∧ (wave t).good = x.good + 1 ∧ (wave t).bad = 0 ∧
          ((wave t).locked = true ↔ x.locked = true ∨ 7 ≤ x.good) ∧
          (x.locked = true → p.slices.length < 256 → (∀ v, v < portWaves n → v ≠ w → Tbl.has p.slices (fw.toNat / 256, v) = true) →
            let size := 256 / portWaves n
            let slice := fun (v : Nat) => if v = w then bs else Tbl.get p.slices (fw.toNat / 256, v) []
            t.agenda = s.agenda ++ (List.range (640 / size)).map (fun i => Turn.flit n (Flit.ofBytes
              ((List.range (portWaves n)).flatMap (fun v => ((slice v).drop (i * size)).take size))))))) ∧
      (x.locked = true → Completes (.codeword n w none) s (fun t => keep t ∧ ((wave t).locked = true ↔ x.bad < 3) ∧
        (wave t).good = 0)) ∧
      (x.locked = false → Completes (.codeword n w none) s (fun t => keep t ∧ wave t = Wave.dark))) ∧
    (let q := s.localPort n
     (∀ cls good pk, s.frameOk n cls good pk = true ↔ q.up = true ∧ good = true ∧
       cls = (if pk.ty = 1 then UaClass.read else if pk.ty = 3 then UaClass.atomic else UaClass.write)) ∧
     let frames := fun (l : List (Nat × Packet)) => l.map (fun e => Msg.frame (uaClass e.2) e.2 n e.1)
     (s.frameBad n).out = s.out ++ (if q.up = true then [.askAgain n] else []) ∧
     (∀ (k : Nat) (again : Bool), ((s.frameReply n k again).localPort n).held = q.held.drop k ∧
       (s.frameReply n k again).out = s.out ++ (if again = true ∧ q.up = true ∧ q.since = none then frames (q.held.drop k) else [])) ∧
     (q.since = none → (∀ w, idle (.localPortRetrain n (.answer w))) ∧ idle (.localPortRetrain n .timeout) ∧
       Completes (.localPortRetrain n .start) s (fun t => Kept s t ∧ t.out = s.out ∧ t.localPort n = { q with since := some s.now })) ∧
     (∀ z, q.since = some z → idle (.localPortRetrain n .start) ∧
       (∀ w, w ≠ 4 ∨ z + 10000 < s.now → idle (.localPortRetrain n (.answer w))) ∧
       (s.now ≤ z + 10000 → Completes (.localPortRetrain n (.answer 4)) s (fun t => Kept s t ∧
         (t.localPort n).up = true ∧ (t.localPort n).fails = 0 ∧ (t.localPort n).since = none ∧
         (t.localPort n).held = q.held ++ q.queue ∧ (t.localPort n).queue = [] ∧ t.out = s.out ++ frames (q.held ++ q.queue))) ∧
       (s.now < z + 10000 → idle (.localPortRetrain n .timeout)) ∧
       (z + 10000 ≤ s.now → Completes (.localPortRetrain n .timeout) s (fun t => Kept s t ∧ t.out = s.out ∧
         (q.fails < 2 → t.localPort n = { q with fails := q.fails + 1, since := some s.now }) ∧
         (2 ≤ q.fails → (t.localPort n).up = false ∧ (t.localPort n).held = [] ∧ (t.localPort n).queue = [])))))

-- Work ------------------------------------------------------------------------------------------------------------------------

/-- R134-R137, R376, R378, R379: items and blocks are posted to their queues as a release at their scope, or the instruction waits in
place; a stage that is not there raises cause 0x60, an INVALID item register cause 0x10, a block that is not 256-aligned cause 0x22 and a
queue that is not the context's cause 0x61. Claimed items of the active lanes are retired. The pre-emption request is read and the live
registers declared. A counter the context owns is read and set, another raises cause 0x70 with DETAIL 1, a bad control word with DETAIL 2.
A mark counts, and with the trace on it claims the next head and writes its record below it.
The model's choice in it: log 110, 127. -/
def Obligations.WorkInstructions : Prop :=
  ∀ (s : State) (k : BitVec 3) (a b : SReg) (d : VReg) (n : BitVec 4) (f : BitVec 1),
    let fl := s.flagSel f
    let g := s.grid s.myWg.grid
    let cu := s.myWg.cu
    let posts := fun (i : Instr) (kind : OpKind) (scope : Scope) =>
      (s.recordFull = false → s.flagFree fl → Completes i s (fun t => s.posted t kind fl [] ∧
        ∃ o, o ∈ t.ops ∧ o.id = s.nextId ∧ o.gate = some s.gateHere ∧ o.scope = scope)) ∧
      (s.recordFull = true ∨ ¬s.flagFree fl → exec i s = .next s.waitHere)
    let noStage := g.launch.pipe = false ∨ g.stages.length ≤ k.toNat
    (noStage → (s.goes (.spawn k a b f) → exec (.spawn k a b f) s = .next (s.take 0x60 k.toNat)) ∧
      (s.goes (.spawnv d k f) → exec (.spawnv d k f) s = .next (s.take 0x60 k.toNat))) ∧
    (∀ st, g.launch.pipe = true → g.stages[k.toNat]? = some st →
      let scope := s.scopeOr (if st.stealable then .device else .cluster)
      (s.goes (.spawn k a b f) → posts (.spawn k a b f) (.spawn k.toNat [s.sreg b.toNat ++ s.sreg a.toNat]) scope) ∧
      (s.goes (.spawnv d k f) →
        ((∃ i, i < 4 ∧ s.vtagOf (d.toNat + i) = 0) → exec (.spawnv d k f) s = .next (s.take 0x10 (tagDetail 0 false 0))) ∧
        ((∀ i, i < 4 → s.vtagOf (d.toNat + i) ≠ 0) →
          (s.active = [] → exec (.spawnv d k f) s = .next s.retire) ∧
          (s.active ≠ [] → posts (.spawnv d k f) (.spawn k.toNat (s.active.map (fun l =>
            (((s.vwin (d.toNat + 3)).lane l ++ (s.vwin (d.toNat + 2)).lane l) ++
              ((s.vwin (d.toNat + 1)).lane l ++ (s.vwin d.toNat).lane l) : BitVec 128)))) scope)))) ∧
    (s.goes .itemdone → Completes .itemdone s (fun t => Kept s t ∧ s.advanced t ∧
      (t.slot s.actor.wg s.actor.slot).items = s.mySlot.items &&& ~~~s.me.mask ∧
      ∀ st, s.mySlot.runs = some st → ((t.cluster s.myWg.cluster).stageQ st).claimed =
        ((s.cluster s.myWg.cluster).stageQ st).claimed -
          (List.range 64).countP (fun l => (s.mySlot.items &&& s.me.mask).getLsbD l))) ∧
    (s.goes (.launch a b f) →
      let x := s.sreg a.toNat
      let qn := (s.sreg b.toNat).toNat
      let q := s.queue qn
      let ours := qn < 64 ∧ q.deviceFed = true ∧ q.ctx = some s.myWg.ctx
      (x.toNat % 256 ≠ 0 → exec (.launch a b f) s = .next (s.takeAt 0x22 x.toNat x 0 none)) ∧
      (x.toNat % 256 = 0 → ¬ours → exec (.launch a b f) s = .next (s.take 0x61 qn)) ∧
      (x.toNat % 256 = 0 → ours → posts (.launch a b f) (.launch x qn (s.launchOf s.actor.wg).prio) .device)) ∧
    (s.goes (.preemptPt d a) → Completes (.preemptPt d a) s (fun t => Quiet s t ∧ s.advanced t ∧
      (t.fib s.actor).live = some d ∧ (t.fib s.actor).regs = { s.me.regs with
        s := Tbl.set s.me.s a.toNat (match s.myWg.preempt with | some l => BitVec.ofNat 64 (1 + 2 * l) | none => 0) })) ∧
    (let e := Tbl.get (s.cu cu).ev n.toNat EvCnt.zero
     (s.ownsCounter n.toNat = true ↔ e.owner.toNat / 2 ^ 12 % 2 = 1 ∧ e.owner.toNat % 2 ^ 12 = s.myWg.ctx.toNat) ∧
     (s.ownsCounter n.toNat = true →
       WritesScalar (.evread n a) s a (BitVec.ofNat 64 (e.count.toNat + if e.ovf then 2 ^ 63 else 0)) ∧
       (let w := s.sreg a.toNat
        let ok := fld w 0 8 ≤ 0x12 ∧ fld w 11 53 = 0 ∧ (w.getLsbD 10 = true ∨ s.myCtx.priv = true)
        s.goes (.evctl n a) →
          (¬ok → exec (.evctl n a) s = .next (s.take 0x70 2)) ∧
          (ok → Completes (.evctl n a) s (fun t => Kept s t ∧ s.advanced t ∧
            let z := Tbl.get (t.cu cu).ev n.toNat EvCnt.zero
            z.event = w.setWidth 8 ∧ z.en = w.getLsbD 8 ∧ z.ctxonly = w.getLsbD 10 ∧ z.owner = e.owner ∧
            z.count = (if w.getLsbD 9 then 0 else e.count) ∧ z.ovf = (if w.getLsbD 9 then false else e.ovf))))) ∧
     (s.ownsCounter n.toNat = false → (s.goes (.evread n a) → exec (.evread n a) s = .next (s.take 0x70 1)) ∧
       (s.goes (.evctl n a) → exec (.evctl n a) s = .next (s.take 0x70 1)))) ∧
    (s.goes (.tmark a) →
      let c := s.myCtx
      let m := fld c.trctl 1 5
      let s0 := s.countEv cu 0x10 1 (some s.myWg.ctx)
      (c.trctl.getLsbD 0 = false ∨ m < 4 ∨ 20 < m ∨ s0.tracePa c.trbase = none →
        Completes (.tmark a) s (fun t => Kept s t ∧ s.advanced t)) ∧
      (∀ hp pa, c.trctl.getLsbD 0 = true → 4 ≤ m → m ≤ 20 → s.memOk →
        let h := s.hbm64 hp
        let s1 := (s0.writeHbm s.myWg.ctx hp (leBytes (h + 1).toNat 8) .clear).1
        s0.tracePa c.trbase = some hp → s1.tracePa (c.trbase + 64 + BitVec.ofNat 64 (64 * (h.toNat % 2 ^ m))) = some pa →
        Completes (.tmark a) s (fun t => s.advanced t ∧ (t.fib s.actor).regs = s.me.regs ∧
          (∀ i, i < 56 → t.hbm (pa + 8 + i) = (s.traceRecord (s.sreg a.toNat)).getD i 0) ∧
          (∀ z, (z < hp ∨ hp + 8 ≤ z) → (z < pa + 8 ∨ pa + 64 ≤ z) → t.hbm z = s.hbm z) ∧
          ∃ o, o ∈ t.ops ∧ o.kind = .trace (c.trbase + 64 + BitVec.ofNat 64 (64 * (h.toNat % 2 ^ m))) pa (h + 1))))

/-- R110, R111, R113, R116-R118, R120, R134, R136: a spawn and a launch reach their queues when their release is due and there is room, a
spawn's items standing in the ring of their stage. A queue takes its next chain, reads its block, and by its header and its test stops,
skips it, follows the other link, waits for the previous grid, refuses its record or makes a grid of it, all its clusters pending; its
STATUS is written when the waits of its release are over, and its link then followed. A test that waits passes by the write that
satisfies it. A pending cluster that fits is placed with its initial fibres, one that does not reserves its CUs; a cluster that has waited
1 ms is promoted. A completed grid signals, and after that writes its STATUS, which follows the STATUS of its launch. What a poisoned line
holds is read once the scrubber has rewritten it.
The model's choice in it: log 111, 112, 116, 119, 120. -/
def Obligations.WorkSteps : Prop :=
  ∀ s : State,
    let idle := fun (i : Instr) => exec i s = .next s
    let wrote := fun (t : State) (pa : Nat) (bs : List Byte) =>
      ∀ z, t.hbm z = if pa ≤ z ∧ z < pa + bs.length then bs.getD (z - pa) 0 else s.hbm z
    let still := fun (t : State) => ∀ r, (t.fib r).regs = (s.fib r).regs
    (∀ id o, s.op id = some o → o.sticky = 0 → o.fault = none →
      (∀ st items, o.kind = .spawn st items →
        let cl := (s.wg o.who.wg).cluster
        let q := (s.cluster cl).stageQ st
        let first := ∀ x l, x ∈ s.ops → x.id < o.id → x.fid = o.fid → x.kind ≠ .spawn st l
        let due := s.isSaved o.who.wg = false ∧ first ∧ s.gateOpen o = true ∧ q.occ + items.length ≤ (s.stageOf cl st).depth
        (¬due → idle (.spawnAppend id)) ∧
        (due → Completes (.spawnAppend id) s (fun t => still t ∧ ((t.cluster cl).stageQ st).items = q.items ++ items ∧
          (o.cls = 0 → ∀ x, x ∈ t.ops → x.id ≠ id) ∧
          (∀ x, items = [x] → s.ringLoc cl st q.tail .write = none → ∀ z, t.hbm z = s.hbm z) ∧
          ∀ x pa, items = [x] → s.memOk → s.ringLoc cl st q.tail .write = some (.mem pa) → pa + 16 ≤ hbmEnd →
            wrote t pa (leBytes x.toNat 16)))) ∧
      (∀ blk qn prio, o.kind = .launch blk qn prio →
        let due := s.isSaved o.who.wg = false ∧ s.gateOpen o = true ∧ (s.queue qn).fifo.length < 256
        (¬due → idle (.launchAppend id)) ∧
        (due → Completes (.launchAppend id) s (fun t => Kept s t ∧ (t.queue qn).fifo = (s.queue qn).fifo ++ [(blk, prio)] ∧
          (o.cls = 0 → ∀ x, x ∈ t.ops → x.id ≠ id))))) ∧
    (∀ qn, (s.queue qn).ctx = none ∨ s.frontTime < (s.queue qn).gwct → idle (.launchBlockProcess qn)) ∧
    (∀ qn, (s.queue qn).st ≠ .hit → idle (.launchTestRetest qn)) ∧
    (∀ qn c, (s.queue qn).ctx = some c →
      let q := s.queue qn
      let ends := fun (i : Instr) (b : List Byte) (code link : Nat) => Completes i s (fun t => Kept s t ∧ t.grids = s.grids ∧
        (t.queue qn).st = .status ∧ (t.queue qn).code = code ∧ (t.queue qn).link = link ∧ (t.queue qn).held = b ∧
        (t.queue qn).block = q.block)
      let stops := fun (i : Instr) (cause : BitVec 8) (detail : Nat) (addr : DWord) => Completes i s (fun t => Kept s t ∧
        t.grids = s.grids ∧ (t.queue qn).st = .stopped ∧
        t.out = s.out ++ [.note 0x82 [BitVec.ofNat 64 qn, q.block, cause.setWidth 64, BitVec.ofNat 64 detail, addr]])
      let launches := fun (i : Instr) (b : List Byte) =>
        let busy := blkBits b 0x10 6 1 = 1 ∧ ∃ g, q.last = some g ∧ (s.grid g).done = false
        let v := s.validate c q.limit (recordOf b)
        let free := ¬busy ∧ s.declScrub c (recordOf b) = false
        (blkBits b 0x10 5 1 = 0 → ends i b 0x0003 0) ∧
        (blkBits b 0x10 5 1 = 1 → ¬free → Completes i s (fun t => Kept s t ∧ t.grids = s.grids ∧ (t.queue qn).st = .serial)) ∧
        (blkBits b 0x10 5 1 = 1 → free → v ≠ 0 → ends i b v 0) ∧
        (blkBits b 0x10 5 1 = 1 → free → v = 0 → Completes i s (fun t => Kept s t ∧
          (t.queue qn).st = .status ∧ (t.queue qn).code = 0x0010 ∧ (t.queue qn).link = 0 ∧
          ∃ n, (t.queue qn).last = some n ∧ (t.grid n).launch = recordOf b ∧ (t.grid n).block = q.block ∧ (t.grid n).ctx = c ∧
            (t.grid n).done = false ∧ (t.grid n).clusters.length = (recordOf b).k * (recordOf b).rects.length ∧
            ((t.grid n).signal = if blkBits b 0x10 8 1 = 1 then some (blkWord b 0x28, blkWord b 0x30) else none) ∧
            ∀ x, x ∈ (t.grid n).clusters → (t.cluster x).place = .pending ∧ (t.cluster x).grid = n))
      let tests := fun (i : Instr) (b : List Byte) (at' : Nat) =>
        let x := leNat (s.hbmBytes at' (testSize b))
        let pass := (testCond b).holds (BitVec.ofNat 64 x) = true
        let clean := s.poisoned at' = false
        (¬clean → idle i) ∧
        (clean → pass → launches i b) ∧
        (clean → ¬pass → blkBits b 0x10 4 1 = 0 → ends i b 0x0002 8) ∧
        (clean → ¬pass → blkBits b 0x10 4 1 = 1 → Completes i s (fun t => Kept s t ∧ t.grids = s.grids ∧ (t.queue qn).st = .testing ∧
          (t.queue qn).watch = some (at', testCond b)))
      (s.frontTime < q.gwct ∨
        (q.st = .run → q.block = 0 → q.deviceFed = true →
          (q.fifo = [] → Completes (.launchBlockProcess qn) s (fun t => Kept s t ∧ (t.queue qn).st = .parked)) ∧
          (∀ b p l, q.fifo = (b, p) :: l → Completes (.launchBlockProcess qn) s (fun t => Kept s t ∧
            (t.queue qn).st = .run ∧ (t.queue qn).block = b ∧ (t.queue qn).limit = some p ∧ (t.queue qn).fifo = l))) ∧
        (q.st = .run → q.block = 0 → q.deviceFed = false →
          (q.bell = false ∨ q.via = none → Completes (.launchBlockProcess qn) s (fun t => Kept s t ∧ (t.queue qn).st = .parked)) ∧
          (∀ a pa, q.bell = true → q.via = some a → s.frontPlace c a .read = .ok (.mem pa) → s.poisoned pa = true →
            idle (.launchBlockProcess qn)) ∧
          (∀ a pa, q.bell = true → q.via = some a → s.frontPlace c a .read = .ok (.mem pa) → s.poisoned pa = false →
            Completes (.launchBlockProcess qn) s (fun t => Kept s t ∧ (t.queue qn).st = .run ∧ (t.queue qn).bell = false ∧
              (t.queue qn).block = BitVec.ofNat 64 (leNat (s.hbmBytes pa 8))))) ∧
        (q.st = .run → q.block ≠ 0 → q.block.toNat % 256 ≠ 0 → stops (.launchBlockProcess qn) 0x22 0 q.block) ∧
        (∀ k d, q.st = .run → q.block ≠ 0 → q.block.toNat % 256 = 0 → s.frontPlace c q.block .read = .error (k, d) →
          stops (.launchBlockProcess qn) k d q.block) ∧
        (∀ pa, q.st = .run → q.block ≠ 0 → q.block.toNat % 256 = 0 → s.frontPlace c q.block .read = .ok (.mem pa) → inHbm pa = true →
          let b := s.hbmBytes pa 256
          let i := Instr.launchBlockProcess qn
          (s.poisoned pa = true ∨ s.poisoned (pa + 128) = true → idle i) ∧
          (s.poisoned pa = false → s.poisoned (pa + 128) = false →
            (headerBad b = true → ends i b 0x0101 0) ∧
            (headerBad b = false → headerMisaligned b = true → ends i b 0x0110 0) ∧
            (headerBad b = false → headerMisaligned b = false →
              (blkBits b 0x10 0 1 = 1 → ends i b 0x0001 0) ∧
              (blkBits b 0x10 0 1 = 0 → blkBits b 0x10 1 3 = 0 → launches i b) ∧
              (∀ at', blkBits b 0x10 0 1 = 0 → 0 < blkBits b 0x10 1 3 → blkBits b 0x10 1 3 < 5 → inHbm at' = true →
                s.frontPlace c (blkWord b 0x18) .read = .ok (.mem at') → tests i b at') ∧
              (∀ k d, blkBits b 0x10 0 1 = 0 → 0 < blkBits b 0x10 1 3 → blkBits b 0x10 1 3 < 5 →
                s.frontPlace c (blkWord b 0x18) .read = .error (k, d) → stops i k d (blkWord b 0x18))))) ∧
        (q.st = .parked → q.deviceFed = false ∨ q.fifo = [] → idle (.launchBlockProcess qn)) ∧
        (q.st = .serial → launches (.launchBlockProcess qn) q.held) ∧
        (q.st = .status → s.queueSettled qn = false → idle (.launchBlockProcess qn)) ∧
        (∀ pa, q.st = .status → s.queueSettled qn = true → s.memOk → s.frontPlace c (q.block + 0x38) .write = .ok (.mem pa) →
          pa + 4 ≤ hbmEnd → pa % 128 ≤ 124 → Completes (.launchBlockProcess qn) s (fun t => still t ∧ wrote t pa (leBytes q.code 4) ∧
            (t.queue qn).st = .run ∧ (t.queue qn).block = blkWord q.held q.link ∧
            (t.queue qn).via = some (q.block + BitVec.ofNat 64 q.link) ∧ (s.secMeta pa).recExp ≤ (t.queue qn).gwct)) ∧
        (∀ k d, q.st = .status → s.queueSettled qn = true → s.frontPlace c (q.block + 0x38) .write = .error (k, d) →
          stops (.launchBlockProcess qn) k d (q.block + 0x38))) ∧
      (q.st = .hit → blkBits q.held 0x10 1 3 ≠ 5 → launches (.launchTestRetest qn) q.held) ∧
      (∀ at', q.st = .hit → blkBits q.held 0x10 1 3 = 5 → inHbm at' = true →
        s.frontPlace c (blkWord q.held 0x18) .amo = .ok (.mem at') →
        (s.queueSettled qn = true → Completes (.launchTestRetest qn) s (fun t => Kept s t ∧ (t.queue qn).st = .testing ∧
          t.ase = s.ase ++ [(ownerOf at', .frontEnd, .test qn)])) ∧
        (s.queueSettled qn = false → Completes (.launchTestRetest qn) s (fun t => Kept s t ∧ t.ase = s.ase ∧
          (t.queue qn).st = .hit)))) ∧
    (∀ (g : Nat) (x : Grid) (c : Nat), s.grids = [(g, x)] → x.done = false → x.launch.prio < 8 → x.clusters = [c] →
      (s.cluster c).place = .pending → (s.cluster c).inst = 0 → (s.cluster c).grid = g → x.launch.gridbar = false →
      x.launch.pipe = false → 0 < x.launch.slots → 0 < x.launch.fibres → 0 < (s.cluster c).cw → 0 < (s.cluster c).ch →
      (s.fits [s.ownPlace c] [] = true → Completes .placement s (fun t => (∀ a, t.hbm a = s.hbm a) ∧ (t.cluster c).place = .resident ∧
        (t.cluster c).wgs.length = (s.cluster c).wgs.length + (s.cluster c).cw * (s.cluster c).ch ∧
        (t.wg s.nextId).live = true ∧ (t.wg s.nextId).cu = (s.cluster c).y * 16 + (s.cluster c).x ∧
        let f := t.fib { wg := s.nextId, slot := 0, idx := 0 }
        f.st = .blocked ∧ f.blk = .header ∧ f.pc = x.launch.entry ∧ f.s = [(0, x.launch.args)] ∧ f.p = [] ∧
        f.mask = fullMask x.launch.warp ∧ f.base = BitVec.ofNat 10 (x.launch.wbase.getD 0 0) ∧ f.sticky = 0)) ∧
      (s.fits [s.ownPlace c] [] = false → Completes .placement s (fun t => Kept s t ∧ (t.cluster c).place = .pending ∧
        t.wgs = s.wgs ∧ ∀ e, (c, e) ∈ s.clusters → ∀ cu, cu ∈ e.cus → e.place = .pending → e.grid = g → Tbl.has t.reserved cu = true))) ∧
    (∀ g, Completes (.agePromotion g) s (fun t => Kept s t ∧
      ∀ c, c ∈ (s.grid g).clusters → (s.cluster c).place = .pending → (s.cluster c).since + 1000000 ≤ s.now →
        (t.cluster c).promoted = true)) ∧
    let begun := fun (g : Nat) => ∀ e, e ∈ s.queues → e.2.last = some g → e.2.st = .status → e.2.code ≠ 0x0010
    (∀ g, (s.grid g).done = true ∨ ¬begun g ∨ s.gridEnded g = false ∨ s.gridPerformed g = false → idle (.gridComplete g)) ∧
    (∀ g pa, (s.grid g).done = false → begun g → s.gridEnded g = true → s.gridPerformed g = true →
      let x := s.grid g
      let note := fun (t : State) (k : BitVec 8) (d : Nat) (a : DWord) => t.out = s.out ++ [.note 0x82 [BitVec.ofNat 64 x.queue, x.block,
        k.setWidth 64, BitVec.ofNat 64 d, a]]
      (∀ a v, x.signal = some (a, v) →
        (s.memOk → pa % 128 ≤ 120 → s.frontPlace x.ctx a .write = .ok (.mem pa) → pa + 8 ≤ hbmEnd →
          Completes (.gridComplete g) s (fun t => still t ∧ wrote t pa (leBytes v.toNat 8) ∧
            (t.grid g).signal = none ∧ (t.grid g).done = false ∧ (s.secMeta pa).recExp ≤ (t.grid g).gwct)) ∧
        (∀ k d, s.frontPlace x.ctx a .write = .error (k, d) → Completes (.gridComplete g) s (fun t => Kept s t ∧ note t k d a ∧
          (t.grid g).signal = none ∧ (t.grid g).done = false))) ∧
      (x.signal = none →
        (s.memOk → pa % 128 ≤ 120 → s.frontPlace x.ctx (x.block + 0x38) .write = .ok (.mem pa) → pa + 4 ≤ hbmEnd →
          Completes (.gridComplete g) s (fun t => still t ∧ wrote t pa [0x11, 0, 0, 0] ∧ (t.grid g).done = true)) ∧
        (∀ k d, s.frontPlace x.ctx (x.block + 0x38) .write = .error (k, d) → Completes (.gridComplete g) s (fun t => Kept s t ∧
          note t k d (x.block + 0x38) ∧ (t.grid g).done = true))))

/-- R117, R120-R127, R131, R137: a free slot takes the waiting items of its stage as the ring holds them, when a warp of them waits or the
head is due; free slots go to the open stages, the starved first and the rest by largest remainder; an idle queue asks the cluster its LFSR
names, and takes up to half of what waits there; an idle pipeline ends. A cluster that has to make room moves, or is asked, stops and is
saved; a saved one is restored when its turn has come; a forwarding entry goes after its time. Each of these waits while its condition
does not hold.
The model's choice in it: log 116, 117, 118, 121, 124, 125, 163, 164. -/
def Obligations.PipelineAndPlacementSteps : Prop :=
  (∀ x : BitVec 16, (lfsrStep x).getLsbD 15 = (x.getLsbD 0 ^^ x.getLsbD 2 ^^ x.getLsbD 3 ^^ x.getLsbD 5) ∧
    ∀ i, i < 15 → (lfsrStep x).getLsbD i = x.getLsbD (i + 1)) ∧
  (∀ (n : Nat) (l : List (Nat × Nat)), (l.map (·.1)).Nodup → 0 < (l.map (·.2)).sum →
    let total := (l.map (·.2)).sum
    let r := largestRemainder n l
    r.map (·.1) = l.map (·.1) ∧ (r.map (·.2)).sum = n ∧
    (∀ st o, (st, o) ∈ l → Tbl.get r st 0 = n * o / total ∨ Tbl.get r st 0 = n * o / total + 1) ∧
    ∀ a x b y, (a, x) ∈ l → (b, y) ∈ l → Tbl.get r a 0 = n * x / total + 1 → Tbl.get r b 0 = n * y / total → n * y % total ≤ n * x % total) ∧
  ∀ s : State,
    let idle := fun (i : Instr) => exec i s = .next s
    (∀ g k,
      let w := s.wg g
      let q := fun (st : Nat) => (s.cluster w.cluster).stageQ st
      let packs := fun (st : Nat) => (s.slot g k).stage = some st ∧ s.slotFree g k = true ∧ (q st).items ≠ [] ∧
        (w.warp ≤ (q st).items.length ∨ (q st).headDue = true)
      ((∀ st, ¬packs st) → idle (.stagePacking g k)) ∧
      (∀ st, packs st →
        let n := min w.warp (q st).items.length
        let place := fun (l : Nat) => s.ringLoc w.cluster st ((q st).tail - (q st).items.length + l) .read
        Completes (.stagePacking g k) s (fun t =>
          (∀ a, t.hbm a = s.hbm a) ∧ ((t.cluster w.cluster).stageQ st).items = (q st).items.drop n ∧
          ((t.cluster w.cluster).stageQ st).claimed = (q st).claimed + n ∧ (t.slot g k).items = fullMask n ∧
          (t.slot g k).runs = some st ∧
          (let f := t.fib { wg := g, slot := k, idx := 0 }
           f.st = .blocked ∧ f.blk = .header ∧ f.pc = (s.stageOf w.cluster st).entry ∧ f.mask = fullMask n ∧
           Tbl.get f.s 0 0 = (s.launchOf g).args ∧ Tbl.get f.s 1 0 = BitVec.ofNat 64 n ∧ Tbl.get f.s 2 0 = BitVec.ofNat 64 st) ∧
          ∀ i l, i < 4 → l < n → (t.vreg g k i).tag = 2 ∧
            (∀ pa, place l = some (.mem pa) → (t.vreg g k i).lane l = BitVec.ofNat 32 (leNat (s.hbmBytes (pa + 4 * i) 4))) ∧
            (place l = none → (t.vreg g k i).lane l = (((q st).items.getD l 0) >>> (32 * i)).setWidth 32)))) ∧
    (∀ cl st,
      let q := (s.cluster cl).stageQ st
      let qt := fun (t : State) => (t.cluster cl).stageQ st
      let total := (s.grid (s.cluster cl).grid).clusters.length
      let asks := (s.cluster cl).place = .resident ∧ (s.stageOf cl st).stealable = true ∧ 1 < total ∧ q.items = [] ∧ q.victim = none ∧
        q.backoff = false ∧ ∃ g k, g ∈ (s.cluster cl).wgs ∧ k < (s.wg g).nslots ∧ s.slotFree g k = true ∧ (s.slot g k).stage = some st
      (q.items = [] ∨ (s.cluster cl).place ≠ .resident → idle (.packHeadTimeout cl st)) ∧
      (q.items ≠ [] → (s.cluster cl).place = .resident →
        Completes (.packHeadTimeout cl st) s (fun t => Kept s t ∧ qt t = { q with headDue := true })) ∧
      (¬asks → idle (.stealRequest cl st)) ∧
      (asks → Completes (.stealRequest cl st) s (fun t => Kept s t ∧
        let v := (lfsrStep q.lfsr).toNat % (total - 1)
        qt t = { q with lfsr := lfsrStep q.lfsr, victim := some (if v < (s.cluster cl).c then v else v + 1) })) ∧
      (q.victim = none → idle (.stealAnswer cl st)) ∧
      (∀ v, q.victim = some v → s.clusterNo (s.cluster cl).grid v = none → Completes (.stealAnswer cl st) s (fun t => Kept s t ∧
        qt t = { q with victim := none, backoff := true })) ∧
      (∀ v c, q.victim = some v → s.clusterNo (s.cluster cl).grid v = some c → c ≠ cl →
        let x := (s.cluster c).stageQ st
        let n := min (if (s.cluster c).place = .resident then min 64 (x.items.length / 2) else 0) ((s.stageOf cl st).depth - q.occ)
        Completes (.stealAnswer cl st) s (fun t => (∀ r, (t.fib r).regs = (s.fib r).regs) ∧ (qt t).victim = none ∧
          (n = 0 → Kept s t ∧ (qt t).backoff = true ∧ (qt t).items = q.items) ∧
          (n ≠ 0 → (qt t).backoff = q.backoff ∧ (qt t).items.take q.items.length = q.items ∧ (qt t).items.length = q.items.length + n ∧
            ((t.cluster c).stageQ st).items = x.items.take (x.items.length - n) ∧
            ((∀ i, s.ringLoc c st i .read = none) → (qt t).items = q.items ++ x.items.drop (x.items.length - n))))) ∧
      (q.backoff = false → idle (.stealRetry cl st)) ∧
      (q.backoff = true → Completes (.stealRetry cl st) s (fun t => Kept s t ∧ qt t = { q with backoff := false }))) ∧
    (∀ g,
      let cl := (s.wg g).cluster
      let free := fun (k : Nat) => k < (s.wg g).nslots ∧ s.slotFree g k = true
      let starved := fun (u : State) (st : Nat) => Tbl.get ((u.cluster cl).stageQ st).starved (s.wg g).rank 0
      let ready := (∃ k, free k) ∧ s.openStages cl ≠ []
      (¬ready → idle (.slotRebalance g)) ∧
      (ready → Completes (.slotRebalance g) s (fun t => Kept s t ∧
        (∀ k, free k → ∃ st, st ∈ s.openStages cl ∧ (t.slot g k).stage = some st) ∧
        (∀ k, ¬free k → (t.slot g k).stage = (s.slot g k).stage) ∧
        (∀ k, free k → (∀ j, j < k → ¬free j) → ∀ st, (s.openStages cl).find? (fun x => decide (4 ≤ starved s x)) = some st →
          (t.slot g k).stage = some st) ∧
        ∀ st, st < (s.grid (s.wg g).grid).stages.length →
          ((∃ k, free k ∧ (t.slot g k).stage = some st) → starved t st = 0) ∧
          ((∀ k, free k → (t.slot g k).stage ≠ some st) → starved t st = starved s st + 1)))) ∧
    (∀ g,
      let x := s.grid g
      let wgs := x.clusters.flatMap (fun c => (s.cluster c).wgs)
      let empty := x.launch.pipe = true ∧
        (∀ c, c ∈ x.clusters → ((s.cluster c).place = .resident ∨ (s.cluster c).place = .stopping) ∧
          ∀ e, e ∈ (s.cluster c).stages → e.2.occ = 0 ∧ e.2.victim = none) ∧
        (∀ o st items, o ∈ s.ops → o.who.wg ∈ wgs → o.kind ≠ .spawn st items) ∧
        (∀ w r, w ∈ wgs → r ∈ s.wgRefs w → (s.fib r).st = .absent) ∧ ∃ w, w ∈ wgs ∧ (s.wg w).live = true
      (¬empty → idle (.pipelineEnd g)) ∧
      (empty → Completes (.pipelineEnd g) s (fun t => (∀ a, t.hbm a = s.hbm a) ∧ ∀ w, w ∈ wgs → (t.wg w).live = false))) ∧
    (∀ cl x y,
      let c := s.cluster cl
      let i := Instr.migration cl x y
      let free := ∀ g, g ∈ c.wgs → (s.wg g).preempt = none
      let chosen := (∃ p, p < 8 ∧ s.victim p = some cl) ∧ (x, y) ∈ s.freeRects cl
      (c.place = .resident → free → chosen → Completes i s (fun t => Kept s t ∧ (t.cluster cl).place = .stopping ∧
        (t.cluster cl).moveTo = some (x, y) ∧ (t.cluster cl).x = c.x ∧ (t.cluster cl).y = c.y)) ∧
      (c.place = .resident → ¬(free ∧ chosen) → idle i) ∧
      (c.place ≠ .resident → c.place ≠ .stopping ∨ c.moveTo ≠ some (x, y) ∨ s.settled cl = false → idle i) ∧
      (c.place = .stopping → c.moveTo = some (x, y) → s.settled cl = true →
        (s.fits [(cl, x, y)] [] = false → Completes i s (fun t => Kept s t ∧ (t.cluster cl).place = .resident ∧
          (t.cluster cl).x = c.x ∧ (t.cluster cl).y = c.y ∧ (t.cluster cl).moveTo = none)) ∧
        (s.fits [(cl, x, y)] [] = true → Completes i s (fun t => Kept s t ∧ (∀ g k n, t.vreg g k n = s.vreg g k n) ∧
          (t.cluster cl).place = .resident ∧ (t.cluster cl).x = x ∧ (t.cluster cl).y = y ∧ (t.cluster cl).moveTo = none ∧
          (∀ g, g ∈ c.wgs → (s.wg g).live = true →
            (t.wg g).cu = (y + (s.wg g).rank / c.cw) * 16 + x + (s.wg g).rank % c.cw ∧ s.lease (s.wg g).cu + 4128 ≤ (t.wg g).leaseWait) ∧
          t.forwards.length = s.forwards.length + (c.wgs.filter (fun g => (s.wg g).live)).length ∧
          ∀ f, f ∈ t.forwards → f ∈ s.forwards ∨ (f.wg ∈ c.wgs ∧ f.cu = (s.wg f.wg).cu ∧ f.expires = s.now + 64000))))) ∧
    (∀ n, Completes (.forwardingExpiry n) s (fun t => Kept s t ∧
      ∀ f, f ∈ t.forwards ↔ f ∈ s.forwards ∧ ¬(f.id = n ∧ f.expires ≤ s.now))) ∧
    (∀ cl level,
      let c := s.cluster cl
      let cs := s.group cl
      let i := Instr.preemption cl level
      let asked := ∃ d g, d ∈ cs ∧ g ∈ (s.cluster d).wgs ∧ (s.wg g).preempt ≠ none
      let told := fun (t : State) (l : Option Nat) => ∀ d g, d ∈ cs → g ∈ (s.cluster d).wgs → (t.wg g).preempt = l
      (c.place = .stopping → c.moveTo = none →
        ((∀ d, d ∈ cs → s.settled d = true) → Completes i s (fun t => (∀ d, d ∈ cs → (t.cluster d).place = .saved) ∧
          ∀ d g, d ∈ cs → g ∈ (s.cluster d).wgs → (s.wg g).live = true → (t.wg g).banks = [])) ∧
        ((∃ d, d ∈ cs ∧ s.settled d = false) → idle i)) ∧
      (c.place ≠ .resident → c.place ≠ .stopping ∨ c.moveTo ≠ none → idle i) ∧
      (c.place = .resident →
        (¬asked → s.chosen cl level = true → s.freeRects cl = [] → Completes i s (fun t => Kept s t ∧ told t (some level))) ∧
        (¬asked → s.chosen cl level = false ∨ s.freeRects cl ≠ [] → idle i) ∧
        (asked → (∃ p, p < 8 ∧ s.chosen cl p = true) → Completes i s (fun t => Kept s t ∧
          ∀ d, d ∈ cs → (t.cluster d).place = .stopping ∧ (t.cluster d).moveTo = none)) ∧
        (asked → (∀ p, p < 8 → s.chosen cl p = false) → Completes i s (fun t => Kept s t ∧ told t none)))) ∧
    (∀ cl x y,
      let c := s.cluster cl
      let room := s.fits [(cl, x, y)] [] = true ∧ notReserved s.reserved (s.levelOf cl) (cusOf x y c.cw c.ch) = true
      let turn := c.place = .saved ∧ (x, y) ∈ rectsOf c.cw c.ch ∧ s.restoreTurn c.grid = true
      (¬(turn ∧ room) → idle (.restore cl x y)) ∧
      (turn → room → s.wholeGrid c.grid = false → Completes (.restore cl x y) s (fun t => (∀ a, t.hbm a = s.hbm a) ∧
        (t.cluster cl).place = .resident ∧ (t.cluster cl).x = x ∧ (t.cluster cl).y = y ∧
        ∀ g, g ∈ c.wgs → (s.wg g).live = true → (t.wg g).cu = (y + (s.wg g).rank / c.cw) * 16 + x + (s.wg g).rank % c.cw ∧
          (t.wg g).preempt = none ∧ (t.wg g).leaseWait = c.saveT + 4128)))

/-- R32, R37, R40, R42, R142, R145, R146, R149, R169, R353: a fibre without its clause takes it from the slot's buffer or has it fetched
and checked, and faults where that fails: at the bad word, at a word that cannot be read, at its header, or back at the branch that named
no header. At a header it waits until its flags are zero; it freezes with a fault that is pending on them, the earliest first; or after
its grace time the lanes that have their data go on and the others become a new fibre. The slot chooses the fibre that has waited longest.
Each of these waits while its condition does not hold.
The model's choice in it: log 20, 22, 27, 28, 59, 151. -/
def Obligations.FibreHardware : Prop :=
  (∀ (s : State) (wg : Nat) (a : DWord) (c : Clause), s.loadClause wg a = .ok c →
    let cnt := c.header.toNat / 2 % 16
    a.toNat % 4 = 0 ∧ c.addr = a ∧ majorW c.header = 0x7F ∧ badWord false 0 c.words = none ∧
    (cnt ≠ 15 → c.words.length = cnt + 1) ∧
    ∀ e, cnt = 15 → c.ext = some e → c.words.length = e.toNat % 32 + 1 ∧ 17 ≤ c.words.length ∧ c.words.length ≤ 24) ∧
  ∀ (s : State) (r : FRef), s.isSaved r.wg = false →
    let f := s.fib r
    let idle := fun (i : Instr) => exec i s = .next s
    let same := fun (t : State) => (∀ a, t.hbm a = s.hbm a) ∧ ∀ q, (t.fib q).regs = (s.fib q).regs
    let alone := fun (t : State) => Still s t ∧ ∀ q, q ≠ r → t.fib q = s.fib q
    (let due := (f.st = .blocked ∨ f.st = .ready) ∧ f.blk = .header ∧ f.clause = none ∧ f.dbg ≠ .halted
     let hit := (s.slot r.wg r.slot).cbuf.find? (fun e =>
       e.asid == (s.ctx (s.wg r.wg).ctx).asid && e.clause.addr == f.pc && !e.dead)
     let has := fun (t : State) (c : Clause) => (t.fib r).clause = some c ∧
       (f.inside = true → (t.fib r).st = .ready ∧ (c.lead ≤ f.lead + f.idx → (t.fib r).idx + c.lead = f.idx + f.lead)) ∧
       (f.inside = false → f.st = .ready → s.waitMet r c = true → (t.fib r).st = .ready) ∧
       (f.inside = false → f.st = .blocked ∨ s.waitMet r c = false → (t.fib r).st = .blocked ∧ (t.fib r).blk = .header)
     let freezes := fun (cause : BitVec 8) (d : Nat) (pc : DWord) =>
       Completes (.clauseFetch r) s (fun t => same t ∧ t.frozenWith r cause d pc)
     (¬due → idle (.clauseFetch r)) ∧
     (∀ e, due → hit = some e → Completes (.clauseFetch r) s (fun t => alone t ∧ has t e.clause)) ∧
     (due → hit = none →
       (s.loadClause r.wg f.pc = .wait → idle (.clauseFetch r)) ∧
       (∀ c, s.loadClause r.wg f.pc = .ok c → Completes (.clauseFetch r) s (fun t => Still s t ∧ has t c ∧
         (∀ q, q ≠ r → t.fib q = s.fib q ∨ (t.fib q).clause = none) ∧
         (∃ e, e ∈ (t.slot r.wg r.slot).cbuf ∧ e.clause = c ∧ e.dead = false) ∧
         ((s.slot r.wg r.slot).cbuf.length ≤ 4 → (∀ e, e ∈ (s.slot r.wg r.slot).cbuf → e.used ≤ s.nextId) → (t.slot r.wg r.slot).cbuf.length ≤ 4))) ∧
       (∀ o d, s.loadClause r.wg f.pc = .bad o d → freezes 0x02 d (f.pc + BitVec.ofNat 64 o)) ∧
       (∀ c d va, s.loadClause r.wg f.pc = .fault c d va → freezes c d va) ∧
       (∀ d a, s.loadClause r.wg f.pc = .far d a → freezes 0x21 d f.pc) ∧
       (s.loadClause r.wg f.pc = .notHeader → f.via = none → freezes 0x03 f.pc.toNat f.pc) ∧
       (∀ v, s.loadClause r.wg f.pc = .notHeader → f.via = some v → Completes (.clauseFetch r) s (fun t =>
         (∀ a, t.hbm a = s.hbm a) ∧ t.frozenWith r 0x03 f.pc.toNat (v.clause.wordAddr v.unit0) ∧ (t.fib r).idx = v.unit0 ∧
         (t.fib r).t = v.t ∧ (t.fib r).s = match v.link with | some e => Tbl.set f.s e.1 e.2 | none => f.s)))) ∧
    (f.clause = none → idle (.headerWaitSatisfied r) ∧ idle (.loadSplit r)) ∧
    (∀ c, f.clause = some c →
      let waits := f.st = .blocked ∧ f.blk = .header ∧ f.dbg ≠ .halted ∧ f.inside = false
      let clear := f.fence = none ∧ f.fences = [] ∧ f.freezesAt c = false ∧
        ∀ n, n < 12 → c.waitMask.getLsbD n = true → s.flagval r.wg r.slot n f.mask = 0
      (waits → clear → Completes (.headerWaitSatisfied r) s (fun t => alone t ∧ t.fib r = { f with st := .ready, blk := .none })) ∧
      (¬(waits ∧ clear) → idle (.headerWaitSatisfied r)) ∧
      (waits → f.freezesAt c = true → f.doomed = false → Completes (.asyncFaultFreeze r) s (fun t => same t ∧
        (t.fib r).st = .frozen ∧ (t.fib r).pend = [] ∧ ∃ e fr, e ∈ f.pend ∧ (t.fib r).fault = some fr ∧
          fr.cause = e.rec'.cause ∧ fr.detail = e.rec'.detail ∧ fr.async = true ∧ fr.pc = f.pc ∧
          (fr.multi = true ↔ 1 < f.pend.length ∨ e.rec'.multi = true) ∧
          ∀ e', e' ∈ f.pend → e.at' * 16 + e.flag.getD 15 ≤ e'.at' * 16 + e'.flag.getD 15)) ∧
      (waits → f.freezesAt c = false → idle (.asyncFaultFreeze r)) ∧
      (f.st = .blocked → f.blk = .ending → f.dbg ≠ .halted → f.doomed = false → f.pend ≠ [] → Completes (.asyncFaultFreeze r) s (fun t =>
        same t ∧ (t.fib r).st = .frozen ∧ ∃ e fr, e ∈ f.pend ∧ (t.fib r).fault = some fr ∧ fr.cause = e.rec'.cause ∧
          fr.async = true ∧ fr.pc = f.unitPc)) ∧
      (f.pend = [] ∨ f.doomed = true ∨ f.dbg = .halted → idle (.asyncFaultFreeze r)) ∧
      (¬waits → idle (.loadSplit r)) ∧
      (waits →
        let counted := fun (o : Op) (n : Nat) => o.counts.any (fun x =>
          x.wg == r.wg && x.slot == r.slot && x.flag == some n && (x.lanes &&& f.mask) != 0)
        let late := fun (n : Nat) => (s.ops.filter (fun o => counted o n)).foldl (fun (m : DWord) o =>
          m ||| maskOf ((o.parts.filter (fun p => p.st != .done)).flatMap (fun p => p.lanes.map (·.1)))) 0
        let splits := fun (n : Nat) => n < 12 ∧ c.waitMask.getLsbD n = true ∧ (∃ o, o ∈ s.ops ∧ o.split = true ∧ counted o n = true) ∧
          (∀ o, o ∈ s.ops → counted o n = true → o.split = true) ∧ f.mask &&& ~~~(late n) ≠ 0 ∧ f.mask &&& ~~~(late n) ≠ f.mask
        let grace := fld f.fsplit 16 16 * 1000 ≤ (s.now - f.came) * s.ctl.aclk
        ((∀ n, ¬splits n) ∨ s.freeRecord r.wg r.slot = none ∨ ¬grace → idle (.loadSplit r)) ∧
        ∀ n k, splits n → (∀ m, m < n → ¬splits m) → s.freeRecord r.wg r.slot = some k → grace →
          Completes (.loadSplit r) s (fun t => (∀ a, t.hbm a = s.hbm a) ∧
            (t.fib r).mask = f.mask &&& ~~~(late n) ∧
            (t.fib { r with idx := k }).mask = f.mask &&& late n ∧ (t.fib { r with idx := k }).st = .blocked ∧
            (t.fib { r with idx := k }).pc = f.pc ∧ (t.fib { r with idx := k }).s = Tbl.set f.s (fld f.fsplit 1 6) 1 ∧
            (t.fib { r with idx := k }).p = f.p ∧
            (f.dbg = .run → t.fib r = { f with mask := f.mask &&& ~~~(late n) } ∧ (t.fib { r with idx := k }).dbg = .run ∧
              ∀ q, q ≠ r → q ≠ { r with idx := k } → t.fib q = s.fib q) ∧
            (f.dbg = .stepClause ∨ f.dbg = .stepUnit → (t.fib { r with idx := k }).dbg = .halted ∧
              ∃ fr, (t.fib { r with idx := k }).fault = some fr ∧ fr.cause = 0x72 ∧ fr.pc = f.pc)))) ∧
    (let cur : FRef := { r with idx := (s.slot r.wg r.slot).cur }
     (∀ q, s.nextFibre r.wg r.slot = some q →
       (s.fib q).st = .ready ∧ (s.fib q).clause ≠ none ∧
       (q ≠ cur → ∀ p, p ∈ s.readyAt r.wg r.slot → p ≠ cur → (s.fib q).since ≤ (s.fib p).since)) ∧
     (s.wgRuns r.wg = false ∨ s.nextFibre r.wg r.slot = none → idle (.fibreSwitch r.wg r.slot)) ∧
     ∀ q, s.wgRuns r.wg = true → s.nextFibre r.wg r.slot = some q → Completes (.fibreSwitch r.wg r.slot) s (fun t => Still s t ∧
       (t.slot r.wg r.slot).cur = q.idx ∧ t.fib q = { s.fib q with inside := true, via := none, yield := false } ∧
       ∀ z, z ≠ q → t.fib z = s.fib z))

-- The control node and the management side ------------------------------------------------------------------------------------

/-- R371-R376, R382-R387: the commands of the control node, on operands that R382 accepts, take effect and are answered, else they are
refused with the status of the first reason that applies and do nothing; a module that is not ready executes none. Memory is read and
written by physical address or in a context, a poisoned line that is read being rewritten first, and a write answered no earlier than its
recorded lease time. A fibre is halted, resumed, stepped, read and written through its record. The MMIO writes reach their registers, and
a second doorbell value waits until the queue has gone on from the first; the oldest reply that waits goes to channel 1 of the link; the
capability list begins with a record in its form; the freeze pin stops the module.
The model's choice in it: log 33, 107, 128, 129, 130, 131, 132, 134, 137, 138. -/
def Obligations.ControlCommands : Prop :=
  ∀ s : State,
    let ok := fun (t : State) (data : List Byte) => t.out = s.out ++ [.reply 0 data]
    let refused := fun (i : Instr) (status : BitVec 8) (data : List Byte) => exec i s = .next (s.reply status data)
    let operand := fun (cid : BitVec 16) => cid ≠ 0 ∧ cid.toNat ≤ 4095
    let open' := fun (i : Instr) => Completes i s (fun t => Kept s t ∧ t.fibres = s.fibres ∧ ∃ st, t.out = s.out ++ [.reply st []])
    (s.portUp = false → ∀ i, i ∈ [Instr.ctxDestroy 1, .ctxKill 1, .queueUnbind 0, .unknownCommand 0, .regRd 0, .regWr 0 0,
        .memRd (.phys 0) 8, .dbgStep { wg := 0, slot := 0, idx := 0 }] → exec i s = .next s) ∧
    (s.portUp = true →
      (∀ (cid asid : BitVec 16) root priv save size share,
        let id : BitVec 12 := cid.setWidth 12
        let c : Ctx := { Ctx.absent with
          live := true, asid := asid, root := root.toNat, priv := priv, save := save, size := size.toNat, share := share }
        let i := Instr.ctxCreate cid asid root priv save size share
        (4095 < cid.toNat → refused i 9 []) ∧
        (cid.toNat ≤ 4095 → cid = 0 ∨ s.hasCtx id = true → refused i 1 []) ∧
        (operand cid → s.hasCtx id = false →
          ((∃ e, e ∈ s.ctxs ∧ e.2.asid = asid) → refused i 2 []) ∧
          ((∀ e, e ∈ s.ctxs → e.2.asid ≠ asid) →
            (s.recordSave c = none → refused i 3 []) ∧
            (∀ r, s.recordSave c = some r → 64 < share.length → refused i 4 []) ∧
            (∀ r, s.recordSave c = some r → share.length ≤ 64 → Completes i s (fun t => Kept s t ∧ ok t [] ∧
              t.ctx id = { c with rec' := r } ∧ t.hasCtx id = true ∧ ∀ j, j ≠ id → t.ctx j = s.ctx j))))) ∧
      (∀ cid : BitVec 16, ¬operand cid → refused (.ctxDestroy cid) 9 [] ∧ refused (.ctxKill cid) 9 [] ∧
        ∀ q dev, refused (.queueBind q cid dev) 9 []) ∧
      (∀ cid : BitVec 16, operand cid →
        let id : BitVec 12 := cid.setWidth 12
        (s.hasCtx id = false → refused (.ctxDestroy cid) 10 [] ∧ refused (.ctxKill cid) 10 [] ∧
          ∀ q dev, q ≤ 63 → refused (.queueBind q cid dev) 10 []) ∧
        (s.hasCtx id = true → s.gridsRemain id = true → refused (.ctxDestroy cid) 5 []) ∧
        (s.hasCtx id = true → s.gridsRemain id = false → Completes (.ctxDestroy cid) s (fun t => Kept s t ∧ ok t [] ∧
          t.hasCtx id = false ∧ (∀ o, o ∈ t.ops → o.ctx ≠ id) ∧ (∀ e, e ∈ t.fe.queues → e.2.ctx ≠ id) ∧
          ∀ q, (s.queue q).ctx = some id → t.queue q = LQueue.unbound)) ∧
        (s.hasCtx id = true → (s.ctx id).live = true → Completes (.ctxKill cid) s (fun t =>
          ((∀ e, e ∈ s.grids → e.2.ctx = id → e.2.done = true) → ∀ a, t.hbm a = s.hbm a) ∧
          (t.ctx id).live = false ∧ (∀ o, o ∈ t.ops → o.ctx ≠ id) ∧
          (∀ q, (s.queue q).ctx = some id → (t.queue q).st = .stopped) ∧
          (∀ r, (s.wg r.wg).ctx = id → t.fib r = Fibre.absent) ∧
          (∃ l w r, t.out = l ++ [.note 0x83 (w :: r), .reply 0 []] ∧ fld w 0 12 = id.toNat ∧ fld w 12 4 = 3 ∧ fld w 18 14 = 0) ∧
          (s.said ≤ s.out.length → ∀ w r, .note 0x81 (w :: r) ∈ t.out.drop s.said → (s.wg w.toNat).ctx ≠ id))) ∧
        (s.hasCtx id = true → (s.ctx id).live = false → Completes (.ctxKill cid) s (fun t => Kept s t ∧ ∃ l, t.out = l ++ [.reply 0 []] ∧
          ∀ m, m ∈ s.out → (∀ w r, m ≠ .note 0x81 (w :: r)) → m ∈ l))) ∧
      (∀ q (cid : BitVec 16) dev, (63 < q → refused (.queueBind q cid dev) 9 []) ∧
        (q ≤ 63 → operand cid → s.hasCtx (cid.setWidth 12) = true →
          ((s.queue q).ctx = none → Completes (.queueBind q cid dev) s (fun t => Kept s t ∧ ok t [] ∧
            t.queue q = { LQueue.unbound with ctx := some (cid.setWidth 12), deviceFed := dev } ∧ ∀ j, j ≠ q → t.queue j = s.queue j)) ∧
          ((s.queue q).ctx ≠ none → refused (.queueBind q cid dev) 6 []))) ∧
      (∀ q, (63 < q → refused (.queueUnbind q) 9 []) ∧
        (q ≤ 63 → (s.queue q).ctx = none → refused (.queueUnbind q) 11 []) ∧
        (q ≤ 63 → (s.queue q).ctx ≠ none → (s.queue q).block ≠ 0 → refused (.queueUnbind q) 7 []) ∧
        (q ≤ 63 → (s.queue q).ctx ≠ none → (s.queue q).block = 0 → Completes (.queueUnbind q) s (fun t => Kept s t ∧ ok t [] ∧
          t.queue q = LQueue.unbound ∧ ∀ j, j ≠ q → t.queue j = s.queue j))) ∧
      (∀ n bs a, (n < 8 ∨ 256 < n → refused (.memRd a n) 9 []) ∧ (bs.length < 8 ∨ 256 < bs.length → refused (.memWr a bs) 9 [])) ∧
      (∀ (cid : BitVec 16) va n bs, 8 ≤ n → n ≤ 256 → bs.length = n →
        let at' : OcAddr := .virt cid va
        let c : BitVec 12 := cid.setWidth 12
        (¬operand cid → refused (.memRd at' n) 9 [] ∧ refused (.memWr at' bs) 9 []) ∧
        (operand cid → s.hasCtx c = false → refused (.memRd at' n) 10 [] ∧ refused (.memWr at' bs) 10 []) ∧
        (operand cid → s.hasCtx c = true → va.toNat % 32 + n ≤ 32 →
          (∀ k d, s.frontPlace c va .read = .error (k, d) → refused (.memRd at' n) 8 [k]) ∧
          (∀ k d, s.frontPlace c va .write = .error (k, d) → refused (.memWr at' bs) 8 [k]) ∧
          (∀ pa, s.frontPlace c va .read = .ok (.mem pa) → inHbm pa = true → pa % 32 + n ≤ 32 → s.poisoned pa = false →
            Completes (.memRd at' n) s (fun t => Kept s t ∧ ok t (s.hbmBytes pa n))) ∧
          (∀ pa, s.frontPlace c va .write = .ok (.mem pa) → pa % 32 + n ≤ 32 → pa + n ≤ hbmEnd → s.memOk →
            Completes (.memWr at' bs) s (fun t => (∀ r, (t.fib r).regs = (s.fib r).regs) ∧
              ∀ a, t.hbm a = if pa ≤ a ∧ a < pa + n then bs.getD (a - pa) 0 else s.hbm a)))) ∧
      (∀ pa n, 8 ≤ n → n ≤ 256 → pa + n ≤ hbmEnd →
        ((∀ a, pa ≤ a → a < pa + n → s.poisoned a = false) → Completes (.memRd (.phys pa) n) s (fun t => Kept s t ∧
          ok t (s.hbmBytes pa n))) ∧
        (s.memOk → pa % 128 + n ≤ 128 → s.poisoned pa = true → Completes (.memRd (.phys pa) n) s (fun t => t.poisoned pa = false ∧
          (∀ a, t.hbm a = if blockOf pa ≤ a ∧ a < blockOf pa + 128 then 0 else s.hbm a) ∧ ok t (List.replicate n 0)))) ∧
      (∀ pa bs, 8 ≤ bs.length → bs.length ≤ 256 → pa + bs.length ≤ hbmEnd → s.memOk →
        Completes (.memWr (.phys pa) bs) s (fun t => (∀ r, (t.fib r).regs = (s.fib r).regs) ∧
          (∀ a, t.hbm a = if pa ≤ a ∧ a < pa + bs.length then bs.getD (a - pa) 0 else s.hbm a) ∧
          (ok t [] ∨ (t.out = s.out ∧ ∃ o, o ∈ t.fe.owed ∧ o.say = some (.reply 0 []) ∧ s.feTime < o.gwct)) ∧
          ∀ a, pa ≤ a → a < pa + bs.length → s.feTime < (s.secMeta a).recExp →
            ∃ o, o ∈ t.fe.owed ∧ o.say = some (.reply 0 []) ∧ (s.secMeta a).recExp ≤ o.gwct)) ∧
      (∀ pa v, Completes (.regRd pa) s (fun t => Kept s t ∧ ok t (leBytes (if inMmio pa then (s.mmioRead pa).toNat else 0) 8)) ∧
        (inMmio pa = false → refused (.regWr pa v) 0 []) ∧
        (inMmio pa = true → Completes (.regWr pa v) s (fun t => Kept s t ∧ ok t [] ∧
          (pa = mmioBase + 0x300000 → 1000 ≤ v.toNat → v.toNat ≤ 10000000 → t.fe.fertimer = v) ∧
          (pa = mmioBase + 0x200000 → t.fe.members = v.setWidth 32)))) ∧
      (∀ code, refused (.unknownCommand code) 0xFF []) ∧
      (∀ r : FRef,
        let f := s.fib r
        let c := s.ctx (s.wg r.wg).ctx
        let unit := c.dbgctl.getLsbD 2
        (f.st = .absent → open' (.dbgHalt r)) ∧
        (f.dbg ≠ .halted → open' (.dbgResume r false) ∧ open' (.dbgStep r) ∧ ∀ off v, open' (.dbgRead r off) ∧ open' (.dbgWrite r off v)) ∧
        (f.st = .blocked → f.dbg ≠ .halted → c.dbgctl.getLsbD 1 = false → Completes (.dbgHalt r) s (fun t => Kept s t ∧
          (t.fib r).dbg = .halted ∧ (∃ n, t.out = s.out ++ [n, .reply 0 []]) ∧ (∃ fr, (t.fib r).fault = some fr ∧
            fr.cause = 0x73 ∧ fr.pc = f.unitPc) ∧ ∀ q, q ≠ r → (t.fib q).dbg = (s.fib q).dbg)) ∧
        (f.st = .ready → f.inside = true → f.dbg ≠ .halted → c.dbgctl.getLsbD 1 = false → unit = false ∨ f.idx ≠ f.unit0 →
          Completes (.dbgHalt r) s (fun t => Kept s t ∧ ok t [] ∧
            (t.fib r).dbg = (if unit then .stopUnit else .stopClause) ∧ ∀ q, q ≠ r → t.fib q = s.fib q)) ∧
        (f.st = .blocked → c.dbgctl.getLsbD 1 = true → Completes (.dbgHalt r) s (fun t => Kept s t ∧
          ∀ q, q ∈ s.wgRefs r.wg → (s.fib q).st = .blocked → (t.fib q).dbg = .halted)) ∧
        (f.dbg = .halted →
          Completes (.dbgResume r false) s (fun t => Kept s t ∧ ok t [] ∧ (t.fib r).dbg = .run ∧ ∀ q, q ≠ r → t.fib q = s.fib q) ∧
          (r ∈ s.wgRefs r.wg → f.st ≠ .absent → Completes (.dbgResume r true) s (fun t => Kept s t ∧ ok t [] ∧ (t.fib r).dbg = .run ∧
            ∀ q fr, q ∈ s.wgRefs r.wg → (s.fib q).st ≠ .absent → (s.fib q).dbg = .halted → (s.fib q).fault = some fr → fr.cause = 0x73 →
              (t.fib q).dbg = .run)) ∧
          Completes (.dbgStep r) s (fun t => Kept s t ∧ ok t [] ∧ (t.fib r).dbg = (if unit then .stepUnit else .stepClause) ∧
            ∀ q, q ≠ r → t.fib q = s.fib q) ∧
          (∀ i, i < 64 → r.slot < 8 → r.idx < 9 → r.slot < (s.wg r.wg).nslots → f.st ≠ .absent →
            Completes (.dbgRead r (recOff r.slot r.idx + 0x40 + 8 * i)) s (fun t => Kept s t ∧
              ok t (leBytes (Tbl.get f.s i 0).toNat 8)) ∧
            (∀ v, s.isSaved r.wg = false → Completes (.dbgWrite r (recOff r.slot r.idx + 0x40 + 8 * i) v) s (fun t =>
              (∀ a, t.hbm a = s.hbm a) ∧ ok t [] ∧ (∀ j, Tbl.get (t.fib r).s j 0 = if j = i then v else Tbl.get f.s j 0) ∧
              ∀ q, q ≠ r → t.fib q = s.fib q)))))) ∧
    (∀ q v, let x := s.queue q
      let first := x.via = none ∧ x.held = [] ∧ (x.st = .parked ∨ x.st = .run)
      (x.ctx = none ∨ x.deviceFed = true → exec (.doorbellWrite q v) s = .next s) ∧
      (x.ctx ≠ none → x.deviceFed = false → Completes (.doorbellWrite q v) s (fun t => Kept s t ∧ (∀ j, j ≠ q → t.queue j = s.queue j) ∧
        (first → (t.queue q).block = v ∧ (t.queue q).st = .run ∧ (t.queue q).bell = x.bell) ∧
        (¬first → (t.queue q).block = x.block ∧ (t.queue q).bell = true)))) ∧
    (∀ pre m suf bs, s.out = pre ++ m :: suf → s.said = pre.length → m.record = some bs →
      (s.portUp = true → s.ocushSend = ({ s with said := pre.length + 1 } : State).enqueueOn 255 1 bs) ∧
      ((s.port 255).st ≠ .up → (s.port 255).st ≠ .retrain → s.ocushSend = s)) ∧
    (let w := s.mmioRead 0xC000000000000
     Config.capId (w.setWidth 16) = true ∧ 1 ≤ fld w 24 8 ∧ (fld w 32 32 = 0 ∨ (fld w 32 32 % 8 = 0 ∧ 8 * fld w 24 8 ≤ fld w 32 32))) ∧
    (∀ v, Completes (.fertimerWrite v) s (fun t => Kept s t ∧
      t.fe.fertimer = if 1000 ≤ v.toNat ∧ v.toNat ≤ 10000000 then v else s.fe.fertimer)) ∧
    (∀ pa v, (inMmio pa = false → exec (.mmioRegisterWrite pa v) s = .next s) ∧
      (inMmio pa = true → Completes (.mmioRegisterWrite pa v) s (fun t => Kept s t ∧
        (pa = mmioBase + 0x200000 → t.fe.members = v.setWidth 32)))) ∧
    (∀ cu n v, Completes (.evownWrite cu n v) s (fun t => Kept s t ∧
      (Tbl.get (t.cu cu).ev n.toNat EvCnt.zero).owner = v &&& 0x1FFF ∧
      ((Tbl.get (s.cu cu).ev n.toNat EvCnt.zero).owner ≠ v &&& 0x1FFF →
        (Tbl.get (t.cu cu).ev n.toNat EvCnt.zero).en = false))) ∧
    (∀ n, (n < 1000 → exec (.freeze n) s = .next s) ∧
      (1000 ≤ n → Completes (.freeze n) s (fun t => Kept s t ∧ t.ctl.phase = .frozen ∧
        (∀ k, (t.port k).st = .down) ∧ ∀ k, (t.localPort k).up = false)))

/-- R28, R29, R351, R367, R388-R394: reset, boot, errors and the scrubber, power and temperature, and the requests of the management
port, each with what it answers when it comes out of order. Boot loads an image that verifies, zeroes memory, and reports ready once the
Ocush link is up. An uncorrectable error poisons its line, kills the context whose tag the line bears with a record that counts the
errors until it is sent, and refuses the read packet that meets it; a poisoned line is rewritten with zeros.
The model's choice in it: log 7, 8, 9, 13, 14, 75, 136, 137, 141, 142, 143, 144. -/
def Obligations.ResetErrorsAndManagement : Prop :=
  ∀ s : State,
    let afresh := fun (t : State) => t.empty ∧ t.ctl.phase = .boot ∧ (∀ a, t.hbm a = s.hbm a) ∧ t.fe = { Fe.reset with devid := s.fe.devid } ∧
      t.ctl.aclk = 940 ∧ t.ctl.capw = 4200 ∧ t.ctl.flash = s.ctl.flash ∧ t.ctl.secCounter = s.ctl.secCounter
    let told := fun (t : State) (bs : List Byte) => t.out = s.out ++ [.mgmt bs]
    let wrong := fun (i : Instr) => Completes i s (fun t => Kept s t ∧ t.ctl = s.ctl ∧ ∃ l, told t (0x13 :: 0x7F :: l))
    let killed := fun (t : State) (u : ErrUnit) (c : BitVec 12) (pa : Nat) => ∃ l w z, t.out = l ++ [.note 0x83 [w, BitVec.ofNat 64 pa, z]] ∧
      fld w 0 12 = c.toNat ∧ fld w 18 14 = 1 ∧ fld w 16 2 = (match u with | .cellar => 0 | .l2 => 1 | .hbm => 2)
    (∀ n, (10000 ≤ n → Completes (.moduleReset n) s afresh) ∧ (n < 10000 → exec (.moduleReset n) s = .next s)) ∧
    Completes .managementReset s afresh ∧
    (s.ctl.phase ≠ .boot → s.ctl.phase ≠ .links → exec .boot s = .next s) ∧
    (s.ctl.phase = .links →
      ((s.port 255).st = .up → Completes .boot s (fun t => Kept s t ∧ t.ctl.phase = .ready ∧ t.out = s.out ++ [.ready])) ∧
      ((s.port 255).st ≠ .up → exec .boot s = .next s)) ∧
    (s.ctl.phase = .boot →
      (∀ i, s.ctl.flash = some i → s.ctl.verifies i = true → Completes .boot s (fun t => t.ctl.phase = .links ∧
        t.ctl.loaded = some i ∧ (∀ a, t.hbm a = 0 ∧ t.guardTag a = 0 ∧ t.poisoned a = false ∧ (inHbm a = true → t.lineOwner a = 0)) ∧
        t.out = s.out)) ∧
      ((∀ i, s.ctl.flash = some i → s.ctl.verifies i = false) → Completes .boot s (fun t => Kept s t ∧ t.ctl.phase = .recovery))) ∧
    (∀ u pa, (∀ p g st l, s.agenda ≠ .packet p g st :: l) →
      let c := s.lineOwner pa
      Completes (.uncorrectableError u pa) s (fun t => t.poisoned pa = true ∧ t.ctl.errors = s.ctl.errors + 1 ∧
        (c = 0 → Kept s t ∧ t.out = s.out) ∧
        (c ≠ 0 → (s.ctx c).live = false → Kept s t ∧ t.out = s.out.take s.said ++ (s.out.drop s.said).map (Msg.moreErrors c)) ∧
        (c ≠ 0 → (s.ctx c).live = true → (t.ctx c).live = false ∧ (∀ o, o ∈ t.ops → o.ctx ≠ c) ∧ killed t u c pa))) ∧
    (∀ c w r, fld w 0 12 = c.toNat → Msg.moreErrors c (.note 0x83 (w :: r)) =
      .note 0x83 ((if fld w 18 14 = 16383 then w else w + 0x40000) :: r)) ∧
    (∀ c m, (∀ w r, m = .note 0x83 (w :: r) → fld w 0 12 ≠ c.toNat) → Msg.moreErrors c m = m) ∧
    (∀ u pa p g st l, s.agenda = .packet p g st :: l → s.lineOwner pa = 0 →
      (let meets := p.dst = s.fe.devid ∧ (p.ty = 1 ∨ p.ty = 6 ∨ p.ty = 7) ∧ blockOf (readAt p) ≤ pa ∧ pa < readAt p + readLen p
       (¬meets → Completes (.uncorrectableError u pa) s (fun t => Kept s t ∧ t.agenda = s.agenda ∧ t.poisoned pa = true)) ∧
       (meets → p.src ≠ s.fe.devid → ({ s with agenda := l } : State).receive p [p.ty.toNat] = .fresh →
         Completes (.uncorrectableError u pa) s (fun t => Kept s t ∧ t.agenda = l ∧ t.poisoned pa = true ∧
           ∀ q k, s.pickRoute (refusalOf p 4) 1 = some (q, false, k) → (s.localPort k).since = none → .frame (uaClass q) q k 3 ∈ t.out)))) ∧
    (∀ pa, let n := if pa < 128 then 0 else s.ctl.corrected
      Completes (.scrub pa .clean) s (fun t => Kept s t ∧ t.ctl.corrected = n ∧ t.out = s.out) ∧
      Completes (.scrub pa .correctable) s (fun t => Kept s t ∧ t.ctl.corrected = n + 1 ∧ t.ctl.fixed = s.ctl.fixed + 1 ∧
        t.out = s.out ++ (if n = 1024 then [.note 0x86 []] else [])) ∧
      ((∀ p g st l, s.agenda ≠ .packet p g st :: l) → ∀ l2, Completes (.scrub pa (.uncorrectable l2)) s (fun t =>
        t.poisoned pa = true ∧ t.ctl.corrected = n ∧ t.ctl.errors = s.ctl.errors + 1 ∧
        (s.lineOwner pa ≠ 0 → (s.ctx (s.lineOwner pa)).live = true → (t.ctx (s.lineOwner pa)).live = false ∧
          killed t (if inHbm pa = true then (if l2 = true then .l2 else .hbm) else .cellar) (s.lineOwner pa) pa)))) ∧
    (∀ pa, s.poisoned pa = false → exec (.scrubPoisonedLine pa) s = .next s) ∧
    (∀ pa, s.poisoned pa = true → pa < hbmEnd → s.memOk → Completes (.scrubPoisonedLine pa) s (fun t =>
      (∀ r, (t.fib r).regs = (s.fib r).regs) ∧ t.poisoned pa = false ∧ t.guardTag pa = 0 ∧ Tbl.has t.owners (blockOf pa) = false ∧
      ∀ a, t.hbm a = if blockOf pa ≤ a ∧ a < blockOf pa + 128 then 0 else s.hbm a)) ∧
    (∀ cu part, (∀ c, s.usesPart cu part c = false) → exec (.engineReset cu part) s = .next s) ∧
    (∀ cu part c x, s.ctxs = [(c, x)] → c ≠ 0 → x.live = true → s.usesPart cu part c = true →
      Completes (.engineReset cu part) s (fun t => (t.ctx c).live = false ∧ (∀ o, o ∈ t.ops → o.ctx ≠ c) ∧
        ∃ l n, t.out = l ++ [.note 0x83 n])) ∧
    (∀ cu, Completes (.droopStretch cu) s (fun t => Kept s t ∧ t.ctl = { s.ctl with droop := true, droopAt := s.now } ∧
      ∀ k, some k ≠ cu → t.cu k = s.cu k)) ∧
    (∀ mw, let p := (mw :: s.ctl.power).take 10
      Completes (.powerControl mw) s (fun t => Kept s t ∧ t.ctl.power = p ∧
        (s.ctl.capw * 1000 * p.length < p.sum → t.ctl.capped = true ∧
          (240 ≤ s.ctl.aclk → t.ctl.aclk = s.ctl.aclk - 5 ∧ t.ctl.spacing = s.ctl.spacing) ∧
          (s.ctl.aclk < 240 → t.ctl.aclk = 235 ∧ t.ctl.short = true ∧ t.ctl.spacing = s.ctl.spacing + 1)) ∧
        (p.sum ≤ s.ctl.capw * 1000 * p.length → t.ctl.short = false ∧
          (s.ctl.spacing = 0 → t.ctl.aclk = min (s.ctl.aclk + 5) (if s.ctl.thermal then 470 else 940)) ∧
          (0 < s.ctl.spacing → t.ctl.spacing = s.ctl.spacing - 1 ∧ t.ctl.aclk = s.ctl.aclk)))) ∧
    (∀ c, Completes (.thermalLimit c) s (fun t => Kept s t ∧ t.ctl.celsius = c ∧ (t.ctl.thermal = true ↔ 110 ≤ c) ∧
      (110 ≤ c → t.ctl.aclk = min s.ctl.aclk 470) ∧ (c < 110 → t.ctl.aclk = s.ctl.aclk) ∧
      (120 ≤ c → t.ctl.phase = .frozen ∧ ∀ k, (t.port k).st = .down) ∧ (c < 120 → t.ctl.phase = s.ctl.phase))) ∧
    (∀ id, Completes (.setDevid id) s (fun t => Kept s t ∧ t.fe = { s.fe with devid := id } ∧ told t [0])) ∧
    (∀ w, Completes (.setPowerCap w) s (fun t => Kept s t ∧ told t [if 1200 ≤ w ∧ w ≤ 4200 then 0 else 1] ∧
      t.ctl = { s.ctl with capw := if 1200 ≤ w ∧ w ≤ 4200 then w else s.ctl.capw })) ∧
    Completes .managementFreeze s (fun t => Kept s t ∧ t.ctl.phase = .frozen ∧ (∀ k, (t.port k).st = .down) ∧
      ∀ k, (t.localPort k).up = false) ∧
    (∀ r, Completes (.pldmMonitoring r) s (fun t => Kept s t ∧ told t (leBytes (match r with
      | .temperature => s.ctl.celsius | .power => s.ctl.power.headD 0 | .clkstat => s.ctl.clkstat.toNat
      | .errors => s.ctl.errors | .corrected => s.ctl.fixed) 8))) ∧
    (∀ i, Completes (.pldmFirmwareUpdate i) s (fun t => Kept s t ∧ t.ctl.flash = some i ∧
      (s.ctl.phase = .recovery → t.ctl.phase = .boot) ∧ (s.ctl.phase ≠ .recovery → t.ctl.phase = s.ctl.phase))) ∧
    Completes .getVersion s (fun t => Kept s t ∧ t.ctl = { s.ctl with spdmVersion := true, spdmCaps := false, spdmAlgs := false }) ∧
    (s.ctl.spdmVersion = true → Completes .getCapabilities s (fun t => Kept s t ∧ t.ctl = { s.ctl with spdmCaps := true })) ∧
    (s.ctl.spdmVersion = false → wrong .getCapabilities) ∧
    (s.ctl.spdmCaps = true → Completes (.negotiateAlgorithms true true) s (fun t => Kept s t ∧ t.ctl = { s.ctl with spdmAlgs := true }) ∧
      ∀ a b, a = false ∨ b = false → wrong (.negotiateAlgorithms a b)) ∧
    (s.ctl.spdmCaps = false → ∀ a b, wrong (.negotiateAlgorithms a b)) ∧
    (s.ctl.spdmAlgs = false → wrong .getDigests ∧ wrong .getMeasurements ∧ ∀ k n, wrong (.getCertificate k) ∧ wrong (.challenge n)) ∧
    (s.ctl.spdmAlgs = true →
      Completes .getDigests s (fun t => Kept s t ∧ ∃ l, told t (l ++ Config.sha384 Config.certificate)) ∧
      Completes (.getCertificate 0) s (fun t => Kept s t ∧ ∃ l, told t (l ++ Config.certificate)) ∧
      (∀ k, k ≠ 0 → wrong (.getCertificate k)) ∧
      (∀ n, Completes (.challenge n) s (fun t => Kept s t ∧ ∃ m, told t (m ++ Config.spdmSign (n ++ m)))) ∧
      Completes .getMeasurements s (fun t => Kept s t ∧ ∃ l h m, h.length = 7 ∧
        told t (l ++ (match s.ctl.loaded with | some i => Config.sha384 i.bytes | none => []) ++ h ++ leBytes s.ctl.secCounter 8 ++ m)))

-- The machine as a whole ------------------------------------------------------------------------------------------------------

/-- R36, R40-R47: decoding the words of a well-formed instruction gives that instruction and its length, whatever words follow.
The model's choice in it: log 18. -/
def Obligations.DecodeOfEncode : Prop :=
  ∀ (i : Instr) (rest : List Word), wellFormed i = true → encode i ≠ [] → decode (encode i ++ rest) = .ok (i, (encode i).length)

/-- R36 and the encoding tables: words written out from the encodings of a few instructions decode to them, and a word of a major
that no row has is refused.
The model's choice in it: log 18. -/
def Obligations.WordsDecode : Prop :=
  decode [0x60182100] = .ok (.sadd 3 1 2, 1) ∧ decode [0x60282122] = .ok (.scmp 5 1 2 2, 1) ∧
  decode [0x700800F0] = .ok (.sli 1 0xF0, 1) ∧ decode [0x76202417] = .ok (.sbfx 4 1 8 11 1, 1) ∧
  decode [0x18194000] = .ok (.pand 3 1 2, 1) ∧ decode [0x19480080] = .ok (.pmovFs 1 1, 1) ∧
  (∀ w rest, w.toNat / 2 ^ 25 = 0x3F → ∃ e, decode (w :: rest) = .error e)

/-- R31, R42, R141: the warp slot whose turn it is runs the instruction that the words at its fibre's place decode to, and a word
that is no instruction raises cause 0x01; a hardware step or command on the agenda runs in a module that admits it.
The model's choice in it: log 1, 2. -/
def Obligations.StepRunsDecodedInstruction : Prop :=
  ∀ (s : State) (l : List Turn),
    (∀ g k c, s.agenda = .fibre g k :: l →
      let s1 : State := { s with agenda := l, actor := { wg := g, slot := k, idx := (s.slot g k).cur } }
      s.isSaved g = false → (s.wg g).live = true → s1.issuing = true → s1.breakpoint = none → s1.me.clause = some c →
      (∀ i n, decode (c.words.drop s1.me.idx) = .ok (i, n) → step s = exec i s1) ∧
      (∀ i w, wellFormed i = true → encode i ≠ [] → c.words.drop s1.me.idx = encode i ++ w → step s = exec i s1) ∧
      (∀ e, decode (c.words.drop s1.me.idx) = .error e → step s = .next (s1.take 0x01 0))) ∧
    (∀ i, s.agenda = .event i :: l → s.admits i = true → step s = exec i { s with agenda := l })

/-- R30, R80, R171, R172, R375: when time passes the master copy of lease time advances by as much, no copy of it goes back, and each stays
within 8 ns behind it; in a frozen module it stands. The context runtime resumes a frozen fibre where its fault record says, resumes it at a
header it names, or ends it; a fibre that is not frozen it leaves alone.
The model's choice in it: log 2, 11, 12. -/
def Obligations.LeaseTimeAndRuntime : Prop :=
  ∀ (s : State) (l : List Turn),
    let s1 : State := { s with agenda := l }
    (∀ n lags, s.agenda = .tick n lags :: l →
      (s.ctl.phase = .frozen → step s = .next s1) ∧
      (s.ctl.phase ≠ .frozen → (∀ k, Tbl.get s.lags k 0 ≤ 8) → ∃ t, step s = .next t ∧ Kept s t ∧ t.now = s.now + n ∧
        ∀ k, s.lease k ≤ t.lease k ∧ t.lease k ≤ t.now ∧ t.now ≤ t.lease k + 8)) ∧
    (∀ r h, s.agenda = .resume r h :: l →
      let f := s.fib r
      (s.ctl.phase ≠ .ready ∨ f.st ≠ .frozen → step s = .next s1) ∧
      (s.ctl.phase = .ready → f.st = .frozen → ∃ t, step s = .next t ∧ (∀ a, t.hbm a = s.hbm a) ∧ (t.fib r).regs = f.regs ∧
        (h = .again → f.inside = true → (t.fib r).st = .ready ∧ (t.fib r).clause = f.clause ∧ (t.fib r).idx = f.idx ∧ (t.fib r).t = f.t) ∧
        (∀ fr, h = .again → f.inside = false → f.fault = some fr → f.doomed = false → f.dbg = .run →
          fr.cause ≠ 0x50 ∨ (∀ fe, f.fence = some fe → fe.pc ≠ fr.pc) →
          (t.fib r).st = .ready ∧ (t.fib r).blk = .header ∧ (t.fib r).pc = fr.pc ∧ (t.fib r).clause = none) ∧
        (∀ pc, h = .goTo pc → pc.toNat % 4 = 0 → f.doomed = false → f.dbg = .run → t.startsAt r pc) ∧
        (∀ pc, h = .goTo pc → pc.toNat % 4 ≠ 0 → t.fib r = f) ∧
        (h = .fin → (t.fib r).st = .blocked ∧ (t.fib r).blk = .ending ∧ (t.fib r).doomed = true)))

/-- R393, R394: HBM, zeroed before the module runs, is held as the list of what differs from zero; every step keeps that list in its
canonical form. The canonical form is the model's choice, not a rule of the spec.
The model's choice in it: log 7. -/
def Obligations.StepKeepsMemoryCanonical : Prop :=
  ∀ s t : State, s.memOk → step s = .next t → t.memOk

/-- R29: no step of the machine stops it; a fault freezes a fibre, ends an operation, kills a context or refuses a command, and the
machine goes on.
The model's choice in it: log 5. -/
def Obligations.StepAlwaysAnswersNext : Prop :=
  ∀ s : State, ∃ t, step s = .next t

/-- R6, R367, R391, R393: after a module reset there is no work, memory is canonical and reads zero, the ports are down, and the
registers with a reset value hold it.
The model's choice in it: log 7, 8, 9. -/
def Obligations.ResetState : Prop :=
  State.reset.empty ∧ State.reset.memOk ∧ (∀ a, State.reset.hbm a = 0 ∧ State.reset.guardTag a = 0) ∧
  State.reset.ctl.phase = .boot ∧ State.reset.ctl.aclk = 940 ∧ State.reset.ctl.capw = 4200 ∧
  State.reset.fe.fertimer = 100000 ∧ State.reset.fe.replays = 0 ∧ State.reset.fe.dead = [] ∧
  (∀ n, (State.reset.port n).st = .down) ∧ (∀ r, State.reset.fib r = Fibre.absent)
end

