-- ==== Sys2Proof/Laws/Exec.lean ====
section
/-!
SUPPORT. The arm of each instruction, so that no proof unfolds the dispatch.
-/
namespace Sys2Proof.Machine
variable (s : State)

theorem exec_bra (o : BitVec 16) : exec (.bra o) s = execBra o s := rfl
theorem exec_braZ (sr : BitVec 6) (o : BitVec 16) : exec (.braZ sr o) s = execBraZ sr o s := rfl
theorem exec_braNz (sr : BitVec 6) (o : BitVec 16) : exec (.braNz sr o) s = execBraNz sr o s := rfl
theorem exec_braLt (sr : BitVec 6) (o : BitVec 16) : exec (.braLt sr o) s = execBraLt sr o s := rfl
theorem exec_braGe (sr : BitVec 6) (o : BitVec 16) : exec (.braGe sr o) s = execBraGe sr o s := rfl
theorem exec_braAll (p : BitVec 3) (o : BitVec 16) : exec (.braAll p o) s = execBraAll p o s := rfl
theorem exec_braAny (p : BitVec 3) (o : BitVec 16) : exec (.braAny p o) s = execBraAny p o s := rfl
theorem exec_brp (n : BitVec 1) (p : BitVec 3) (o : BitVec 16) : exec (.brp n p o) s = execBrp n p o s := rfl
theorem exec_call (l : BitVec 6) (o : BitVec 16) : exec (.call l o) s = execCall l o s := rfl
theorem exec_brx (t : BitVec 6) (o : BitVec 16) : exec (.brx t o) s = execBrx t o s := rfl
theorem exec_ret (r : BitVec 6) : exec (.ret r) s = execRet r s := rfl
theorem exec_jset (j : BitVec 4) : exec (.jset j) s = execJset j s := rfl
theorem exec_join (j : BitVec 4) : exec (.join j) s = execJoin j s := rfl
theorem exec_waitj (j : BitVec 4) : exec (.waitj j) s = execWaitj j s := rfl
theorem exec_fork (d : BitVec 6) (t : BitVec 6) (w : BitVec 6) (p : BitVec 3) : exec (.fork d t w p) s = execFork d t w p s := rfl
theorem exec_fend : exec (.fend) s = execFend s := rfl
theorem exec_fyield : exec (.fyield) s = execFyield s := rfl
theorem exec_fsync (a : BitVec 6) : exec (.fsync a) s = execFsync a s := rfl
theorem exec_fsyncM (a : BitVec 6) : exec (.fsyncM a) s = execFsyncM a s := rfl
theorem exec_fresume (k : BitVec 6) : exec (.fresume k) s = execFresume k s := rfl
theorem exec_fresumePc (k : BitVec 6) (p : BitVec 6) : exec (.fresumePc k p) s = execFresumePc k p s := rfl
theorem exec_fresumeEnd (k : BitVec 6) : exec (.fresumeEnd k) s = execFresumeEnd k s := rfl
theorem exec_fstatMask (d : BitVec 6) (k : BitVec 6) : exec (.fstatMask d k) s = execFstatMask d k s := rfl
theorem exec_fstatPc (d : BitVec 6) (k : BitVec 6) : exec (.fstatPc d k) s = execFstatPc d k s := rfl
theorem exec_fstatInfo (d : BitVec 6) (k : BitVec 6) : exec (.fstatInfo d k) s = execFstatInfo d k s := rfl
theorem exec_barWg : exec (.barWg) s = execBarWg s := rfl
theorem exec_barCa : exec (.barCa) s = execBarCa s := rfl
theorem exec_barCw : exec (.barCw) s = execBarCw s := rfl
theorem exec_barGrid : exec (.barGrid) s = execBarGrid s := rfl
theorem exec_waitf (m : BitVec 12) : exec (.waitf m) s = execWaitf m s := rfl
theorem exec_setf (m : BitVec 12) : exec (.setf m) s = execSetf m s := rfl
theorem exec_clrf (m : BitVec 12) : exec (.clrf m) s = execClrf m s := rfl
theorem exec_trap (c : BitVec 16) : exec (.trap c) s = execTrap c s := rfl
theorem exec_brk (c : BitVec 16) : exec (.brk c) s = execBrk c s := rfl
theorem exec_sysr (sr : BitVec 6) (r : BitVec 16) : exec (.sysr sr r) s = execSysr sr r s := rfl
theorem exec_sysw (sr : BitVec 6) (r : BitVec 16) : exec (.sysw sr r) s = execSysw sr r s := rfl
theorem exec_icinv (a : BitVec 6) (b : BitVec 6) : exec (.icinv a b) s = execIcinv a b s := rfl
theorem exec_icinvD (a : BitVec 6) (b : BitVec 6) : exec (.icinvD a b) s = execIcinvD a b s := rfl
theorem exec_isync : exec (.isync) s = execIsync s := rfl
theorem exec_pand (d : BitVec 3) (a : BitVec 3) (b : BitVec 3) : exec (.pand d a b) s = execPand d a b s := rfl
theorem exec_por (d : BitVec 3) (a : BitVec 3) (b : BitVec 3) : exec (.por d a b) s = execPor d a b s := rfl
theorem exec_pxor (d : BitVec 3) (a : BitVec 3) (b : BitVec 3) : exec (.pxor d a b) s = execPxor d a b s := rfl
theorem exec_pnot (d : BitVec 3) (a : BitVec 3) : exec (.pnot d a) s = execPnot d a s := rfl
theorem exec_pmov (d : BitVec 3) (a : BitVec 3) : exec (.pmov d a) s = execPmov d a s := rfl
theorem exec_pmovFs (d : BitVec 3) (sr : BitVec 6) : exec (.pmovFs d sr) s = execPmovFs d sr s := rfl
theorem exec_pmovTs (a : BitVec 3) (sr : BitVec 6) : exec (.pmovTs a sr) s = execPmovTs a sr s := rfl
theorem exec_nop : exec (.nop) s = execNop s := rfl
theorem exec_exit : exec (.exit) s = execExit s := rfl
theorem exec_vadd (d : BitVec 7) (a : BitVec 7) (x : BitVec 2) (b : BitVec 7) (y : BitVec 2) : exec (.vadd d a x b y) s = execVadd d a x b y s := rfl
theorem exec_vsub (d : BitVec 7) (a : BitVec 7) (x : BitVec 2) (b : BitVec 7) (y : BitVec 2) : exec (.vsub d a x b y) s = execVsub d a x b y s := rfl
theorem exec_vmul (d : BitVec 7) (a : BitVec 7) (x : BitVec 2) (b : BitVec 7) (y : BitVec 2) : exec (.vmul d a x b y) s = execVmul d a x b y s := rfl
theorem exec_vmulh (d : BitVec 7) (a : BitVec 7) (x : BitVec 2) (b : BitVec 7) (y : BitVec 2) : exec (.vmulh d a x b y) s = execVmulh d a x b y s := rfl
theorem exec_vfma (d : BitVec 7) (a : BitVec 7) (x : BitVec 2) (b : BitVec 7) (y : BitVec 2) : exec (.vfma d a x b y) s = execVfma d a x b y s := rfl
theorem exec_vfms (d : BitVec 7) (a : BitVec 7) (x : BitVec 2) (b : BitVec 7) (y : BitVec 2) : exec (.vfms d a x b y) s = execVfms d a x b y s := rfl
theorem exec_vmadi (d : BitVec 7) (a : BitVec 7) (x : BitVec 2) (b : BitVec 7) (y : BitVec 2) : exec (.vmadi d a x b y) s = execVmadi d a x b y s := rfl
theorem exec_vmin (d : BitVec 7) (a : BitVec 7) (x : BitVec 2) (b : BitVec 7) (y : BitVec 2) : exec (.vmin d a x b y) s = execVmin d a x b y s := rfl
theorem exec_vmax (d : BitVec 7) (a : BitVec 7) (x : BitVec 2) (b : BitVec 7) (y : BitVec 2) : exec (.vmax d a x b y) s = execVmax d a x b y s := rfl
theorem exec_vand (d : BitVec 7) (a : BitVec 7) (x : BitVec 2) (b : BitVec 7) (y : BitVec 2) : exec (.vand d a x b y) s = execVand d a x b y s := rfl
theorem exec_vor (d : BitVec 7) (a : BitVec 7) (x : BitVec 2) (b : BitVec 7) (y : BitVec 2) : exec (.vor d a x b y) s = execVor d a x b y s := rfl
theorem exec_vxor (d : BitVec 7) (a : BitVec 7) (x : BitVec 2) (b : BitVec 7) (y : BitVec 2) : exec (.vxor d a x b y) s = execVxor d a x b y s := rfl
theorem exec_vshl (d : BitVec 7) (a : BitVec 7) (x : BitVec 2) (b : BitVec 7) (y : BitVec 2) : exec (.vshl d a x b y) s = execVshl d a x b y s := rfl
theorem exec_vshr (d : BitVec 7) (a : BitVec 7) (x : BitVec 2) (b : BitVec 7) (y : BitVec 2) : exec (.vshr d a x b y) s = execVshr d a x b y s := rfl
theorem exec_vsra (d : BitVec 7) (a : BitVec 7) (x : BitVec 2) (b : BitVec 7) (y : BitVec 2) : exec (.vsra d a x b y) s = execVsra d a x b y s := rfl
theorem exec_vscale (d : BitVec 7) (a : BitVec 7) (x : BitVec 2) (b : BitVec 7) (y : BitVec 2) : exec (.vscale d a x b y) s = execVscale d a x b y s := rfl
theorem exec_vdot4 (d : BitVec 7) (a : BitVec 7) (x : BitVec 2) (b : BitVec 7) (y : BitVec 2) : exec (.vdot4 d a x b y) s = execVdot4 d a x b y s := rfl
theorem exec_vpack (d : BitVec 7) (a : BitVec 7) (x : BitVec 2) (b : BitVec 7) (y : BitVec 2) : exec (.vpack d a x b y) s = execVpack d a x b y s := rfl
theorem exec_vperm (d : BitVec 7) (a : BitVec 7) (x : BitVec 2) (b : BitVec 7) (y : BitVec 2) : exec (.vperm d a x b y) s = execVperm d a x b y s := rfl
theorem exec_vcmp (p : BitVec 3) (c : BitVec 3) (a : BitVec 7) (x : BitVec 2) (b : BitVec 7) (y : BitVec 2) : exec (.vcmp p c a x b y) s = execVcmp p c a x b y s := rfl
theorem exec_vsel (d : BitVec 7) (a : BitVec 7) (x : BitVec 2) (p : BitVec 3) (n : BitVec 1) : exec (.vsel d a x p n) s = execVsel d a x p n s := rfl
theorem exec_vmovi (d : BitVec 7) (t : BitVec 4) (i : BitVec 9) : exec (.vmovi d t i) s = execVmovi d t i s := rfl
theorem exec_vmov (d : BitVec 7) (a : BitVec 7) (x : BitVec 2) : exec (.vmov d a x) s = execVmov d a x s := rfl
theorem exec_vabs (d : BitVec 7) (a : BitVec 7) (x : BitVec 2) : exec (.vabs d a x) s = execVabs d a x s := rfl
theorem exec_vneg (d : BitVec 7) (a : BitVec 7) (x : BitVec 2) : exec (.vneg d a x) s = execVneg d a x s := rfl
theorem exec_vnot (d : BitVec 7) (a : BitVec 7) (x : BitVec 2) : exec (.vnot d a x) s = execVnot d a x s := rfl
theorem exec_vclass (d : BitVec 7) (a : BitVec 7) (x : BitVec 2) : exec (.vclass d a x) s = execVclass d a x s := rfl
theorem exec_vclz (d : BitVec 7) (a : BitVec 7) (x : BitVec 2) : exec (.vclz d a x) s = execVclz d a x s := rfl
theorem exec_vffs (d : BitVec 7) (a : BitVec 7) (x : BitVec 2) : exec (.vffs d a x) s = execVffs d a x s := rfl
theorem exec_vpopc (d : BitVec 7) (a : BitVec 7) (x : BitVec 2) : exec (.vpopc d a x) s = execVpopc d a x s := rfl
theorem exec_vbrev (d : BitVec 7) (a : BitVec 7) (x : BitVec 2) : exec (.vbrev d a x) s = execVbrev d a x s := rfl
theorem exec_vtag (d : BitVec 7) (a : BitVec 7) : exec (.vtag d a) s = execVtag d a s := rfl
theorem exec_vlaneid (d : BitVec 7) : exec (.vlaneid d) s = execVlaneid d s := rfl
theorem exec_vexp2 (d : BitVec 7) (a : BitVec 7) (x : BitVec 2) : exec (.vexp2 d a x) s = execVexp2 d a x s := rfl
theorem exec_vlog2 (d : BitVec 7) (a : BitVec 7) (x : BitVec 2) : exec (.vlog2 d a x) s = execVlog2 d a x s := rfl
theorem exec_vrcp (d : BitVec 7) (a : BitVec 7) (x : BitVec 2) : exec (.vrcp d a x) s = execVrcp d a x s := rfl
theorem exec_vrsq (d : BitVec 7) (a : BitVec 7) (x : BitVec 2) : exec (.vrsq d a x) s = execVrsq d a x s := rfl
theorem exec_vsin (d : BitVec 7) (a : BitVec 7) (x : BitVec 2) : exec (.vsin d a x) s = execVsin d a x s := rfl
theorem exec_vcos (d : BitVec 7) (a : BitVec 7) (x : BitVec 2) : exec (.vcos d a x) s = execVcos d a x s := rfl
theorem exec_vunpk (d : BitVec 7) (a : BitVec 7) (x : BitVec 2) (e : BitVec 4) : exec (.vunpk d a x e) s = execVunpk d a x e s := rfl
theorem exec_vcvt (d : BitVec 7) (a : BitVec 7) (x : BitVec 2) (t : BitVec 4) : exec (.vcvt d a x t) s = execVcvt d a x t s := rfl
theorem exec_vretag (d : BitVec 7) (a : BitVec 7) (x : BitVec 2) (t : BitVec 4) : exec (.vretag d a x t) s = execVretag d a x t s := rfl
theorem exec_vreduce (a : BitVec 7) (x : BitVec 2) (sr : BitVec 6) (o : BitVec 3) : exec (.vreduce a x sr o) s = execVreduce a x sr o s := rfl
theorem exec_vscan (d : BitVec 7) (a : BitVec 7) (x : BitVec 2) (sr : BitVec 6) (o : BitVec 3) : exec (.vscan d a x sr o) s = execVscan d a x sr o s := rfl
theorem exec_route (q : BitVec 2) (k : BitVec 3) (p : BitVec 6) : exec (.route q k p) s = execRoute q k p s := rfl
theorem exec_routeS (q : BitVec 2) (k : BitVec 3) (sr : BitVec 6) : exec (.routeS q k sr) s = execRouteS q k sr s := rfl
theorem exec_ptld (t : BitVec 4) (a : BitVec 7) (x : BitVec 2) : exec (.ptld t a x) s = execPtld t a x s := rfl
theorem exec_vballot (sr : BitVec 6) (p : BitVec 3) : exec (.vballot sr p) s = execVballot sr p s := rfl
theorem exec_vvoteAny (sr : BitVec 6) (d : BitVec 3) (p : BitVec 3) : exec (.vvoteAny sr d p) s = execVvoteAny sr d p s := rfl
theorem exec_vvoteAll (sr : BitVec 6) (d : BitVec 3) (p : BitVec 3) : exec (.vvoteAll sr d p) s = execVvoteAll sr d p s := rfl
theorem exec_vvoteEq (sr : BitVec 6) (d : BitVec 3) (p : BitVec 3) : exec (.vvoteEq sr d p) s = execVvoteEq sr d p s := rfl
theorem exec_sadd (d : BitVec 6) (a : BitVec 6) (b : BitVec 6) : exec (.sadd d a b) s = execSadd d a b s := rfl
theorem exec_ssub (d : BitVec 6) (a : BitVec 6) (b : BitVec 6) : exec (.ssub d a b) s = execSsub d a b s := rfl
theorem exec_smul (d : BitVec 6) (a : BitVec 6) (b : BitVec 6) : exec (.smul d a b) s = execSmul d a b s := rfl
theorem exec_smulh (d : BitVec 6) (a : BitVec 6) (b : BitVec 6) : exec (.smulh d a b) s = execSmulh d a b s := rfl
theorem exec_smulhU (d : BitVec 6) (a : BitVec 6) (b : BitVec 6) : exec (.smulhU d a b) s = execSmulhU d a b s := rfl
theorem exec_sdiv (d : BitVec 6) (a : BitVec 6) (b : BitVec 6) : exec (.sdiv d a b) s = execSdiv d a b s := rfl
theorem exec_sdivU (d : BitVec 6) (a : BitVec 6) (b : BitVec 6) : exec (.sdivU d a b) s = execSdivU d a b s := rfl
theorem exec_srem (d : BitVec 6) (a : BitVec 6) (b : BitVec 6) : exec (.srem d a b) s = execSrem d a b s := rfl
theorem exec_sremU (d : BitVec 6) (a : BitVec 6) (b : BitVec 6) : exec (.sremU d a b) s = execSremU d a b s := rfl
theorem exec_sand (d : BitVec 6) (a : BitVec 6) (b : BitVec 6) : exec (.sand d a b) s = execSand d a b s := rfl
theorem exec_sor (d : BitVec 6) (a : BitVec 6) (b : BitVec 6) : exec (.sor d a b) s = execSor d a b s := rfl
theorem exec_sxor (d : BitVec 6) (a : BitVec 6) (b : BitVec 6) : exec (.sxor d a b) s = execSxor d a b s := rfl
theorem exec_sshl (d : BitVec 6) (a : BitVec 6) (b : BitVec 6) : exec (.sshl d a b) s = execSshl d a b s := rfl
theorem exec_sshr (d : BitVec 6) (a : BitVec 6) (b : BitVec 6) : exec (.sshr d a b) s = execSshr d a b s := rfl
theorem exec_ssra (d : BitVec 6) (a : BitVec 6) (b : BitVec 6) : exec (.ssra d a b) s = execSsra d a b s := rfl
theorem exec_smin (d : BitVec 6) (a : BitVec 6) (b : BitVec 6) : exec (.smin d a b) s = execSmin d a b s := rfl
theorem exec_sminU (d : BitVec 6) (a : BitVec 6) (b : BitVec 6) : exec (.sminU d a b) s = execSminU d a b s := rfl
theorem exec_smax (d : BitVec 6) (a : BitVec 6) (b : BitVec 6) : exec (.smax d a b) s = execSmax d a b s := rfl
theorem exec_smaxU (d : BitVec 6) (a : BitVec 6) (b : BitVec 6) : exec (.smaxU d a b) s = execSmaxU d a b s := rfl
theorem exec_smov (d : BitVec 6) (b : BitVec 6) : exec (.smov d b) s = execSmov d b s := rfl
theorem exec_sclz (d : BitVec 6) (a : BitVec 6) : exec (.sclz d a) s = execSclz d a s := rfl
theorem exec_sffs (d : BitVec 6) (a : BitVec 6) : exec (.sffs d a) s = execSffs d a s := rfl
theorem exec_spopc (d : BitVec 6) (a : BitVec 6) : exec (.spopc d a) s = execSpopc d a s := rfl
theorem exec_ssel (d : BitVec 6) (a : BitVec 6) (b : BitVec 6) : exec (.ssel d a b) s = execSsel d a b s := rfl
theorem exec_scmp (d : BitVec 6) (a : BitVec 6) (b : BitVec 6) (r : BitVec 4) : exec (.scmp d a b r) s = execScmp d a b r s := rfl
theorem exec_saddImm (d : BitVec 6) (a : BitVec 6) (i : BitVec 13) : exec (.saddImm d a i) s = execSaddImm d a i s := rfl
theorem exec_sandImm (d : BitVec 6) (a : BitVec 6) (i : BitVec 13) : exec (.sandImm d a i) s = execSandImm d a i s := rfl
theorem exec_sorImm (d : BitVec 6) (a : BitVec 6) (i : BitVec 13) : exec (.sorImm d a i) s = execSorImm d a i s := rfl
theorem exec_sxorImm (d : BitVec 6) (a : BitVec 6) (i : BitVec 13) : exec (.sxorImm d a i) s = execSxorImm d a i s := rfl
theorem exec_sshlImm (d : BitVec 6) (a : BitVec 6) (n : BitVec 6) : exec (.sshlImm d a n) s = execSshlImm d a n s := rfl
theorem exec_sshrImm (d : BitVec 6) (a : BitVec 6) (n : BitVec 6) : exec (.sshrImm d a n) s = execSshrImm d a n s := rfl
theorem exec_ssraImm (d : BitVec 6) (a : BitVec 6) (n : BitVec 6) : exec (.ssraImm d a n) s = execSsraImm d a n s := rfl
theorem exec_sli (d : BitVec 6) (i : BitVec 13) : exec (.sli d i) s = execSli d i s := rfl
theorem exec_sliHi (d : BitVec 6) : exec (.sliHi d) s = execSliHi d s := rfl
theorem exec_smadd (d : BitVec 6) (a : BitVec 6) (b : BitVec 6) (c : BitVec 6) : exec (.smadd d a b c) s = execSmadd d a b c s := rfl
theorem exec_sbfx (d : BitVec 6) (a : BitVec 6) (p : BitVec 6) (l : BitVec 6) (x : BitVec 1) : exec (.sbfx d a p l x) s = execSbfx d a p l x s := rfl
theorem exec_sbfi (d : BitVec 6) (a : BitVec 6) (p : BitVec 6) (l : BitVec 6) : exec (.sbfi d a p l) s = execSbfi d a p l s := rfl
theorem exec_ld32 (d : BitVec 7) (a : BitVec 7) (b : BitVec 6) (t : BitVec 4) (f : BitVec 1) : exec (.ld32 d a b t f) s = execLd32 d a b t f s := rfl
theorem exec_ld64 (d : BitVec 7) (a : BitVec 7) (b : BitVec 6) (t : BitVec 4) (f : BitVec 1) : exec (.ld64 d a b t f) s = execLd64 d a b t f s := rfl
theorem exec_ld128 (d : BitVec 7) (a : BitVec 7) (b : BitVec 6) (t : BitVec 4) (f : BitVec 1) : exec (.ld128 d a b t f) s = execLd128 d a b t f s := rfl
theorem exec_ldN (d : BitVec 7) (a : BitVec 7) (b : BitVec 6) (n : BitVec 3) (f : BitVec 1) : exec (.ldN d a b n f) s = execLdN d a b n f s := rfl
theorem exec_st32 (d : BitVec 7) (a : BitVec 7) (b : BitVec 6) (f : BitVec 1) : exec (.st32 d a b f) s = execSt32 d a b f s := rfl
theorem exec_st64 (d : BitVec 7) (a : BitVec 7) (b : BitVec 6) (f : BitVec 1) : exec (.st64 d a b f) s = execSt64 d a b f s := rfl
theorem exec_st128 (d : BitVec 7) (a : BitVec 7) (b : BitVec 6) (f : BitVec 1) : exec (.st128 d a b f) s = execSt128 d a b f s := rfl
theorem exec_stN (d : BitVec 7) (a : BitVec 7) (b : BitVec 6) (n : BitVec 1) (f : BitVec 1) : exec (.stN d a b n f) s = execStN d a b n f s := rfl
theorem exec_lds (d : BitVec 6) (b : BitVec 6) (n : BitVec 3) (f : BitVec 1) (i : BitVec 8) : exec (.lds d b n f i) s = execLds d b n f i s := rfl
theorem exec_sts (d : BitVec 6) (b : BitVec 6) (n : BitVec 2) (f : BitVec 1) (i : BitVec 8) : exec (.sts d b n f i) s = execSts d b n f i s := rfl
theorem exec_ldb (d : BitVec 7) (b : BitVec 6) (t : BitVec 4) (f : BitVec 1) : exec (.ldb d b t f) s = execLdb d b t f s := rfl
theorem exec_pref (a : BitVec 7) (b : BitVec 6) (n : BitVec 1) : exec (.pref a b n) s = execPref a b n s := rfl
theorem exec_fence (p : BitVec 8) (sr : BitVec 8) (c : BitVec 3) : exec (.fence p sr c) s = execFence p sr c s := rfl
theorem exec_waitc (a : BitVec 6) (v : BitVec 6) (o : BitVec 4) (z : BitVec 1) (f : BitVec 1) : exec (.waitc a v o z f) s = execWaitc a v o z f s := rfl
theorem exec_decantBind (d : BitVec 6) (a : BitVec 6) (b : BitVec 6) : exec (.decantBind d a b) s = execDecantBind d a b s := rfl
theorem exec_decantUnbind (d : BitVec 6) (a : BitVec 6) : exec (.decantUnbind d a) s = execDecantUnbind d a s := rfl
theorem exec_ldw (d : BitVec 7) (b : BitVec 6) (f : BitVec 1) : exec (.ldw d b f) s = execLdw d b f s := rfl
theorem exec_stw (d : BitVec 7) (b : BitVec 6) (f : BitVec 1) : exec (.stw d b f) s = execStw d b f s := rfl
theorem exec_clst (d : BitVec 7) (a : BitVec 7) (b : BitVec 6) (n : BitVec 2) (f : BitVec 1) : exec (.clst d a b n f) s = execClst d a b n f s := rfl
theorem exec_amo (d : BitVec 7) (a : BitVec 7) (b : BitVec 4) (o : BitVec 3) (r : BitVec 3) (f : BitVec 1) : exec (.amo d a b o r f) s = execAmo d a b o r f s := rfl
theorem exec_amor (d : BitVec 7) (a : BitVec 7) (b : BitVec 4) (o : BitVec 3) (r : BitVec 3) (f : BitVec 1) : exec (.amor d a b o r f) s = execAmor d a b o r f s := rfl
theorem exec_cas (d : BitVec 7) (a : BitVec 7) (b : BitVec 4) (sr : BitVec 3) (r : BitVec 3) (f : BitVec 1) : exec (.cas d a b sr r f) s = execCas d a b sr r f s := rfl
theorem exec_acust (d : BitVec 7) (a : BitVec 7) (b : BitVec 3) (h : BitVec 4) (r : BitVec 2) (f : BitVec 1) : exec (.acust d a b h r f) s = execAcust d a b h r f s := rfl
theorem exec_asinst (h : BitVec 4) (a : BitVec 6) (b : BitVec 6) : exec (.asinst h a b) s = execAsinst h a b s := rfl
theorem exec_tlbinvVaDev (a : BitVec 6) (b : BitVec 6) : exec (.tlbinvVaDev a b) s = execTlbinvVaDev a b s := rfl
theorem exec_tlbinvVaSys (a : BitVec 6) (b : BitVec 6) : exec (.tlbinvVaSys a b) s = execTlbinvVaSys a b s := rfl
theorem exec_tlbinvAsidDev (a : BitVec 6) : exec (.tlbinvAsidDev a) s = execTlbinvAsidDev a s := rfl
theorem exec_tlbinvAsidSys (a : BitVec 6) : exec (.tlbinvAsidSys a) s = execTlbinvAsidSys a s := rfl
theorem exec_tlbinvAllDev : exec (.tlbinvAllDev) s = execTlbinvAllDev s := rfl
theorem exec_tlbinvAllSys : exec (.tlbinvAllSys) s = execTlbinvAllSys s := rfl
theorem exec_tlbsyncDev : exec (.tlbsyncDev) s = execTlbsyncDev s := rfl
theorem exec_tlbsyncSys : exec (.tlbsyncSys) s = execTlbsyncSys s := rfl
theorem exec_atrans (d : BitVec 6) (a : BitVec 6) (n : BitVec 2) : exec (.atrans d a n) s = execAtrans d a n s := rfl
theorem exec_mbind (a : BitVec 6) (g : BitVec 3) (n : BitVec 2) : exec (.mbind a g n) s = execMbind a g n s := rfl
theorem exec_mready : exec (.mready) s = execMready s := rfl
theorem exec_msign (a : BitVec 6) (g : BitVec 3) (f : BitVec 1) : exec (.msign a g f) s = execMsign a g f s := rfl
theorem exec_mma (c : BitVec 7) (a : BitVec 6) (g : BitVec 3) : exec (.mma c a g) s = execMma c a g s := rfl
theorem exec_mtile (c : BitVec 7) (a : BitVec 6) (g : BitVec 3) : exec (.mtile c a g) s = execMtile c a g s := rfl
theorem exec_mepi (c : BitVec 7) (g : BitVec 3) (m : BitVec 3) : exec (.mepi c g m) s = execMepi c g m s := rfl
theorem exec_splitEnc (a : BitVec 6) (b : BitVec 6) (f : BitVec 1) : exec (.splitEnc a b f) s = execSplitEnc a b f s := rfl
theorem exec_splitDec (a : BitVec 6) (b : BitVec 6) (f : BitVec 1) : exec (.splitDec a b f) s = execSplitDec a b f s := rfl
theorem exec_mstat (i : BitVec 3) (d : BitVec 6) (g : BitVec 3) : exec (.mstat i d g) s = execMstat i d g s := rfl
theorem exec_mrfence : exec (.mrfence) s = execMrfence s := rfl
theorem exec_spgRow (a : BitVec 6) (b : BitVec 6) (f : BitVec 1) : exec (.spgRow a b f) s = execSpgRow a b f s := rfl
theorem exec_spgFlush (a : BitVec 6) (b : BitVec 6) (f : BitVec 1) : exec (.spgFlush a b f) s = execSpgFlush a b f s := rfl
theorem exec_rackHint (a : BitVec 6) (b : BitVec 6) : exec (.rackHint a b) s = execRackHint a b s := rfl
theorem exec_rackInv (a : BitVec 6) (b : BitVec 6) : exec (.rackInv a b) s = execRackInv a b s := rfl
theorem exec_cp (l : BitVec 6) (a : BitVec 6) (b : BitVec 6) (f : BitVec 1) : exec (.cp l a b f) s = execCp l a b f s := rfl
theorem exec_cpG (l : BitVec 6) (a : BitVec 6) (b : BitVec 6) (f : BitVec 1) : exec (.cpG l a b f) s = execCpG l a b f s := rfl
theorem exec_cpT (a : BitVec 6) (b : BitVec 6) (f : BitVec 1) : exec (.cpT a b f) s = execCpT a b f s := rfl
theorem exec_cpMc (l : BitVec 6) (a : BitVec 6) (b : BitVec 6) (f : BitVec 1) : exec (.cpMc l a b f) s = execCpMc l a b f s := rfl
theorem exec_cpStat (i : BitVec 2) (d : BitVec 6) : exec (.cpStat i d) s = execCpStat i d s := rfl
theorem exec_put (l : BitVec 6) (a : BitVec 6) (b : BitVec 6) (f : BitVec 1) : exec (.put l a b f) s = execPut l a b f s := rfl
theorem exec_putG (l : BitVec 6) (a : BitVec 6) (b : BitVec 6) (f : BitVec 1) : exec (.putG l a b f) s = execPutG l a b f s := rfl
theorem exec_get (l : BitVec 6) (a : BitVec 6) (b : BitVec 6) (f : BitVec 1) : exec (.get l a b f) s = execGet l a b f s := rfl
theorem exec_getG (l : BitVec 6) (a : BitVec 6) (b : BitVec 6) (f : BitVec 1) : exec (.getG l a b f) s = execGetG l a b f s := rfl
theorem exec_tsend (p : BitVec 6) (a : BitVec 6) (b : BitVec 6) (f : BitVec 1) : exec (.tsend p a b f) s = execTsend p a b f s := rfl
theorem exec_cntRd (d : BitVec 6) (c : BitVec 6) : exec (.cntRd d c) s = execCntRd d c s := rfl
theorem exec_cntSet (l : BitVec 6) (a : BitVec 6) (c : BitVec 6) : exec (.cntSet l a c) s = execCntSet l a c s := rfl
theorem exec_cntAdd (v : BitVec 6) (c : BitVec 6) : exec (.cntAdd v c) s = execCntAdd v c s := rfl
theorem exec_cntwait (v : BitVec 6) (c : BitVec 6) (f : BitVec 1) : exec (.cntwait v c f) s = execCntwait v c f s := rfl
theorem exec_qpost (q : BitVec 6) (a : BitVec 6) : exec (.qpost q a) s = execQpost q a s := rfl
theorem exec_msend (l : BitVec 6) (t : BitVec 6) (sr : BitVec 6) (f : BitVec 1) : exec (.msend l t sr f) s = execMsend l t sr f s := rfl
theorem exec_qpop (r : BitVec 6) (d : BitVec 6) (q : BitVec 6) : exec (.qpop r d q) s = execQpop r d q s := rfl
theorem exec_peerStat (d : BitVec 6) (i : BitVec 6) : exec (.peerStat d i) s = execPeerStat d i s := rfl
theorem exec_peerClr (i : BitVec 6) : exec (.peerClr i) s = execPeerClr i s := rfl
theorem exec_spawn (t : BitVec 3) (a : BitVec 6) (b : BitVec 6) (f : BitVec 1) : exec (.spawn t a b f) s = execSpawn t a b f s := rfl
theorem exec_spawnv (d : BitVec 7) (t : BitVec 3) (f : BitVec 1) : exec (.spawnv d t f) s = execSpawnv d t f s := rfl
theorem exec_itemdone : exec (.itemdone) s = execItemdone s := rfl
theorem exec_launch (a : BitVec 6) (b : BitVec 6) (f : BitVec 1) : exec (.launch a b f) s = execLaunch a b f s := rfl
theorem exec_preemptPt (n : BitVec 7) (a : BitVec 6) : exec (.preemptPt n a) s = execPreemptPt n a s := rfl
theorem exec_evread (n : BitVec 4) (d : BitVec 6) : exec (.evread n d) s = execEvread n d s := rfl
theorem exec_evctl (n : BitVec 4) (c : BitVec 6) : exec (.evctl n c) s = execEvctl n c s := rfl
theorem exec_tmark (v : BitVec 6) : exec (.tmark v) s = execTmark v s := rfl
theorem exec_mod (m : BitVec 3) (sr : BitVec 2) (c : BitVec 3) (o : BitVec 3) (l : BitVec 3) (t : BitVec 3) : exec (.mod m sr c o l t) s = execMod m sr c o l t s := rfl
theorem exec_limm (imm : Word) : exec (.limm imm) s = execLimm imm s := rfl
theorem exec_clauseFetch (f : FRef) : exec (.clauseFetch f) s = execClauseFetch f s := rfl
theorem exec_fibreSwitch (wg slot : Nat) : exec (.fibreSwitch wg slot) s = execFibreSwitch wg slot s := rfl
theorem exec_headerWaitSatisfied (f : FRef) : exec (.headerWaitSatisfied f) s = execHeaderWaitSatisfied f s := rfl
theorem exec_fibreEndComplete (f : FRef) : exec (.fibreEndComplete f) s = execFibreEndComplete f s := rfl
theorem exec_barrierRelease (k : BarKind) (id : Nat) : exec (.barrierRelease k id) s = execBarrierRelease k id s := rfl
theorem exec_rejoinRelease (wg slot : Nat) (j : BitVec 4) : exec (.rejoinRelease wg slot j) s = execRejoinRelease wg slot j s := rfl
theorem exec_fsyncRelease (wg slot : Nat) (set : BitVec 8) : exec (.fsyncRelease wg slot set) s = execFsyncRelease wg slot set s := rfl
theorem exec_asyncFaultFreeze (f : FRef) : exec (.asyncFaultFreeze f) s = execAsyncFaultFreeze f s := rfl
theorem exec_handlerFibreStart (wg slot : Nat) : exec (.handlerFibreStart wg slot) s = execHandlerFibreStart wg slot s := rfl
theorem exec_loadSplit (f : FRef) : exec (.loadSplit f) s = execLoadSplit f s := rfl
theorem exec_writeThrough (op part : Nat) : exec (.writeThrough op part) s = execWriteThrough op part s := rfl
theorem exec_homeRead (op part : Nat) : exec (.homeRead op part) s = execHomeRead op part s := rfl
theorem exec_sectorFill (op part : Nat) : exec (.sectorFill op part) s = execSectorFill op part s := rfl
theorem exec_gwctReply (op part : Nat) : exec (.gwctReply op part) s = execGwctReply op part s := rfl
theorem exec_monitorArm (op : Nat) : exec (.monitorArm op) s = execMonitorArm op s := rfl
theorem exec_monitorComplete (op : Nat) : exec (.monitorComplete op) s = execMonitorComplete op s := rfl
theorem exec_fenceComplete (f : FRef) : exec (.fenceComplete f) s = execFenceComplete f s := rfl
theorem exec_pageWalk (cu : Nat) (asid : BitVec 16) (page : DWord) : exec (.pageWalk cu asid page) s = execPageWalk cu asid page s := rfl
theorem exec_invalidationApply (inv : Nat) : exec (.invalidationApply inv) s = execInvalidationApply inv s := rfl
theorem exec_atomicServiceSlot (group : Nat) : exec (.atomicServiceSlot group) s = execAtomicServiceSlot group s := rfl
theorem exec_atomicReply (op part : Nat) : exec (.atomicReply op part) s = execAtomicReply op part s := rfl
theorem exec_mxQueueEntry (cu : Nat) : exec (.mxQueueEntry cu) s = execMxQueueEntry cu s := rfl
theorem exec_matrixStep (cu : Nat) : exec (.matrixStep cu) s = execMatrixStep cu s := rfl
theorem exec_mxOperationComplete (cu : Nat) : exec (.mxOperationComplete cu) s = execMxOperationComplete cu s := rfl
theorem exec_gseOperation (cu : Nat) : exec (.gseOperation cu) s = execGseOperation cu s := rfl
theorem exec_copyStart (cu chan : Nat) : exec (.copyStart cu chan) s = execCopyStart cu chan s := rfl
theorem exec_copyComplete (op : Nat) : exec (.copyComplete op) s = execCopyComplete op s := rfl
theorem exec_spawnAppend (op : Nat) : exec (.spawnAppend op) s = execSpawnAppend op s := rfl
theorem exec_launchAppend (op : Nat) : exec (.launchAppend op) s = execLaunchAppend op s := rfl
theorem exec_launchBlockProcess (q : Nat) : exec (.launchBlockProcess q) s = execLaunchBlockProcess q s := rfl
theorem exec_launchTestRetest (q : Nat) : exec (.launchTestRetest q) s = execLaunchTestRetest q s := rfl
theorem exec_placement : exec (.placement) s = execPlacement s := rfl
theorem exec_agePromotion (grid : Nat) : exec (.agePromotion grid) s = execAgePromotion grid s := rfl
theorem exec_gridComplete (grid : Nat) : exec (.gridComplete grid) s = execGridComplete grid s := rfl
theorem exec_stagePacking (wg slot : Nat) : exec (.stagePacking wg slot) s = execStagePacking wg slot s := rfl
theorem exec_packHeadTimeout (cluster stage : Nat) : exec (.packHeadTimeout cluster stage) s = execPackHeadTimeout cluster stage s := rfl
theorem exec_slotRebalance (wg : Nat) : exec (.slotRebalance wg) s = execSlotRebalance wg s := rfl
theorem exec_stealRequest (cluster stage : Nat) : exec (.stealRequest cluster stage) s = execStealRequest cluster stage s := rfl
theorem exec_stealAnswer (cluster stage : Nat) : exec (.stealAnswer cluster stage) s = execStealAnswer cluster stage s := rfl
theorem exec_stealRetry (cluster stage : Nat) : exec (.stealRetry cluster stage) s = execStealRetry cluster stage s := rfl
theorem exec_pipelineEnd (grid : Nat) : exec (.pipelineEnd grid) s = execPipelineEnd grid s := rfl
theorem exec_migration (cluster x y : Nat) : exec (.migration cluster x y) s = execMigration cluster x y s := rfl
theorem exec_forwardingExpiry (fwd : Nat) : exec (.forwardingExpiry fwd) s = execForwardingExpiry fwd s := rfl
theorem exec_preemption (cluster level : Nat) : exec (.preemption cluster level) s = execPreemption cluster level s := rfl
theorem exec_restore (cluster x y : Nat) : exec (.restore cluster x y) s = execRestore cluster x y s := rfl
theorem exec_tsendFire (op : Nat) : exec (.tsendFire op) s = execTsendFire op s := rfl
theorem exec_cntwaitComplete (op : Nat) : exec (.cntwaitComplete op) s = execCntwaitComplete op s := rfl
theorem exec_packetSend (tx : Nat) : exec (.packetSend tx) s = execPacketSend tx s := rfl
theorem exec_packetForward (p : Packet) (arrivedGlobal : Bool) (stage : Nat) : exec (.packetForward p arrivedGlobal stage) s = execPacketForward p arrivedGlobal stage s := rfl
theorem exec_readPacket (p : Packet) : exec (.readPacket p) s = execReadPacket p s := rfl
theorem exec_writePacket (p : Packet) : exec (.writePacket p) s = execWritePacket p s := rfl
theorem exec_atomicPacket (p : Packet) : exec (.atomicPacket p) s = execAtomicPacket p s := rfl
theorem exec_putPacket (p : Packet) : exec (.putPacket p) s = execPutPacket p s := rfl
theorem exec_putgPacket (p : Packet) : exec (.putgPacket p) s = execPutgPacket p s := rfl
theorem exec_getPacket (p : Packet) : exec (.getPacket p) s = execGetPacket p s := rfl
theorem exec_getgPacket (p : Packet) : exec (.getgPacket p) s = execGetgPacket p s := rfl
theorem exec_msgPacket (p : Packet) : exec (.msgPacket p) s = execMsgPacket p s := rfl
theorem exec_ctrlInvalidation (p : Packet) : exec (.ctrlInvalidation p) s = execCtrlInvalidation p s := rfl
theorem exec_ctrlResync (p : Packet) : exec (.ctrlResync p) s = execCtrlResync p s := rfl
theorem exec_rdata (p : Packet) : exec (.rdata p) s = execRdata p s := rfl
theorem exec_ack (p : Packet) : exec (.ack p) s = execAck p s := rfl
theorem exec_aresult (p : Packet) : exec (.aresult p) s = execAresult p s := rfl
theorem exec_getdata (p : Packet) : exec (.getdata p) s = execGetdata p s := rfl
theorem exec_busy (p : Packet) : exec (.busy p) s = execBusy p s := rfl
theorem exec_grant (p : Packet) : exec (.grant p) s = execGrant p s := rfl
theorem exec_refused (p : Packet) : exec (.refused p) s = execRefused p s := rfl
theorem exec_msgBackoffResend (tx : Nat) : exec (.msgBackoffResend tx) s = execMsgBackoffResend tx s := rfl
theorem exec_grantLapse (queue : Nat) : exec (.grantLapse queue) s = execGrantLapse queue s := rfl
theorem exec_feReplayTimer (tx : Nat) : exec (.feReplayTimer tx) s = execFeReplayTimer tx s := rfl
theorem exec_eolDataFlit (port : Nat) (fl : Flit) : exec (.eolDataFlit port fl) s = execEolDataFlit port fl s := rfl
theorem exec_eolNak (port : Nat) (fl : Flit) : exec (.eolNak port fl) s = execEolNak port fl s := rfl
theorem exec_eolReplayTimeout (port : Nat) : exec (.eolReplayTimeout port) s = execEolReplayTimeout port s := rfl
theorem exec_ts1 (port : Nat) (fl : Flit) : exec (.ts1 port fl) s = execTs1 port fl s := rfl
theorem exec_ts1Timer (port : Nat) : exec (.ts1Timer port) s = execTs1Timer port s := rfl
theorem exec_ts2 (port : Nat) (fl : Flit) : exec (.ts2 port fl) s = execTs2 port fl s := rfl
theorem exec_creditInit (port : Nat) (fl : Flit) : exec (.creditInit port fl) s = execCreditInit port fl s := rfl
theorem exec_trainTimeout (port : Nat) : exec (.trainTimeout port) s = execTrainTimeout port s := rfl
theorem exec_fecLockLoss (port : Nat) : exec (.fecLockLoss port) s = execFecLockLoss port s := rfl
theorem exec_localPortRetrain (port : Nat) (ev : UaTrain) : exec (.localPortRetrain port ev) s = execLocalPortRetrain port ev s := rfl
theorem exec_ctxCreate (ctxid : BitVec 16) (asid : BitVec 16) (root : DWord) (priv : Bool) (save size : DWord) (share : List (BitVec 16)) : exec (.ctxCreate ctxid asid root priv save size share) s = execCtxCreate ctxid asid root priv save size share s := rfl
theorem exec_ctxDestroy (ctxid : BitVec 16) : exec (.ctxDestroy ctxid) s = execCtxDestroy ctxid s := rfl
theorem exec_ctxKill (ctxid : BitVec 16) : exec (.ctxKill ctxid) s = execCtxKill ctxid s := rfl
theorem exec_queueBind (q : Nat) (ctxid : BitVec 16) (deviceFed : Bool) : exec (.queueBind q ctxid deviceFed) s = execQueueBind q ctxid deviceFed s := rfl
theorem exec_queueUnbind (q : Nat) : exec (.queueUnbind q) s = execQueueUnbind q s := rfl
theorem exec_memRd (a : OcAddr) (n : Nat) : exec (.memRd a n) s = execMemRd a n s := rfl
theorem exec_memWr (a : OcAddr) (data : List Byte) : exec (.memWr a data) s = execMemWr a data s := rfl
theorem exec_regRd (pa : Nat) : exec (.regRd pa) s = execRegRd pa s := rfl
theorem exec_regWr (pa : Nat) (v : DWord) : exec (.regWr pa v) s = execRegWr pa v s := rfl
theorem exec_dbgHalt (f : FRef) : exec (.dbgHalt f) s = execDbgHalt f s := rfl
theorem exec_dbgResume (f : FRef) (wholeGroup : Bool) : exec (.dbgResume f wholeGroup) s = execDbgResume f wholeGroup s := rfl
theorem exec_dbgStep (f : FRef) : exec (.dbgStep f) s = execDbgStep f s := rfl
theorem exec_dbgRead (f : FRef) (off : Nat) : exec (.dbgRead f off) s = execDbgRead f off s := rfl
theorem exec_dbgWrite (f : FRef) (off : Nat) (v : DWord) : exec (.dbgWrite f off v) s = execDbgWrite f off v s := rfl
theorem exec_unknownCommand (code : BitVec 8) : exec (.unknownCommand code) s = execUnknownCommand code s := rfl
theorem exec_doorbellWrite (q : Nat) (v : DWord) : exec (.doorbellWrite q v) s = execDoorbellWrite q v s := rfl
theorem exec_fertimerWrite (v : DWord) : exec (.fertimerWrite v) s = execFertimerWrite v s := rfl
theorem exec_mmioRegisterWrite (pa : Nat) (v : DWord) : exec (.mmioRegisterWrite pa v) s = execMmioRegisterWrite pa v s := rfl
theorem exec_evownWrite (cu : Nat) (n : BitVec 4) (v : DWord) : exec (.evownWrite cu n v) s = execEvownWrite cu n v s := rfl
theorem exec_freeze (lowNs : Nat) : exec (.freeze lowNs) s = execFreeze lowNs s := rfl
theorem exec_moduleReset (lowNs : Nat) : exec (.moduleReset lowNs) s = execModuleReset lowNs s := rfl
theorem exec_boot : exec (.boot) s = execBoot s := rfl
theorem exec_uncorrectableError (u : ErrUnit) (pa : Nat) : exec (.uncorrectableError u pa) s = execUncorrectableError u pa s := rfl
theorem exec_scrub (pa : Nat) (h : LineHealth) : exec (.scrub pa h) s = execScrub pa h s := rfl
theorem exec_scrubPoisonedLine (pa : Nat) : exec (.scrubPoisonedLine pa) s = execScrubPoisonedLine pa s := rfl
theorem exec_engineReset (cu : Nat) (part : EnginePart) : exec (.engineReset cu part) s = execEngineReset cu part s := rfl
theorem exec_droopStretch (cu : Option Nat) : exec (.droopStretch cu) s = execDroopStretch cu s := rfl
theorem exec_powerControl (milliwatts : Nat) : exec (.powerControl milliwatts) s = execPowerControl milliwatts s := rfl
theorem exec_thermalLimit (celsius : Nat) : exec (.thermalLimit celsius) s = execThermalLimit celsius s := rfl
theorem exec_setDevid (id : BitVec 16) : exec (.setDevid id) s = execSetDevid id s := rfl
theorem exec_setPowerCap (watts : Nat) : exec (.setPowerCap watts) s = execSetPowerCap watts s := rfl
theorem exec_managementFreeze : exec (.managementFreeze) s = execManagementFreeze s := rfl
theorem exec_managementReset : exec (.managementReset) s = execManagementReset s := rfl
theorem exec_pldmMonitoring (r : Reading) : exec (.pldmMonitoring r) s = execPldmMonitoring r s := rfl
theorem exec_pldmFirmwareUpdate (img : Sys2Proof.Image) : exec (.pldmFirmwareUpdate img) s = execPldmFirmwareUpdate img s := rfl
theorem exec_getVersion : exec (.getVersion) s = execGetVersion s := rfl
theorem exec_getCapabilities : exec (.getCapabilities) s = execGetCapabilities s := rfl
theorem exec_negotiateAlgorithms (ecdsaP384 sha384 : Bool) : exec (.negotiateAlgorithms ecdsaP384 sha384) s = execNegotiateAlgorithms ecdsaP384 sha384 s := rfl
theorem exec_getDigests : exec (.getDigests) s = execGetDigests s := rfl
theorem exec_getCertificate (slot : Nat) : exec (.getCertificate slot) s = execGetCertificate slot s := rfl
theorem exec_challenge (nonce : List Byte) : exec (.challenge nonce) s = execChallenge nonce s := rfl
theorem exec_getMeasurements : exec (.getMeasurements) s = execGetMeasurements s := rfl
theorem exec_codeword (port wave : Nat) (msg : Option (BitVec 20 × List Byte)) : exec (.codeword port wave msg) s = execCodeword port wave msg s := rfl
theorem exec_idleFlit (port : Nat) (fl : Flit) : exec (.idleFlit port fl) s = execIdleFlit port fl s := rfl
theorem exec_gwctWaitEnd (op : Nat) : exec (.gwctWaitEnd op) s = execGwctWaitEnd op s := rfl

end Sys2Proof.Machine
end

