-- ==== Sys2Proof/Laws/State.lean ====
section
/-!
SUPPORT. The small lemmas of the state: for each update, the fields it leaves alone, and what it makes of the one it writes.
-/
namespace Sys2Proof.Machine
variable (s : State)

-- setFib
@[simp] theorem State.setFib_now (r : FRef) (f : Fibre) : (s.setFib r f).now = s.now := rfl
@[simp] theorem State.setFib_lags (r : FRef) (f : Fibre) : (s.setFib r f).lags = s.lags := rfl
@[simp] theorem State.setFib_nextId (r : FRef) (f : Fibre) : (s.setFib r f).nextId = s.nextId := rfl
@[simp] theorem State.setFib_freeCtr (r : FRef) (f : Fibre) : (s.setFib r f).freeCtr = s.freeCtr := rfl
@[simp] theorem State.setFib_agenda (r : FRef) (f : Fibre) : (s.setFib r f).agenda = s.agenda := rfl
@[simp] theorem State.setFib_actor (r : FRef) (f : Fibre) : (s.setFib r f).actor = s.actor := rfl
@[simp] theorem State.setFib_rr (r : FRef) (f : Fibre) : (s.setFib r f).rr = s.rr := rfl
@[simp] theorem State.setFib_slots (r : FRef) (f : Fibre) : (s.setFib r f).slots = s.slots := rfl
@[simp] theorem State.setFib_wgs (r : FRef) (f : Fibre) : (s.setFib r f).wgs = s.wgs := rfl
@[simp] theorem State.setFib_clusters (r : FRef) (f : Fibre) : (s.setFib r f).clusters = s.clusters := rfl
@[simp] theorem State.setFib_grids (r : FRef) (f : Fibre) : (s.setFib r f).grids = s.grids := rfl
@[simp] theorem State.setFib_queues (r : FRef) (f : Fibre) : (s.setFib r f).queues = s.queues := rfl
@[simp] theorem State.setFib_ctxs (r : FRef) (f : Fibre) : (s.setFib r f).ctxs = s.ctxs := rfl
@[simp] theorem State.setFib_reserved (r : FRef) (f : Fibre) : (s.setFib r f).reserved = s.reserved := rfl
@[simp] theorem State.setFib_lastPlaced (r : FRef) (f : Fibre) : (s.setFib r f).lastPlaced = s.lastPlaced := rfl
@[simp] theorem State.setFib_lastIssue (r : FRef) (f : Fibre) : (s.setFib r f).lastIssue = s.lastIssue := rfl
@[simp] theorem State.setFib_forwards (r : FRef) (f : Fibre) : (s.setFib r f).forwards = s.forwards := rfl
@[simp] theorem State.setFib_savedRuns (r : FRef) (f : Fibre) : (s.setFib r f).savedRuns = s.savedRuns := rfl
@[simp] theorem State.setFib_ops (r : FRef) (f : Fibre) : (s.setFib r f).ops = s.ops := rfl
@[simp] theorem State.setFib_cus (r : FRef) (f : Fibre) : (s.setFib r f).cus = s.cus := rfl
@[simp] theorem State.setFib_mons (r : FRef) (f : Fibre) : (s.setFib r f).mons = s.mons := rfl
@[simp] theorem State.setFib_ase (r : FRef) (f : Fibre) : (s.setFib r f).ase = s.ase := rfl
@[simp] theorem State.setFib_ring (r : FRef) (f : Fibre) : (s.setFib r f).ring = s.ring := rfl
@[simp] theorem State.setFib_invs (r : FRef) (f : Fibre) : (s.setFib r f).invs = s.invs := rfl
@[simp] theorem State.setFib_mem (r : FRef) (f : Fibre) : (s.setFib r f).mem = s.mem := rfl
@[simp] theorem State.setFib_sects (r : FRef) (f : Fibre) : (s.setFib r f).sects = s.sects := rfl
@[simp] theorem State.setFib_guards (r : FRef) (f : Fibre) : (s.setFib r f).guards = s.guards := rfl
@[simp] theorem State.setFib_owners (r : FRef) (f : Fibre) : (s.setFib r f).owners = s.owners := rfl
@[simp] theorem State.setFib_poison (r : FRef) (f : Fibre) : (s.setFib r f).poison = s.poison := rfl
@[simp] theorem State.setFib_peerL2 (r : FRef) (f : Fibre) : (s.setFib r f).peerL2 = s.peerL2 := rfl
@[simp] theorem State.setFib_slack (r : FRef) (f : Fibre) : (s.setFib r f).slack = s.slack := rfl
@[simp] theorem State.setFib_left (r : FRef) (f : Fibre) : (s.setFib r f).left = s.left := rfl
@[simp] theorem State.setFib_fe (r : FRef) (f : Fibre) : (s.setFib r f).fe = s.fe := rfl
@[simp] theorem State.setFib_locals (r : FRef) (f : Fibre) : (s.setFib r f).locals = s.locals := rfl
@[simp] theorem State.setFib_ports (r : FRef) (f : Fibre) : (s.setFib r f).ports = s.ports := rfl
@[simp] theorem State.setFib_lines (r : FRef) (f : Fibre) : (s.setFib r f).lines = s.lines := rfl
@[simp] theorem State.setFib_ctl (r : FRef) (f : Fibre) : (s.setFib r f).ctl = s.ctl := rfl
@[simp] theorem State.setFib_out (r : FRef) (f : Fibre) : (s.setFib r f).out = s.out := rfl
@[simp] theorem State.setFib_said (r : FRef) (f : Fibre) : (s.setFib r f).said = s.said := rfl

-- setSlot
@[simp] theorem State.setSlot_now (g k : Nat) (t : Slot) : (s.setSlot g k t).now = s.now := rfl
@[simp] theorem State.setSlot_lags (g k : Nat) (t : Slot) : (s.setSlot g k t).lags = s.lags := rfl
@[simp] theorem State.setSlot_nextId (g k : Nat) (t : Slot) : (s.setSlot g k t).nextId = s.nextId := rfl
@[simp] theorem State.setSlot_freeCtr (g k : Nat) (t : Slot) : (s.setSlot g k t).freeCtr = s.freeCtr := rfl
@[simp] theorem State.setSlot_agenda (g k : Nat) (t : Slot) : (s.setSlot g k t).agenda = s.agenda := rfl
@[simp] theorem State.setSlot_actor (g k : Nat) (t : Slot) : (s.setSlot g k t).actor = s.actor := rfl
@[simp] theorem State.setSlot_rr (g k : Nat) (t : Slot) : (s.setSlot g k t).rr = s.rr := rfl
@[simp] theorem State.setSlot_fibres (g k : Nat) (t : Slot) : (s.setSlot g k t).fibres = s.fibres := rfl
@[simp] theorem State.setSlot_wgs (g k : Nat) (t : Slot) : (s.setSlot g k t).wgs = s.wgs := rfl
@[simp] theorem State.setSlot_clusters (g k : Nat) (t : Slot) : (s.setSlot g k t).clusters = s.clusters := rfl
@[simp] theorem State.setSlot_grids (g k : Nat) (t : Slot) : (s.setSlot g k t).grids = s.grids := rfl
@[simp] theorem State.setSlot_queues (g k : Nat) (t : Slot) : (s.setSlot g k t).queues = s.queues := rfl
@[simp] theorem State.setSlot_ctxs (g k : Nat) (t : Slot) : (s.setSlot g k t).ctxs = s.ctxs := rfl
@[simp] theorem State.setSlot_reserved (g k : Nat) (t : Slot) : (s.setSlot g k t).reserved = s.reserved := rfl
@[simp] theorem State.setSlot_lastPlaced (g k : Nat) (t : Slot) : (s.setSlot g k t).lastPlaced = s.lastPlaced := rfl
@[simp] theorem State.setSlot_lastIssue (g k : Nat) (t : Slot) : (s.setSlot g k t).lastIssue = s.lastIssue := rfl
@[simp] theorem State.setSlot_forwards (g k : Nat) (t : Slot) : (s.setSlot g k t).forwards = s.forwards := rfl
@[simp] theorem State.setSlot_savedRuns (g k : Nat) (t : Slot) : (s.setSlot g k t).savedRuns = s.savedRuns := rfl
@[simp] theorem State.setSlot_ops (g k : Nat) (t : Slot) : (s.setSlot g k t).ops = s.ops := rfl
@[simp] theorem State.setSlot_cus (g k : Nat) (t : Slot) : (s.setSlot g k t).cus = s.cus := rfl
@[simp] theorem State.setSlot_mons (g k : Nat) (t : Slot) : (s.setSlot g k t).mons = s.mons := rfl
@[simp] theorem State.setSlot_ase (g k : Nat) (t : Slot) : (s.setSlot g k t).ase = s.ase := rfl
@[simp] theorem State.setSlot_ring (g k : Nat) (t : Slot) : (s.setSlot g k t).ring = s.ring := rfl
@[simp] theorem State.setSlot_invs (g k : Nat) (t : Slot) : (s.setSlot g k t).invs = s.invs := rfl
@[simp] theorem State.setSlot_mem (g k : Nat) (t : Slot) : (s.setSlot g k t).mem = s.mem := rfl
@[simp] theorem State.setSlot_sects (g k : Nat) (t : Slot) : (s.setSlot g k t).sects = s.sects := rfl
@[simp] theorem State.setSlot_guards (g k : Nat) (t : Slot) : (s.setSlot g k t).guards = s.guards := rfl
@[simp] theorem State.setSlot_owners (g k : Nat) (t : Slot) : (s.setSlot g k t).owners = s.owners := rfl
@[simp] theorem State.setSlot_poison (g k : Nat) (t : Slot) : (s.setSlot g k t).poison = s.poison := rfl
@[simp] theorem State.setSlot_peerL2 (g k : Nat) (t : Slot) : (s.setSlot g k t).peerL2 = s.peerL2 := rfl
@[simp] theorem State.setSlot_slack (g k : Nat) (t : Slot) : (s.setSlot g k t).slack = s.slack := rfl
@[simp] theorem State.setSlot_left (g k : Nat) (t : Slot) : (s.setSlot g k t).left = s.left := rfl
@[simp] theorem State.setSlot_fe (g k : Nat) (t : Slot) : (s.setSlot g k t).fe = s.fe := rfl
@[simp] theorem State.setSlot_locals (g k : Nat) (t : Slot) : (s.setSlot g k t).locals = s.locals := rfl
@[simp] theorem State.setSlot_ports (g k : Nat) (t : Slot) : (s.setSlot g k t).ports = s.ports := rfl
@[simp] theorem State.setSlot_lines (g k : Nat) (t : Slot) : (s.setSlot g k t).lines = s.lines := rfl
@[simp] theorem State.setSlot_ctl (g k : Nat) (t : Slot) : (s.setSlot g k t).ctl = s.ctl := rfl
@[simp] theorem State.setSlot_out (g k : Nat) (t : Slot) : (s.setSlot g k t).out = s.out := rfl
@[simp] theorem State.setSlot_said (g k : Nat) (t : Slot) : (s.setSlot g k t).said = s.said := rfl

-- setWg
@[simp] theorem State.setWg_now (n : Nat) (w : Wg) : (s.setWg n w).now = s.now := rfl
@[simp] theorem State.setWg_lags (n : Nat) (w : Wg) : (s.setWg n w).lags = s.lags := rfl
@[simp] theorem State.setWg_nextId (n : Nat) (w : Wg) : (s.setWg n w).nextId = s.nextId := rfl
@[simp] theorem State.setWg_freeCtr (n : Nat) (w : Wg) : (s.setWg n w).freeCtr = s.freeCtr := rfl
@[simp] theorem State.setWg_agenda (n : Nat) (w : Wg) : (s.setWg n w).agenda = s.agenda := rfl
@[simp] theorem State.setWg_actor (n : Nat) (w : Wg) : (s.setWg n w).actor = s.actor := rfl
@[simp] theorem State.setWg_rr (n : Nat) (w : Wg) : (s.setWg n w).rr = s.rr := rfl
@[simp] theorem State.setWg_fibres (n : Nat) (w : Wg) : (s.setWg n w).fibres = s.fibres := rfl
@[simp] theorem State.setWg_slots (n : Nat) (w : Wg) : (s.setWg n w).slots = s.slots := rfl
@[simp] theorem State.setWg_clusters (n : Nat) (w : Wg) : (s.setWg n w).clusters = s.clusters := rfl
@[simp] theorem State.setWg_grids (n : Nat) (w : Wg) : (s.setWg n w).grids = s.grids := rfl
@[simp] theorem State.setWg_queues (n : Nat) (w : Wg) : (s.setWg n w).queues = s.queues := rfl
@[simp] theorem State.setWg_ctxs (n : Nat) (w : Wg) : (s.setWg n w).ctxs = s.ctxs := rfl
@[simp] theorem State.setWg_reserved (n : Nat) (w : Wg) : (s.setWg n w).reserved = s.reserved := rfl
@[simp] theorem State.setWg_lastPlaced (n : Nat) (w : Wg) : (s.setWg n w).lastPlaced = s.lastPlaced := rfl
@[simp] theorem State.setWg_lastIssue (n : Nat) (w : Wg) : (s.setWg n w).lastIssue = s.lastIssue := rfl
@[simp] theorem State.setWg_forwards (n : Nat) (w : Wg) : (s.setWg n w).forwards = s.forwards := rfl
@[simp] theorem State.setWg_savedRuns (n : Nat) (w : Wg) : (s.setWg n w).savedRuns = s.savedRuns := rfl
@[simp] theorem State.setWg_ops (n : Nat) (w : Wg) : (s.setWg n w).ops = s.ops := rfl
@[simp] theorem State.setWg_cus (n : Nat) (w : Wg) : (s.setWg n w).cus = s.cus := rfl
@[simp] theorem State.setWg_mons (n : Nat) (w : Wg) : (s.setWg n w).mons = s.mons := rfl
@[simp] theorem State.setWg_ase (n : Nat) (w : Wg) : (s.setWg n w).ase = s.ase := rfl
@[simp] theorem State.setWg_ring (n : Nat) (w : Wg) : (s.setWg n w).ring = s.ring := rfl
@[simp] theorem State.setWg_invs (n : Nat) (w : Wg) : (s.setWg n w).invs = s.invs := rfl
@[simp] theorem State.setWg_mem (n : Nat) (w : Wg) : (s.setWg n w).mem = s.mem := rfl
@[simp] theorem State.setWg_sects (n : Nat) (w : Wg) : (s.setWg n w).sects = s.sects := rfl
@[simp] theorem State.setWg_guards (n : Nat) (w : Wg) : (s.setWg n w).guards = s.guards := rfl
@[simp] theorem State.setWg_owners (n : Nat) (w : Wg) : (s.setWg n w).owners = s.owners := rfl
@[simp] theorem State.setWg_poison (n : Nat) (w : Wg) : (s.setWg n w).poison = s.poison := rfl
@[simp] theorem State.setWg_peerL2 (n : Nat) (w : Wg) : (s.setWg n w).peerL2 = s.peerL2 := rfl
@[simp] theorem State.setWg_slack (n : Nat) (w : Wg) : (s.setWg n w).slack = s.slack := rfl
@[simp] theorem State.setWg_left (n : Nat) (w : Wg) : (s.setWg n w).left = s.left := rfl
@[simp] theorem State.setWg_fe (n : Nat) (w : Wg) : (s.setWg n w).fe = s.fe := rfl
@[simp] theorem State.setWg_locals (n : Nat) (w : Wg) : (s.setWg n w).locals = s.locals := rfl
@[simp] theorem State.setWg_ports (n : Nat) (w : Wg) : (s.setWg n w).ports = s.ports := rfl
@[simp] theorem State.setWg_lines (n : Nat) (w : Wg) : (s.setWg n w).lines = s.lines := rfl
@[simp] theorem State.setWg_ctl (n : Nat) (w : Wg) : (s.setWg n w).ctl = s.ctl := rfl
@[simp] theorem State.setWg_out (n : Nat) (w : Wg) : (s.setWg n w).out = s.out := rfl
@[simp] theorem State.setWg_said (n : Nat) (w : Wg) : (s.setWg n w).said = s.said := rfl

-- setCluster
@[simp] theorem State.setCluster_now (n : Nat) (c : Cluster) : (s.setCluster n c).now = s.now := rfl
@[simp] theorem State.setCluster_lags (n : Nat) (c : Cluster) : (s.setCluster n c).lags = s.lags := rfl
@[simp] theorem State.setCluster_nextId (n : Nat) (c : Cluster) : (s.setCluster n c).nextId = s.nextId := rfl
@[simp] theorem State.setCluster_freeCtr (n : Nat) (c : Cluster) : (s.setCluster n c).freeCtr = s.freeCtr := rfl
@[simp] theorem State.setCluster_agenda (n : Nat) (c : Cluster) : (s.setCluster n c).agenda = s.agenda := rfl
@[simp] theorem State.setCluster_actor (n : Nat) (c : Cluster) : (s.setCluster n c).actor = s.actor := rfl
@[simp] theorem State.setCluster_rr (n : Nat) (c : Cluster) : (s.setCluster n c).rr = s.rr := rfl
@[simp] theorem State.setCluster_fibres (n : Nat) (c : Cluster) : (s.setCluster n c).fibres = s.fibres := rfl
@[simp] theorem State.setCluster_slots (n : Nat) (c : Cluster) : (s.setCluster n c).slots = s.slots := rfl
@[simp] theorem State.setCluster_wgs (n : Nat) (c : Cluster) : (s.setCluster n c).wgs = s.wgs := rfl
@[simp] theorem State.setCluster_grids (n : Nat) (c : Cluster) : (s.setCluster n c).grids = s.grids := rfl
@[simp] theorem State.setCluster_queues (n : Nat) (c : Cluster) : (s.setCluster n c).queues = s.queues := rfl
@[simp] theorem State.setCluster_ctxs (n : Nat) (c : Cluster) : (s.setCluster n c).ctxs = s.ctxs := rfl
@[simp] theorem State.setCluster_reserved (n : Nat) (c : Cluster) : (s.setCluster n c).reserved = s.reserved := rfl
@[simp] theorem State.setCluster_lastPlaced (n : Nat) (c : Cluster) : (s.setCluster n c).lastPlaced = s.lastPlaced := rfl
@[simp] theorem State.setCluster_lastIssue (n : Nat) (c : Cluster) : (s.setCluster n c).lastIssue = s.lastIssue := rfl
@[simp] theorem State.setCluster_forwards (n : Nat) (c : Cluster) : (s.setCluster n c).forwards = s.forwards := rfl
@[simp] theorem State.setCluster_savedRuns (n : Nat) (c : Cluster) : (s.setCluster n c).savedRuns = s.savedRuns := rfl
@[simp] theorem State.setCluster_ops (n : Nat) (c : Cluster) : (s.setCluster n c).ops = s.ops := rfl
@[simp] theorem State.setCluster_cus (n : Nat) (c : Cluster) : (s.setCluster n c).cus = s.cus := rfl
@[simp] theorem State.setCluster_mons (n : Nat) (c : Cluster) : (s.setCluster n c).mons = s.mons := rfl
@[simp] theorem State.setCluster_ase (n : Nat) (c : Cluster) : (s.setCluster n c).ase = s.ase := rfl
@[simp] theorem State.setCluster_ring (n : Nat) (c : Cluster) : (s.setCluster n c).ring = s.ring := rfl
@[simp] theorem State.setCluster_invs (n : Nat) (c : Cluster) : (s.setCluster n c).invs = s.invs := rfl
@[simp] theorem State.setCluster_mem (n : Nat) (c : Cluster) : (s.setCluster n c).mem = s.mem := rfl
@[simp] theorem State.setCluster_sects (n : Nat) (c : Cluster) : (s.setCluster n c).sects = s.sects := rfl
@[simp] theorem State.setCluster_guards (n : Nat) (c : Cluster) : (s.setCluster n c).guards = s.guards := rfl
@[simp] theorem State.setCluster_owners (n : Nat) (c : Cluster) : (s.setCluster n c).owners = s.owners := rfl
@[simp] theorem State.setCluster_poison (n : Nat) (c : Cluster) : (s.setCluster n c).poison = s.poison := rfl
@[simp] theorem State.setCluster_peerL2 (n : Nat) (c : Cluster) : (s.setCluster n c).peerL2 = s.peerL2 := rfl
@[simp] theorem State.setCluster_slack (n : Nat) (c : Cluster) : (s.setCluster n c).slack = s.slack := rfl
@[simp] theorem State.setCluster_left (n : Nat) (c : Cluster) : (s.setCluster n c).left = s.left := rfl
@[simp] theorem State.setCluster_fe (n : Nat) (c : Cluster) : (s.setCluster n c).fe = s.fe := rfl
@[simp] theorem State.setCluster_locals (n : Nat) (c : Cluster) : (s.setCluster n c).locals = s.locals := rfl
@[simp] theorem State.setCluster_ports (n : Nat) (c : Cluster) : (s.setCluster n c).ports = s.ports := rfl
@[simp] theorem State.setCluster_lines (n : Nat) (c : Cluster) : (s.setCluster n c).lines = s.lines := rfl
@[simp] theorem State.setCluster_ctl (n : Nat) (c : Cluster) : (s.setCluster n c).ctl = s.ctl := rfl
@[simp] theorem State.setCluster_out (n : Nat) (c : Cluster) : (s.setCluster n c).out = s.out := rfl
@[simp] theorem State.setCluster_said (n : Nat) (c : Cluster) : (s.setCluster n c).said = s.said := rfl

-- setGrid
@[simp] theorem State.setGrid_now (n : Nat) (g : Grid) : (s.setGrid n g).now = s.now := rfl
@[simp] theorem State.setGrid_lags (n : Nat) (g : Grid) : (s.setGrid n g).lags = s.lags := rfl
@[simp] theorem State.setGrid_nextId (n : Nat) (g : Grid) : (s.setGrid n g).nextId = s.nextId := rfl
@[simp] theorem State.setGrid_freeCtr (n : Nat) (g : Grid) : (s.setGrid n g).freeCtr = s.freeCtr := rfl
@[simp] theorem State.setGrid_agenda (n : Nat) (g : Grid) : (s.setGrid n g).agenda = s.agenda := rfl
@[simp] theorem State.setGrid_actor (n : Nat) (g : Grid) : (s.setGrid n g).actor = s.actor := rfl
@[simp] theorem State.setGrid_rr (n : Nat) (g : Grid) : (s.setGrid n g).rr = s.rr := rfl
@[simp] theorem State.setGrid_fibres (n : Nat) (g : Grid) : (s.setGrid n g).fibres = s.fibres := rfl
@[simp] theorem State.setGrid_slots (n : Nat) (g : Grid) : (s.setGrid n g).slots = s.slots := rfl
@[simp] theorem State.setGrid_wgs (n : Nat) (g : Grid) : (s.setGrid n g).wgs = s.wgs := rfl
@[simp] theorem State.setGrid_clusters (n : Nat) (g : Grid) : (s.setGrid n g).clusters = s.clusters := rfl
@[simp] theorem State.setGrid_queues (n : Nat) (g : Grid) : (s.setGrid n g).queues = s.queues := rfl
@[simp] theorem State.setGrid_ctxs (n : Nat) (g : Grid) : (s.setGrid n g).ctxs = s.ctxs := rfl
@[simp] theorem State.setGrid_reserved (n : Nat) (g : Grid) : (s.setGrid n g).reserved = s.reserved := rfl
@[simp] theorem State.setGrid_lastPlaced (n : Nat) (g : Grid) : (s.setGrid n g).lastPlaced = s.lastPlaced := rfl
@[simp] theorem State.setGrid_lastIssue (n : Nat) (g : Grid) : (s.setGrid n g).lastIssue = s.lastIssue := rfl
@[simp] theorem State.setGrid_forwards (n : Nat) (g : Grid) : (s.setGrid n g).forwards = s.forwards := rfl
@[simp] theorem State.setGrid_savedRuns (n : Nat) (g : Grid) : (s.setGrid n g).savedRuns = s.savedRuns := rfl
@[simp] theorem State.setGrid_ops (n : Nat) (g : Grid) : (s.setGrid n g).ops = s.ops := rfl
@[simp] theorem State.setGrid_cus (n : Nat) (g : Grid) : (s.setGrid n g).cus = s.cus := rfl
@[simp] theorem State.setGrid_mons (n : Nat) (g : Grid) : (s.setGrid n g).mons = s.mons := rfl
@[simp] theorem State.setGrid_ase (n : Nat) (g : Grid) : (s.setGrid n g).ase = s.ase := rfl
@[simp] theorem State.setGrid_ring (n : Nat) (g : Grid) : (s.setGrid n g).ring = s.ring := rfl
@[simp] theorem State.setGrid_invs (n : Nat) (g : Grid) : (s.setGrid n g).invs = s.invs := rfl
@[simp] theorem State.setGrid_mem (n : Nat) (g : Grid) : (s.setGrid n g).mem = s.mem := rfl
@[simp] theorem State.setGrid_sects (n : Nat) (g : Grid) : (s.setGrid n g).sects = s.sects := rfl
@[simp] theorem State.setGrid_guards (n : Nat) (g : Grid) : (s.setGrid n g).guards = s.guards := rfl
@[simp] theorem State.setGrid_owners (n : Nat) (g : Grid) : (s.setGrid n g).owners = s.owners := rfl
@[simp] theorem State.setGrid_poison (n : Nat) (g : Grid) : (s.setGrid n g).poison = s.poison := rfl
@[simp] theorem State.setGrid_peerL2 (n : Nat) (g : Grid) : (s.setGrid n g).peerL2 = s.peerL2 := rfl
@[simp] theorem State.setGrid_slack (n : Nat) (g : Grid) : (s.setGrid n g).slack = s.slack := rfl
@[simp] theorem State.setGrid_left (n : Nat) (g : Grid) : (s.setGrid n g).left = s.left := rfl
@[simp] theorem State.setGrid_fe (n : Nat) (g : Grid) : (s.setGrid n g).fe = s.fe := rfl
@[simp] theorem State.setGrid_locals (n : Nat) (g : Grid) : (s.setGrid n g).locals = s.locals := rfl
@[simp] theorem State.setGrid_ports (n : Nat) (g : Grid) : (s.setGrid n g).ports = s.ports := rfl
@[simp] theorem State.setGrid_lines (n : Nat) (g : Grid) : (s.setGrid n g).lines = s.lines := rfl
@[simp] theorem State.setGrid_ctl (n : Nat) (g : Grid) : (s.setGrid n g).ctl = s.ctl := rfl
@[simp] theorem State.setGrid_out (n : Nat) (g : Grid) : (s.setGrid n g).out = s.out := rfl
@[simp] theorem State.setGrid_said (n : Nat) (g : Grid) : (s.setGrid n g).said = s.said := rfl

-- setQueue
@[simp] theorem State.setQueue_now (n : Nat) (q : LQueue) : (s.setQueue n q).now = s.now := rfl
@[simp] theorem State.setQueue_lags (n : Nat) (q : LQueue) : (s.setQueue n q).lags = s.lags := rfl
@[simp] theorem State.setQueue_nextId (n : Nat) (q : LQueue) : (s.setQueue n q).nextId = s.nextId := rfl
@[simp] theorem State.setQueue_freeCtr (n : Nat) (q : LQueue) : (s.setQueue n q).freeCtr = s.freeCtr := rfl
@[simp] theorem State.setQueue_agenda (n : Nat) (q : LQueue) : (s.setQueue n q).agenda = s.agenda := rfl
@[simp] theorem State.setQueue_actor (n : Nat) (q : LQueue) : (s.setQueue n q).actor = s.actor := rfl
@[simp] theorem State.setQueue_rr (n : Nat) (q : LQueue) : (s.setQueue n q).rr = s.rr := rfl
@[simp] theorem State.setQueue_fibres (n : Nat) (q : LQueue) : (s.setQueue n q).fibres = s.fibres := rfl
@[simp] theorem State.setQueue_slots (n : Nat) (q : LQueue) : (s.setQueue n q).slots = s.slots := rfl
@[simp] theorem State.setQueue_wgs (n : Nat) (q : LQueue) : (s.setQueue n q).wgs = s.wgs := rfl
@[simp] theorem State.setQueue_clusters (n : Nat) (q : LQueue) : (s.setQueue n q).clusters = s.clusters := rfl
@[simp] theorem State.setQueue_grids (n : Nat) (q : LQueue) : (s.setQueue n q).grids = s.grids := rfl
@[simp] theorem State.setQueue_ctxs (n : Nat) (q : LQueue) : (s.setQueue n q).ctxs = s.ctxs := rfl
@[simp] theorem State.setQueue_reserved (n : Nat) (q : LQueue) : (s.setQueue n q).reserved = s.reserved := rfl
@[simp] theorem State.setQueue_lastPlaced (n : Nat) (q : LQueue) : (s.setQueue n q).lastPlaced = s.lastPlaced := rfl
@[simp] theorem State.setQueue_lastIssue (n : Nat) (q : LQueue) : (s.setQueue n q).lastIssue = s.lastIssue := rfl
@[simp] theorem State.setQueue_forwards (n : Nat) (q : LQueue) : (s.setQueue n q).forwards = s.forwards := rfl
@[simp] theorem State.setQueue_savedRuns (n : Nat) (q : LQueue) : (s.setQueue n q).savedRuns = s.savedRuns := rfl
@[simp] theorem State.setQueue_ops (n : Nat) (q : LQueue) : (s.setQueue n q).ops = s.ops := rfl
@[simp] theorem State.setQueue_cus (n : Nat) (q : LQueue) : (s.setQueue n q).cus = s.cus := rfl
@[simp] theorem State.setQueue_mons (n : Nat) (q : LQueue) : (s.setQueue n q).mons = s.mons := rfl
@[simp] theorem State.setQueue_ase (n : Nat) (q : LQueue) : (s.setQueue n q).ase = s.ase := rfl
@[simp] theorem State.setQueue_ring (n : Nat) (q : LQueue) : (s.setQueue n q).ring = s.ring := rfl
@[simp] theorem State.setQueue_invs (n : Nat) (q : LQueue) : (s.setQueue n q).invs = s.invs := rfl
@[simp] theorem State.setQueue_mem (n : Nat) (q : LQueue) : (s.setQueue n q).mem = s.mem := rfl
@[simp] theorem State.setQueue_sects (n : Nat) (q : LQueue) : (s.setQueue n q).sects = s.sects := rfl
@[simp] theorem State.setQueue_guards (n : Nat) (q : LQueue) : (s.setQueue n q).guards = s.guards := rfl
@[simp] theorem State.setQueue_owners (n : Nat) (q : LQueue) : (s.setQueue n q).owners = s.owners := rfl
@[simp] theorem State.setQueue_poison (n : Nat) (q : LQueue) : (s.setQueue n q).poison = s.poison := rfl
@[simp] theorem State.setQueue_peerL2 (n : Nat) (q : LQueue) : (s.setQueue n q).peerL2 = s.peerL2 := rfl
@[simp] theorem State.setQueue_slack (n : Nat) (q : LQueue) : (s.setQueue n q).slack = s.slack := rfl
@[simp] theorem State.setQueue_left (n : Nat) (q : LQueue) : (s.setQueue n q).left = s.left := rfl
@[simp] theorem State.setQueue_fe (n : Nat) (q : LQueue) : (s.setQueue n q).fe = s.fe := rfl
@[simp] theorem State.setQueue_locals (n : Nat) (q : LQueue) : (s.setQueue n q).locals = s.locals := rfl
@[simp] theorem State.setQueue_ports (n : Nat) (q : LQueue) : (s.setQueue n q).ports = s.ports := rfl
@[simp] theorem State.setQueue_lines (n : Nat) (q : LQueue) : (s.setQueue n q).lines = s.lines := rfl
@[simp] theorem State.setQueue_ctl (n : Nat) (q : LQueue) : (s.setQueue n q).ctl = s.ctl := rfl
@[simp] theorem State.setQueue_out (n : Nat) (q : LQueue) : (s.setQueue n q).out = s.out := rfl
@[simp] theorem State.setQueue_said (n : Nat) (q : LQueue) : (s.setQueue n q).said = s.said := rfl

-- setCtx
@[simp] theorem State.setCtx_now (c : BitVec 12) (x : Ctx) : (s.setCtx c x).now = s.now := rfl
@[simp] theorem State.setCtx_lags (c : BitVec 12) (x : Ctx) : (s.setCtx c x).lags = s.lags := rfl
@[simp] theorem State.setCtx_nextId (c : BitVec 12) (x : Ctx) : (s.setCtx c x).nextId = s.nextId := rfl
@[simp] theorem State.setCtx_freeCtr (c : BitVec 12) (x : Ctx) : (s.setCtx c x).freeCtr = s.freeCtr := rfl
@[simp] theorem State.setCtx_agenda (c : BitVec 12) (x : Ctx) : (s.setCtx c x).agenda = s.agenda := rfl
@[simp] theorem State.setCtx_actor (c : BitVec 12) (x : Ctx) : (s.setCtx c x).actor = s.actor := rfl
@[simp] theorem State.setCtx_rr (c : BitVec 12) (x : Ctx) : (s.setCtx c x).rr = s.rr := rfl
@[simp] theorem State.setCtx_fibres (c : BitVec 12) (x : Ctx) : (s.setCtx c x).fibres = s.fibres := rfl
@[simp] theorem State.setCtx_slots (c : BitVec 12) (x : Ctx) : (s.setCtx c x).slots = s.slots := rfl
@[simp] theorem State.setCtx_wgs (c : BitVec 12) (x : Ctx) : (s.setCtx c x).wgs = s.wgs := rfl
@[simp] theorem State.setCtx_clusters (c : BitVec 12) (x : Ctx) : (s.setCtx c x).clusters = s.clusters := rfl
@[simp] theorem State.setCtx_grids (c : BitVec 12) (x : Ctx) : (s.setCtx c x).grids = s.grids := rfl
@[simp] theorem State.setCtx_queues (c : BitVec 12) (x : Ctx) : (s.setCtx c x).queues = s.queues := rfl
@[simp] theorem State.setCtx_reserved (c : BitVec 12) (x : Ctx) : (s.setCtx c x).reserved = s.reserved := rfl
@[simp] theorem State.setCtx_lastPlaced (c : BitVec 12) (x : Ctx) : (s.setCtx c x).lastPlaced = s.lastPlaced := rfl
@[simp] theorem State.setCtx_lastIssue (c : BitVec 12) (x : Ctx) : (s.setCtx c x).lastIssue = s.lastIssue := rfl
@[simp] theorem State.setCtx_forwards (c : BitVec 12) (x : Ctx) : (s.setCtx c x).forwards = s.forwards := rfl
@[simp] theorem State.setCtx_savedRuns (c : BitVec 12) (x : Ctx) : (s.setCtx c x).savedRuns = s.savedRuns := rfl
@[simp] theorem State.setCtx_ops (c : BitVec 12) (x : Ctx) : (s.setCtx c x).ops = s.ops := rfl
@[simp] theorem State.setCtx_cus (c : BitVec 12) (x : Ctx) : (s.setCtx c x).cus = s.cus := rfl
@[simp] theorem State.setCtx_mons (c : BitVec 12) (x : Ctx) : (s.setCtx c x).mons = s.mons := rfl
@[simp] theorem State.setCtx_ase (c : BitVec 12) (x : Ctx) : (s.setCtx c x).ase = s.ase := rfl
@[simp] theorem State.setCtx_ring (c : BitVec 12) (x : Ctx) : (s.setCtx c x).ring = s.ring := rfl
@[simp] theorem State.setCtx_invs (c : BitVec 12) (x : Ctx) : (s.setCtx c x).invs = s.invs := rfl
@[simp] theorem State.setCtx_mem (c : BitVec 12) (x : Ctx) : (s.setCtx c x).mem = s.mem := rfl
@[simp] theorem State.setCtx_sects (c : BitVec 12) (x : Ctx) : (s.setCtx c x).sects = s.sects := rfl
@[simp] theorem State.setCtx_guards (c : BitVec 12) (x : Ctx) : (s.setCtx c x).guards = s.guards := rfl
@[simp] theorem State.setCtx_owners (c : BitVec 12) (x : Ctx) : (s.setCtx c x).owners = s.owners := rfl
@[simp] theorem State.setCtx_poison (c : BitVec 12) (x : Ctx) : (s.setCtx c x).poison = s.poison := rfl
@[simp] theorem State.setCtx_peerL2 (c : BitVec 12) (x : Ctx) : (s.setCtx c x).peerL2 = s.peerL2 := rfl
@[simp] theorem State.setCtx_slack (c : BitVec 12) (x : Ctx) : (s.setCtx c x).slack = s.slack := rfl
@[simp] theorem State.setCtx_left (c : BitVec 12) (x : Ctx) : (s.setCtx c x).left = s.left := rfl
@[simp] theorem State.setCtx_fe (c : BitVec 12) (x : Ctx) : (s.setCtx c x).fe = s.fe := rfl
@[simp] theorem State.setCtx_locals (c : BitVec 12) (x : Ctx) : (s.setCtx c x).locals = s.locals := rfl
@[simp] theorem State.setCtx_ports (c : BitVec 12) (x : Ctx) : (s.setCtx c x).ports = s.ports := rfl
@[simp] theorem State.setCtx_lines (c : BitVec 12) (x : Ctx) : (s.setCtx c x).lines = s.lines := rfl
@[simp] theorem State.setCtx_ctl (c : BitVec 12) (x : Ctx) : (s.setCtx c x).ctl = s.ctl := rfl
@[simp] theorem State.setCtx_out (c : BitVec 12) (x : Ctx) : (s.setCtx c x).out = s.out := rfl
@[simp] theorem State.setCtx_said (c : BitVec 12) (x : Ctx) : (s.setCtx c x).said = s.said := rfl

-- setCu
@[simp] theorem State.setCu_now (n : Nat) (c : Cu) : (s.setCu n c).now = s.now := rfl
@[simp] theorem State.setCu_lags (n : Nat) (c : Cu) : (s.setCu n c).lags = s.lags := rfl
@[simp] theorem State.setCu_nextId (n : Nat) (c : Cu) : (s.setCu n c).nextId = s.nextId := rfl
@[simp] theorem State.setCu_freeCtr (n : Nat) (c : Cu) : (s.setCu n c).freeCtr = s.freeCtr := rfl
@[simp] theorem State.setCu_agenda (n : Nat) (c : Cu) : (s.setCu n c).agenda = s.agenda := rfl
@[simp] theorem State.setCu_actor (n : Nat) (c : Cu) : (s.setCu n c).actor = s.actor := rfl
@[simp] theorem State.setCu_rr (n : Nat) (c : Cu) : (s.setCu n c).rr = s.rr := rfl
@[simp] theorem State.setCu_fibres (n : Nat) (c : Cu) : (s.setCu n c).fibres = s.fibres := rfl
@[simp] theorem State.setCu_slots (n : Nat) (c : Cu) : (s.setCu n c).slots = s.slots := rfl
@[simp] theorem State.setCu_wgs (n : Nat) (c : Cu) : (s.setCu n c).wgs = s.wgs := rfl
@[simp] theorem State.setCu_clusters (n : Nat) (c : Cu) : (s.setCu n c).clusters = s.clusters := rfl
@[simp] theorem State.setCu_grids (n : Nat) (c : Cu) : (s.setCu n c).grids = s.grids := rfl
@[simp] theorem State.setCu_queues (n : Nat) (c : Cu) : (s.setCu n c).queues = s.queues := rfl
@[simp] theorem State.setCu_ctxs (n : Nat) (c : Cu) : (s.setCu n c).ctxs = s.ctxs := rfl
@[simp] theorem State.setCu_reserved (n : Nat) (c : Cu) : (s.setCu n c).reserved = s.reserved := rfl
@[simp] theorem State.setCu_lastPlaced (n : Nat) (c : Cu) : (s.setCu n c).lastPlaced = s.lastPlaced := rfl
@[simp] theorem State.setCu_lastIssue (n : Nat) (c : Cu) : (s.setCu n c).lastIssue = s.lastIssue := rfl
@[simp] theorem State.setCu_forwards (n : Nat) (c : Cu) : (s.setCu n c).forwards = s.forwards := rfl
@[simp] theorem State.setCu_savedRuns (n : Nat) (c : Cu) : (s.setCu n c).savedRuns = s.savedRuns := rfl
@[simp] theorem State.setCu_ops (n : Nat) (c : Cu) : (s.setCu n c).ops = s.ops := rfl
@[simp] theorem State.setCu_mons (n : Nat) (c : Cu) : (s.setCu n c).mons = s.mons := rfl
@[simp] theorem State.setCu_ase (n : Nat) (c : Cu) : (s.setCu n c).ase = s.ase := rfl
@[simp] theorem State.setCu_ring (n : Nat) (c : Cu) : (s.setCu n c).ring = s.ring := rfl
@[simp] theorem State.setCu_invs (n : Nat) (c : Cu) : (s.setCu n c).invs = s.invs := rfl
@[simp] theorem State.setCu_mem (n : Nat) (c : Cu) : (s.setCu n c).mem = s.mem := rfl
@[simp] theorem State.setCu_sects (n : Nat) (c : Cu) : (s.setCu n c).sects = s.sects := rfl
@[simp] theorem State.setCu_guards (n : Nat) (c : Cu) : (s.setCu n c).guards = s.guards := rfl
@[simp] theorem State.setCu_owners (n : Nat) (c : Cu) : (s.setCu n c).owners = s.owners := rfl
@[simp] theorem State.setCu_poison (n : Nat) (c : Cu) : (s.setCu n c).poison = s.poison := rfl
@[simp] theorem State.setCu_peerL2 (n : Nat) (c : Cu) : (s.setCu n c).peerL2 = s.peerL2 := rfl
@[simp] theorem State.setCu_slack (n : Nat) (c : Cu) : (s.setCu n c).slack = s.slack := rfl
@[simp] theorem State.setCu_left (n : Nat) (c : Cu) : (s.setCu n c).left = s.left := rfl
@[simp] theorem State.setCu_fe (n : Nat) (c : Cu) : (s.setCu n c).fe = s.fe := rfl
@[simp] theorem State.setCu_locals (n : Nat) (c : Cu) : (s.setCu n c).locals = s.locals := rfl
@[simp] theorem State.setCu_ports (n : Nat) (c : Cu) : (s.setCu n c).ports = s.ports := rfl
@[simp] theorem State.setCu_lines (n : Nat) (c : Cu) : (s.setCu n c).lines = s.lines := rfl
@[simp] theorem State.setCu_ctl (n : Nat) (c : Cu) : (s.setCu n c).ctl = s.ctl := rfl
@[simp] theorem State.setCu_out (n : Nat) (c : Cu) : (s.setCu n c).out = s.out := rfl
@[simp] theorem State.setCu_said (n : Nat) (c : Cu) : (s.setCu n c).said = s.said := rfl

-- setMe
@[simp] theorem State.setMe_now (f : Fibre) : (s.setMe f).now = s.now := rfl
@[simp] theorem State.setMe_lags (f : Fibre) : (s.setMe f).lags = s.lags := rfl
@[simp] theorem State.setMe_nextId (f : Fibre) : (s.setMe f).nextId = s.nextId := rfl
@[simp] theorem State.setMe_freeCtr (f : Fibre) : (s.setMe f).freeCtr = s.freeCtr := rfl
@[simp] theorem State.setMe_agenda (f : Fibre) : (s.setMe f).agenda = s.agenda := rfl
@[simp] theorem State.setMe_actor (f : Fibre) : (s.setMe f).actor = s.actor := rfl
@[simp] theorem State.setMe_rr (f : Fibre) : (s.setMe f).rr = s.rr := rfl
@[simp] theorem State.setMe_slots (f : Fibre) : (s.setMe f).slots = s.slots := rfl
@[simp] theorem State.setMe_wgs (f : Fibre) : (s.setMe f).wgs = s.wgs := rfl
@[simp] theorem State.setMe_clusters (f : Fibre) : (s.setMe f).clusters = s.clusters := rfl
@[simp] theorem State.setMe_grids (f : Fibre) : (s.setMe f).grids = s.grids := rfl
@[simp] theorem State.setMe_queues (f : Fibre) : (s.setMe f).queues = s.queues := rfl
@[simp] theorem State.setMe_ctxs (f : Fibre) : (s.setMe f).ctxs = s.ctxs := rfl
@[simp] theorem State.setMe_reserved (f : Fibre) : (s.setMe f).reserved = s.reserved := rfl
@[simp] theorem State.setMe_lastPlaced (f : Fibre) : (s.setMe f).lastPlaced = s.lastPlaced := rfl
@[simp] theorem State.setMe_lastIssue (f : Fibre) : (s.setMe f).lastIssue = s.lastIssue := rfl
@[simp] theorem State.setMe_forwards (f : Fibre) : (s.setMe f).forwards = s.forwards := rfl
@[simp] theorem State.setMe_savedRuns (f : Fibre) : (s.setMe f).savedRuns = s.savedRuns := rfl
@[simp] theorem State.setMe_ops (f : Fibre) : (s.setMe f).ops = s.ops := rfl
@[simp] theorem State.setMe_cus (f : Fibre) : (s.setMe f).cus = s.cus := rfl
@[simp] theorem State.setMe_mons (f : Fibre) : (s.setMe f).mons = s.mons := rfl
@[simp] theorem State.setMe_ase (f : Fibre) : (s.setMe f).ase = s.ase := rfl
@[simp] theorem State.setMe_ring (f : Fibre) : (s.setMe f).ring = s.ring := rfl
@[simp] theorem State.setMe_invs (f : Fibre) : (s.setMe f).invs = s.invs := rfl
@[simp] theorem State.setMe_mem (f : Fibre) : (s.setMe f).mem = s.mem := rfl
@[simp] theorem State.setMe_sects (f : Fibre) : (s.setMe f).sects = s.sects := rfl
@[simp] theorem State.setMe_guards (f : Fibre) : (s.setMe f).guards = s.guards := rfl
@[simp] theorem State.setMe_owners (f : Fibre) : (s.setMe f).owners = s.owners := rfl
@[simp] theorem State.setMe_poison (f : Fibre) : (s.setMe f).poison = s.poison := rfl
@[simp] theorem State.setMe_peerL2 (f : Fibre) : (s.setMe f).peerL2 = s.peerL2 := rfl
@[simp] theorem State.setMe_slack (f : Fibre) : (s.setMe f).slack = s.slack := rfl
@[simp] theorem State.setMe_left (f : Fibre) : (s.setMe f).left = s.left := rfl
@[simp] theorem State.setMe_fe (f : Fibre) : (s.setMe f).fe = s.fe := rfl
@[simp] theorem State.setMe_locals (f : Fibre) : (s.setMe f).locals = s.locals := rfl
@[simp] theorem State.setMe_ports (f : Fibre) : (s.setMe f).ports = s.ports := rfl
@[simp] theorem State.setMe_lines (f : Fibre) : (s.setMe f).lines = s.lines := rfl
@[simp] theorem State.setMe_ctl (f : Fibre) : (s.setMe f).ctl = s.ctl := rfl
@[simp] theorem State.setMe_out (f : Fibre) : (s.setMe f).out = s.out := rfl
@[simp] theorem State.setMe_said (f : Fibre) : (s.setMe f).said = s.said := rfl

-- setMySlot
@[simp] theorem State.setMySlot_now (t : Slot) : (s.setMySlot t).now = s.now := rfl
@[simp] theorem State.setMySlot_lags (t : Slot) : (s.setMySlot t).lags = s.lags := rfl
@[simp] theorem State.setMySlot_nextId (t : Slot) : (s.setMySlot t).nextId = s.nextId := rfl
@[simp] theorem State.setMySlot_freeCtr (t : Slot) : (s.setMySlot t).freeCtr = s.freeCtr := rfl
@[simp] theorem State.setMySlot_agenda (t : Slot) : (s.setMySlot t).agenda = s.agenda := rfl
@[simp] theorem State.setMySlot_actor (t : Slot) : (s.setMySlot t).actor = s.actor := rfl
@[simp] theorem State.setMySlot_rr (t : Slot) : (s.setMySlot t).rr = s.rr := rfl
@[simp] theorem State.setMySlot_fibres (t : Slot) : (s.setMySlot t).fibres = s.fibres := rfl
@[simp] theorem State.setMySlot_wgs (t : Slot) : (s.setMySlot t).wgs = s.wgs := rfl
@[simp] theorem State.setMySlot_clusters (t : Slot) : (s.setMySlot t).clusters = s.clusters := rfl
@[simp] theorem State.setMySlot_grids (t : Slot) : (s.setMySlot t).grids = s.grids := rfl
@[simp] theorem State.setMySlot_queues (t : Slot) : (s.setMySlot t).queues = s.queues := rfl
@[simp] theorem State.setMySlot_ctxs (t : Slot) : (s.setMySlot t).ctxs = s.ctxs := rfl
@[simp] theorem State.setMySlot_reserved (t : Slot) : (s.setMySlot t).reserved = s.reserved := rfl
@[simp] theorem State.setMySlot_lastPlaced (t : Slot) : (s.setMySlot t).lastPlaced = s.lastPlaced := rfl
@[simp] theorem State.setMySlot_lastIssue (t : Slot) : (s.setMySlot t).lastIssue = s.lastIssue := rfl
@[simp] theorem State.setMySlot_forwards (t : Slot) : (s.setMySlot t).forwards = s.forwards := rfl
@[simp] theorem State.setMySlot_savedRuns (t : Slot) : (s.setMySlot t).savedRuns = s.savedRuns := rfl
@[simp] theorem State.setMySlot_ops (t : Slot) : (s.setMySlot t).ops = s.ops := rfl
@[simp] theorem State.setMySlot_cus (t : Slot) : (s.setMySlot t).cus = s.cus := rfl
@[simp] theorem State.setMySlot_mons (t : Slot) : (s.setMySlot t).mons = s.mons := rfl
@[simp] theorem State.setMySlot_ase (t : Slot) : (s.setMySlot t).ase = s.ase := rfl
@[simp] theorem State.setMySlot_ring (t : Slot) : (s.setMySlot t).ring = s.ring := rfl
@[simp] theorem State.setMySlot_invs (t : Slot) : (s.setMySlot t).invs = s.invs := rfl
@[simp] theorem State.setMySlot_mem (t : Slot) : (s.setMySlot t).mem = s.mem := rfl
@[simp] theorem State.setMySlot_sects (t : Slot) : (s.setMySlot t).sects = s.sects := rfl
@[simp] theorem State.setMySlot_guards (t : Slot) : (s.setMySlot t).guards = s.guards := rfl
@[simp] theorem State.setMySlot_owners (t : Slot) : (s.setMySlot t).owners = s.owners := rfl
@[simp] theorem State.setMySlot_poison (t : Slot) : (s.setMySlot t).poison = s.poison := rfl
@[simp] theorem State.setMySlot_peerL2 (t : Slot) : (s.setMySlot t).peerL2 = s.peerL2 := rfl
@[simp] theorem State.setMySlot_slack (t : Slot) : (s.setMySlot t).slack = s.slack := rfl
@[simp] theorem State.setMySlot_left (t : Slot) : (s.setMySlot t).left = s.left := rfl
@[simp] theorem State.setMySlot_fe (t : Slot) : (s.setMySlot t).fe = s.fe := rfl
@[simp] theorem State.setMySlot_locals (t : Slot) : (s.setMySlot t).locals = s.locals := rfl
@[simp] theorem State.setMySlot_ports (t : Slot) : (s.setMySlot t).ports = s.ports := rfl
@[simp] theorem State.setMySlot_lines (t : Slot) : (s.setMySlot t).lines = s.lines := rfl
@[simp] theorem State.setMySlot_ctl (t : Slot) : (s.setMySlot t).ctl = s.ctl := rfl
@[simp] theorem State.setMySlot_out (t : Slot) : (s.setMySlot t).out = s.out := rfl
@[simp] theorem State.setMySlot_said (t : Slot) : (s.setMySlot t).said = s.said := rfl

-- setS
@[simp] theorem State.setS_now (n : Nat) (v : DWord) : (s.setS n v).now = s.now := rfl
@[simp] theorem State.setS_lags (n : Nat) (v : DWord) : (s.setS n v).lags = s.lags := rfl
@[simp] theorem State.setS_nextId (n : Nat) (v : DWord) : (s.setS n v).nextId = s.nextId := rfl
@[simp] theorem State.setS_freeCtr (n : Nat) (v : DWord) : (s.setS n v).freeCtr = s.freeCtr := rfl
@[simp] theorem State.setS_agenda (n : Nat) (v : DWord) : (s.setS n v).agenda = s.agenda := rfl
@[simp] theorem State.setS_actor (n : Nat) (v : DWord) : (s.setS n v).actor = s.actor := rfl
@[simp] theorem State.setS_rr (n : Nat) (v : DWord) : (s.setS n v).rr = s.rr := rfl
@[simp] theorem State.setS_slots (n : Nat) (v : DWord) : (s.setS n v).slots = s.slots := rfl
@[simp] theorem State.setS_wgs (n : Nat) (v : DWord) : (s.setS n v).wgs = s.wgs := rfl
@[simp] theorem State.setS_clusters (n : Nat) (v : DWord) : (s.setS n v).clusters = s.clusters := rfl
@[simp] theorem State.setS_grids (n : Nat) (v : DWord) : (s.setS n v).grids = s.grids := rfl
@[simp] theorem State.setS_queues (n : Nat) (v : DWord) : (s.setS n v).queues = s.queues := rfl
@[simp] theorem State.setS_ctxs (n : Nat) (v : DWord) : (s.setS n v).ctxs = s.ctxs := rfl
@[simp] theorem State.setS_reserved (n : Nat) (v : DWord) : (s.setS n v).reserved = s.reserved := rfl
@[simp] theorem State.setS_lastPlaced (n : Nat) (v : DWord) : (s.setS n v).lastPlaced = s.lastPlaced := rfl
@[simp] theorem State.setS_lastIssue (n : Nat) (v : DWord) : (s.setS n v).lastIssue = s.lastIssue := rfl
@[simp] theorem State.setS_forwards (n : Nat) (v : DWord) : (s.setS n v).forwards = s.forwards := rfl
@[simp] theorem State.setS_savedRuns (n : Nat) (v : DWord) : (s.setS n v).savedRuns = s.savedRuns := rfl
@[simp] theorem State.setS_ops (n : Nat) (v : DWord) : (s.setS n v).ops = s.ops := rfl
@[simp] theorem State.setS_cus (n : Nat) (v : DWord) : (s.setS n v).cus = s.cus := rfl
@[simp] theorem State.setS_mons (n : Nat) (v : DWord) : (s.setS n v).mons = s.mons := rfl
@[simp] theorem State.setS_ase (n : Nat) (v : DWord) : (s.setS n v).ase = s.ase := rfl
@[simp] theorem State.setS_ring (n : Nat) (v : DWord) : (s.setS n v).ring = s.ring := rfl
@[simp] theorem State.setS_invs (n : Nat) (v : DWord) : (s.setS n v).invs = s.invs := rfl
@[simp] theorem State.setS_mem (n : Nat) (v : DWord) : (s.setS n v).mem = s.mem := rfl
@[simp] theorem State.setS_sects (n : Nat) (v : DWord) : (s.setS n v).sects = s.sects := rfl
@[simp] theorem State.setS_guards (n : Nat) (v : DWord) : (s.setS n v).guards = s.guards := rfl
@[simp] theorem State.setS_owners (n : Nat) (v : DWord) : (s.setS n v).owners = s.owners := rfl
@[simp] theorem State.setS_poison (n : Nat) (v : DWord) : (s.setS n v).poison = s.poison := rfl
@[simp] theorem State.setS_peerL2 (n : Nat) (v : DWord) : (s.setS n v).peerL2 = s.peerL2 := rfl
@[simp] theorem State.setS_slack (n : Nat) (v : DWord) : (s.setS n v).slack = s.slack := rfl
@[simp] theorem State.setS_left (n : Nat) (v : DWord) : (s.setS n v).left = s.left := rfl
@[simp] theorem State.setS_fe (n : Nat) (v : DWord) : (s.setS n v).fe = s.fe := rfl
@[simp] theorem State.setS_locals (n : Nat) (v : DWord) : (s.setS n v).locals = s.locals := rfl
@[simp] theorem State.setS_ports (n : Nat) (v : DWord) : (s.setS n v).ports = s.ports := rfl
@[simp] theorem State.setS_lines (n : Nat) (v : DWord) : (s.setS n v).lines = s.lines := rfl
@[simp] theorem State.setS_ctl (n : Nat) (v : DWord) : (s.setS n v).ctl = s.ctl := rfl
@[simp] theorem State.setS_out (n : Nat) (v : DWord) : (s.setS n v).out = s.out := rfl
@[simp] theorem State.setS_said (n : Nat) (v : DWord) : (s.setS n v).said = s.said := rfl

-- setP
@[simp] theorem State.setP_now (n : Nat) (v : DWord) : (s.setP n v).now = s.now := rfl
@[simp] theorem State.setP_lags (n : Nat) (v : DWord) : (s.setP n v).lags = s.lags := rfl
@[simp] theorem State.setP_nextId (n : Nat) (v : DWord) : (s.setP n v).nextId = s.nextId := rfl
@[simp] theorem State.setP_freeCtr (n : Nat) (v : DWord) : (s.setP n v).freeCtr = s.freeCtr := rfl
@[simp] theorem State.setP_agenda (n : Nat) (v : DWord) : (s.setP n v).agenda = s.agenda := rfl
@[simp] theorem State.setP_actor (n : Nat) (v : DWord) : (s.setP n v).actor = s.actor := rfl
@[simp] theorem State.setP_rr (n : Nat) (v : DWord) : (s.setP n v).rr = s.rr := rfl
@[simp] theorem State.setP_slots (n : Nat) (v : DWord) : (s.setP n v).slots = s.slots := rfl
@[simp] theorem State.setP_wgs (n : Nat) (v : DWord) : (s.setP n v).wgs = s.wgs := rfl
@[simp] theorem State.setP_clusters (n : Nat) (v : DWord) : (s.setP n v).clusters = s.clusters := rfl
@[simp] theorem State.setP_grids (n : Nat) (v : DWord) : (s.setP n v).grids = s.grids := rfl
@[simp] theorem State.setP_queues (n : Nat) (v : DWord) : (s.setP n v).queues = s.queues := rfl
@[simp] theorem State.setP_ctxs (n : Nat) (v : DWord) : (s.setP n v).ctxs = s.ctxs := rfl
@[simp] theorem State.setP_reserved (n : Nat) (v : DWord) : (s.setP n v).reserved = s.reserved := rfl
@[simp] theorem State.setP_lastPlaced (n : Nat) (v : DWord) : (s.setP n v).lastPlaced = s.lastPlaced := rfl
@[simp] theorem State.setP_lastIssue (n : Nat) (v : DWord) : (s.setP n v).lastIssue = s.lastIssue := rfl
@[simp] theorem State.setP_forwards (n : Nat) (v : DWord) : (s.setP n v).forwards = s.forwards := rfl
@[simp] theorem State.setP_savedRuns (n : Nat) (v : DWord) : (s.setP n v).savedRuns = s.savedRuns := rfl
@[simp] theorem State.setP_ops (n : Nat) (v : DWord) : (s.setP n v).ops = s.ops := rfl
@[simp] theorem State.setP_cus (n : Nat) (v : DWord) : (s.setP n v).cus = s.cus := rfl
@[simp] theorem State.setP_mons (n : Nat) (v : DWord) : (s.setP n v).mons = s.mons := rfl
@[simp] theorem State.setP_ase (n : Nat) (v : DWord) : (s.setP n v).ase = s.ase := rfl
@[simp] theorem State.setP_ring (n : Nat) (v : DWord) : (s.setP n v).ring = s.ring := rfl
@[simp] theorem State.setP_invs (n : Nat) (v : DWord) : (s.setP n v).invs = s.invs := rfl
@[simp] theorem State.setP_mem (n : Nat) (v : DWord) : (s.setP n v).mem = s.mem := rfl
@[simp] theorem State.setP_sects (n : Nat) (v : DWord) : (s.setP n v).sects = s.sects := rfl
@[simp] theorem State.setP_guards (n : Nat) (v : DWord) : (s.setP n v).guards = s.guards := rfl
@[simp] theorem State.setP_owners (n : Nat) (v : DWord) : (s.setP n v).owners = s.owners := rfl
@[simp] theorem State.setP_poison (n : Nat) (v : DWord) : (s.setP n v).poison = s.poison := rfl
@[simp] theorem State.setP_peerL2 (n : Nat) (v : DWord) : (s.setP n v).peerL2 = s.peerL2 := rfl
@[simp] theorem State.setP_slack (n : Nat) (v : DWord) : (s.setP n v).slack = s.slack := rfl
@[simp] theorem State.setP_left (n : Nat) (v : DWord) : (s.setP n v).left = s.left := rfl
@[simp] theorem State.setP_fe (n : Nat) (v : DWord) : (s.setP n v).fe = s.fe := rfl
@[simp] theorem State.setP_locals (n : Nat) (v : DWord) : (s.setP n v).locals = s.locals := rfl
@[simp] theorem State.setP_ports (n : Nat) (v : DWord) : (s.setP n v).ports = s.ports := rfl
@[simp] theorem State.setP_lines (n : Nat) (v : DWord) : (s.setP n v).lines = s.lines := rfl
@[simp] theorem State.setP_ctl (n : Nat) (v : DWord) : (s.setP n v).ctl = s.ctl := rfl
@[simp] theorem State.setP_out (n : Nat) (v : DWord) : (s.setP n v).out = s.out := rfl
@[simp] theorem State.setP_said (n : Nat) (v : DWord) : (s.setP n v).said = s.said := rfl

-- bump
@[simp] theorem State.bump_now : (s.bump).now = s.now := rfl
@[simp] theorem State.bump_lags : (s.bump).lags = s.lags := rfl
@[simp] theorem State.bump_freeCtr : (s.bump).freeCtr = s.freeCtr := rfl
@[simp] theorem State.bump_agenda : (s.bump).agenda = s.agenda := rfl
@[simp] theorem State.bump_actor : (s.bump).actor = s.actor := rfl
@[simp] theorem State.bump_rr : (s.bump).rr = s.rr := rfl
@[simp] theorem State.bump_fibres : (s.bump).fibres = s.fibres := rfl
@[simp] theorem State.bump_slots : (s.bump).slots = s.slots := rfl
@[simp] theorem State.bump_wgs : (s.bump).wgs = s.wgs := rfl
@[simp] theorem State.bump_clusters : (s.bump).clusters = s.clusters := rfl
@[simp] theorem State.bump_grids : (s.bump).grids = s.grids := rfl
@[simp] theorem State.bump_queues : (s.bump).queues = s.queues := rfl
@[simp] theorem State.bump_ctxs : (s.bump).ctxs = s.ctxs := rfl
@[simp] theorem State.bump_reserved : (s.bump).reserved = s.reserved := rfl
@[simp] theorem State.bump_lastPlaced : (s.bump).lastPlaced = s.lastPlaced := rfl
@[simp] theorem State.bump_lastIssue : (s.bump).lastIssue = s.lastIssue := rfl
@[simp] theorem State.bump_forwards : (s.bump).forwards = s.forwards := rfl
@[simp] theorem State.bump_savedRuns : (s.bump).savedRuns = s.savedRuns := rfl
@[simp] theorem State.bump_ops : (s.bump).ops = s.ops := rfl
@[simp] theorem State.bump_cus : (s.bump).cus = s.cus := rfl
@[simp] theorem State.bump_mons : (s.bump).mons = s.mons := rfl
@[simp] theorem State.bump_ase : (s.bump).ase = s.ase := rfl
@[simp] theorem State.bump_ring : (s.bump).ring = s.ring := rfl
@[simp] theorem State.bump_invs : (s.bump).invs = s.invs := rfl
@[simp] theorem State.bump_mem : (s.bump).mem = s.mem := rfl
@[simp] theorem State.bump_sects : (s.bump).sects = s.sects := rfl
@[simp] theorem State.bump_guards : (s.bump).guards = s.guards := rfl
@[simp] theorem State.bump_owners : (s.bump).owners = s.owners := rfl
@[simp] theorem State.bump_poison : (s.bump).poison = s.poison := rfl
@[simp] theorem State.bump_peerL2 : (s.bump).peerL2 = s.peerL2 := rfl
@[simp] theorem State.bump_slack : (s.bump).slack = s.slack := rfl
@[simp] theorem State.bump_left : (s.bump).left = s.left := rfl
@[simp] theorem State.bump_fe : (s.bump).fe = s.fe := rfl
@[simp] theorem State.bump_locals : (s.bump).locals = s.locals := rfl
@[simp] theorem State.bump_ports : (s.bump).ports = s.ports := rfl
@[simp] theorem State.bump_lines : (s.bump).lines = s.lines := rfl
@[simp] theorem State.bump_ctl : (s.bump).ctl = s.ctl := rfl
@[simp] theorem State.bump_out : (s.bump).out = s.out := rfl
@[simp] theorem State.bump_said : (s.bump).said = s.said := rfl

-- send
@[simp] theorem State.send_now (m : Msg) : (s.send m).now = s.now := rfl
@[simp] theorem State.send_lags (m : Msg) : (s.send m).lags = s.lags := rfl
@[simp] theorem State.send_nextId (m : Msg) : (s.send m).nextId = s.nextId := rfl
@[simp] theorem State.send_freeCtr (m : Msg) : (s.send m).freeCtr = s.freeCtr := rfl
@[simp] theorem State.send_agenda (m : Msg) : (s.send m).agenda = s.agenda := rfl
@[simp] theorem State.send_actor (m : Msg) : (s.send m).actor = s.actor := rfl
@[simp] theorem State.send_rr (m : Msg) : (s.send m).rr = s.rr := rfl
@[simp] theorem State.send_fibres (m : Msg) : (s.send m).fibres = s.fibres := rfl
@[simp] theorem State.send_slots (m : Msg) : (s.send m).slots = s.slots := rfl
@[simp] theorem State.send_wgs (m : Msg) : (s.send m).wgs = s.wgs := rfl
@[simp] theorem State.send_clusters (m : Msg) : (s.send m).clusters = s.clusters := rfl
@[simp] theorem State.send_grids (m : Msg) : (s.send m).grids = s.grids := rfl
@[simp] theorem State.send_queues (m : Msg) : (s.send m).queues = s.queues := rfl
@[simp] theorem State.send_ctxs (m : Msg) : (s.send m).ctxs = s.ctxs := rfl
@[simp] theorem State.send_reserved (m : Msg) : (s.send m).reserved = s.reserved := rfl
@[simp] theorem State.send_lastPlaced (m : Msg) : (s.send m).lastPlaced = s.lastPlaced := rfl
@[simp] theorem State.send_lastIssue (m : Msg) : (s.send m).lastIssue = s.lastIssue := rfl
@[simp] theorem State.send_forwards (m : Msg) : (s.send m).forwards = s.forwards := rfl
@[simp] theorem State.send_savedRuns (m : Msg) : (s.send m).savedRuns = s.savedRuns := rfl
@[simp] theorem State.send_ops (m : Msg) : (s.send m).ops = s.ops := rfl
@[simp] theorem State.send_cus (m : Msg) : (s.send m).cus = s.cus := rfl
@[simp] theorem State.send_mons (m : Msg) : (s.send m).mons = s.mons := rfl
@[simp] theorem State.send_ase (m : Msg) : (s.send m).ase = s.ase := rfl
@[simp] theorem State.send_ring (m : Msg) : (s.send m).ring = s.ring := rfl
@[simp] theorem State.send_invs (m : Msg) : (s.send m).invs = s.invs := rfl
@[simp] theorem State.send_mem (m : Msg) : (s.send m).mem = s.mem := rfl
@[simp] theorem State.send_sects (m : Msg) : (s.send m).sects = s.sects := rfl
@[simp] theorem State.send_guards (m : Msg) : (s.send m).guards = s.guards := rfl
@[simp] theorem State.send_owners (m : Msg) : (s.send m).owners = s.owners := rfl
@[simp] theorem State.send_poison (m : Msg) : (s.send m).poison = s.poison := rfl
@[simp] theorem State.send_peerL2 (m : Msg) : (s.send m).peerL2 = s.peerL2 := rfl
@[simp] theorem State.send_slack (m : Msg) : (s.send m).slack = s.slack := rfl
@[simp] theorem State.send_left (m : Msg) : (s.send m).left = s.left := rfl
@[simp] theorem State.send_fe (m : Msg) : (s.send m).fe = s.fe := rfl
@[simp] theorem State.send_locals (m : Msg) : (s.send m).locals = s.locals := rfl
@[simp] theorem State.send_ports (m : Msg) : (s.send m).ports = s.ports := rfl
@[simp] theorem State.send_lines (m : Msg) : (s.send m).lines = s.lines := rfl
@[simp] theorem State.send_ctl (m : Msg) : (s.send m).ctl = s.ctl := rfl
@[simp] theorem State.send_said (m : Msg) : (s.send m).said = s.said := rfl

-- raise
@[simp] theorem State.raise_now (fl : BitVec 9) : (s.raise fl).now = s.now := rfl
@[simp] theorem State.raise_lags (fl : BitVec 9) : (s.raise fl).lags = s.lags := rfl
@[simp] theorem State.raise_nextId (fl : BitVec 9) : (s.raise fl).nextId = s.nextId := rfl
@[simp] theorem State.raise_freeCtr (fl : BitVec 9) : (s.raise fl).freeCtr = s.freeCtr := rfl
@[simp] theorem State.raise_agenda (fl : BitVec 9) : (s.raise fl).agenda = s.agenda := rfl
@[simp] theorem State.raise_actor (fl : BitVec 9) : (s.raise fl).actor = s.actor := rfl
@[simp] theorem State.raise_rr (fl : BitVec 9) : (s.raise fl).rr = s.rr := rfl
@[simp] theorem State.raise_slots (fl : BitVec 9) : (s.raise fl).slots = s.slots := rfl
@[simp] theorem State.raise_wgs (fl : BitVec 9) : (s.raise fl).wgs = s.wgs := rfl
@[simp] theorem State.raise_clusters (fl : BitVec 9) : (s.raise fl).clusters = s.clusters := rfl
@[simp] theorem State.raise_grids (fl : BitVec 9) : (s.raise fl).grids = s.grids := rfl
@[simp] theorem State.raise_queues (fl : BitVec 9) : (s.raise fl).queues = s.queues := rfl
@[simp] theorem State.raise_ctxs (fl : BitVec 9) : (s.raise fl).ctxs = s.ctxs := rfl
@[simp] theorem State.raise_reserved (fl : BitVec 9) : (s.raise fl).reserved = s.reserved := rfl
@[simp] theorem State.raise_lastPlaced (fl : BitVec 9) : (s.raise fl).lastPlaced = s.lastPlaced := rfl
@[simp] theorem State.raise_lastIssue (fl : BitVec 9) : (s.raise fl).lastIssue = s.lastIssue := rfl
@[simp] theorem State.raise_forwards (fl : BitVec 9) : (s.raise fl).forwards = s.forwards := rfl
@[simp] theorem State.raise_savedRuns (fl : BitVec 9) : (s.raise fl).savedRuns = s.savedRuns := rfl
@[simp] theorem State.raise_ops (fl : BitVec 9) : (s.raise fl).ops = s.ops := rfl
@[simp] theorem State.raise_cus (fl : BitVec 9) : (s.raise fl).cus = s.cus := rfl
@[simp] theorem State.raise_mons (fl : BitVec 9) : (s.raise fl).mons = s.mons := rfl
@[simp] theorem State.raise_ase (fl : BitVec 9) : (s.raise fl).ase = s.ase := rfl
@[simp] theorem State.raise_ring (fl : BitVec 9) : (s.raise fl).ring = s.ring := rfl
@[simp] theorem State.raise_invs (fl : BitVec 9) : (s.raise fl).invs = s.invs := rfl
@[simp] theorem State.raise_mem (fl : BitVec 9) : (s.raise fl).mem = s.mem := rfl
@[simp] theorem State.raise_sects (fl : BitVec 9) : (s.raise fl).sects = s.sects := rfl
@[simp] theorem State.raise_guards (fl : BitVec 9) : (s.raise fl).guards = s.guards := rfl
@[simp] theorem State.raise_owners (fl : BitVec 9) : (s.raise fl).owners = s.owners := rfl
@[simp] theorem State.raise_poison (fl : BitVec 9) : (s.raise fl).poison = s.poison := rfl
@[simp] theorem State.raise_peerL2 (fl : BitVec 9) : (s.raise fl).peerL2 = s.peerL2 := rfl
@[simp] theorem State.raise_slack (fl : BitVec 9) : (s.raise fl).slack = s.slack := rfl
@[simp] theorem State.raise_left (fl : BitVec 9) : (s.raise fl).left = s.left := rfl
@[simp] theorem State.raise_fe (fl : BitVec 9) : (s.raise fl).fe = s.fe := rfl
@[simp] theorem State.raise_locals (fl : BitVec 9) : (s.raise fl).locals = s.locals := rfl
@[simp] theorem State.raise_ports (fl : BitVec 9) : (s.raise fl).ports = s.ports := rfl
@[simp] theorem State.raise_lines (fl : BitVec 9) : (s.raise fl).lines = s.lines := rfl
@[simp] theorem State.raise_ctl (fl : BitVec 9) : (s.raise fl).ctl = s.ctl := rfl
@[simp] theorem State.raise_out (fl : BitVec 9) : (s.raise fl).out = s.out := rfl
@[simp] theorem State.raise_said (fl : BitVec 9) : (s.raise fl).said = s.said := rfl

-- putHbm
@[simp] theorem State.putHbm_now (a : Nat) (bs : List Byte) : (s.putHbm a bs).now = s.now := rfl
@[simp] theorem State.putHbm_lags (a : Nat) (bs : List Byte) : (s.putHbm a bs).lags = s.lags := rfl
@[simp] theorem State.putHbm_nextId (a : Nat) (bs : List Byte) : (s.putHbm a bs).nextId = s.nextId := rfl
@[simp] theorem State.putHbm_freeCtr (a : Nat) (bs : List Byte) : (s.putHbm a bs).freeCtr = s.freeCtr := rfl
@[simp] theorem State.putHbm_agenda (a : Nat) (bs : List Byte) : (s.putHbm a bs).agenda = s.agenda := rfl
@[simp] theorem State.putHbm_actor (a : Nat) (bs : List Byte) : (s.putHbm a bs).actor = s.actor := rfl
@[simp] theorem State.putHbm_rr (a : Nat) (bs : List Byte) : (s.putHbm a bs).rr = s.rr := rfl
@[simp] theorem State.putHbm_fibres (a : Nat) (bs : List Byte) : (s.putHbm a bs).fibres = s.fibres := rfl
@[simp] theorem State.putHbm_slots (a : Nat) (bs : List Byte) : (s.putHbm a bs).slots = s.slots := rfl
@[simp] theorem State.putHbm_wgs (a : Nat) (bs : List Byte) : (s.putHbm a bs).wgs = s.wgs := rfl
@[simp] theorem State.putHbm_clusters (a : Nat) (bs : List Byte) : (s.putHbm a bs).clusters = s.clusters := rfl
@[simp] theorem State.putHbm_grids (a : Nat) (bs : List Byte) : (s.putHbm a bs).grids = s.grids := rfl
@[simp] theorem State.putHbm_queues (a : Nat) (bs : List Byte) : (s.putHbm a bs).queues = s.queues := rfl
@[simp] theorem State.putHbm_ctxs (a : Nat) (bs : List Byte) : (s.putHbm a bs).ctxs = s.ctxs := rfl
@[simp] theorem State.putHbm_reserved (a : Nat) (bs : List Byte) : (s.putHbm a bs).reserved = s.reserved := rfl
@[simp] theorem State.putHbm_lastPlaced (a : Nat) (bs : List Byte) : (s.putHbm a bs).lastPlaced = s.lastPlaced := rfl
@[simp] theorem State.putHbm_lastIssue (a : Nat) (bs : List Byte) : (s.putHbm a bs).lastIssue = s.lastIssue := rfl
@[simp] theorem State.putHbm_forwards (a : Nat) (bs : List Byte) : (s.putHbm a bs).forwards = s.forwards := rfl
@[simp] theorem State.putHbm_savedRuns (a : Nat) (bs : List Byte) : (s.putHbm a bs).savedRuns = s.savedRuns := rfl
@[simp] theorem State.putHbm_ops (a : Nat) (bs : List Byte) : (s.putHbm a bs).ops = s.ops := rfl
@[simp] theorem State.putHbm_cus (a : Nat) (bs : List Byte) : (s.putHbm a bs).cus = s.cus := rfl
@[simp] theorem State.putHbm_mons (a : Nat) (bs : List Byte) : (s.putHbm a bs).mons = s.mons := rfl
@[simp] theorem State.putHbm_ase (a : Nat) (bs : List Byte) : (s.putHbm a bs).ase = s.ase := rfl
@[simp] theorem State.putHbm_ring (a : Nat) (bs : List Byte) : (s.putHbm a bs).ring = s.ring := rfl
@[simp] theorem State.putHbm_invs (a : Nat) (bs : List Byte) : (s.putHbm a bs).invs = s.invs := rfl
@[simp] theorem State.putHbm_sects (a : Nat) (bs : List Byte) : (s.putHbm a bs).sects = s.sects := rfl
@[simp] theorem State.putHbm_guards (a : Nat) (bs : List Byte) : (s.putHbm a bs).guards = s.guards := rfl
@[simp] theorem State.putHbm_owners (a : Nat) (bs : List Byte) : (s.putHbm a bs).owners = s.owners := rfl
@[simp] theorem State.putHbm_poison (a : Nat) (bs : List Byte) : (s.putHbm a bs).poison = s.poison := rfl
@[simp] theorem State.putHbm_peerL2 (a : Nat) (bs : List Byte) : (s.putHbm a bs).peerL2 = s.peerL2 := rfl
@[simp] theorem State.putHbm_slack (a : Nat) (bs : List Byte) : (s.putHbm a bs).slack = s.slack := rfl
@[simp] theorem State.putHbm_left (a : Nat) (bs : List Byte) : (s.putHbm a bs).left = s.left := rfl
@[simp] theorem State.putHbm_fe (a : Nat) (bs : List Byte) : (s.putHbm a bs).fe = s.fe := rfl
@[simp] theorem State.putHbm_locals (a : Nat) (bs : List Byte) : (s.putHbm a bs).locals = s.locals := rfl
@[simp] theorem State.putHbm_ports (a : Nat) (bs : List Byte) : (s.putHbm a bs).ports = s.ports := rfl
@[simp] theorem State.putHbm_lines (a : Nat) (bs : List Byte) : (s.putHbm a bs).lines = s.lines := rfl
@[simp] theorem State.putHbm_ctl (a : Nat) (bs : List Byte) : (s.putHbm a bs).ctl = s.ctl := rfl
@[simp] theorem State.putHbm_out (a : Nat) (bs : List Byte) : (s.putHbm a bs).out = s.out := rfl
@[simp] theorem State.putHbm_said (a : Nat) (bs : List Byte) : (s.putHbm a bs).said = s.said := rfl

-- noteWrite
@[simp] theorem State.noteWrite_now (g k n : Nat) (m : DWord) : (s.noteWrite g k n m).now = s.now := rfl
@[simp] theorem State.noteWrite_lags (g k n : Nat) (m : DWord) : (s.noteWrite g k n m).lags = s.lags := rfl
@[simp] theorem State.noteWrite_nextId (g k n : Nat) (m : DWord) : (s.noteWrite g k n m).nextId = s.nextId := rfl
@[simp] theorem State.noteWrite_freeCtr (g k n : Nat) (m : DWord) : (s.noteWrite g k n m).freeCtr = s.freeCtr := rfl
@[simp] theorem State.noteWrite_agenda (g k n : Nat) (m : DWord) : (s.noteWrite g k n m).agenda = s.agenda := rfl
@[simp] theorem State.noteWrite_actor (g k n : Nat) (m : DWord) : (s.noteWrite g k n m).actor = s.actor := rfl
@[simp] theorem State.noteWrite_rr (g k n : Nat) (m : DWord) : (s.noteWrite g k n m).rr = s.rr := rfl
@[simp] theorem State.noteWrite_fibres (g k n : Nat) (m : DWord) : (s.noteWrite g k n m).fibres = s.fibres := rfl
@[simp] theorem State.noteWrite_slots (g k n : Nat) (m : DWord) : (s.noteWrite g k n m).slots = s.slots := rfl
@[simp] theorem State.noteWrite_wgs (g k n : Nat) (m : DWord) : (s.noteWrite g k n m).wgs = s.wgs := rfl
@[simp] theorem State.noteWrite_clusters (g k n : Nat) (m : DWord) : (s.noteWrite g k n m).clusters = s.clusters := rfl
@[simp] theorem State.noteWrite_grids (g k n : Nat) (m : DWord) : (s.noteWrite g k n m).grids = s.grids := rfl
@[simp] theorem State.noteWrite_queues (g k n : Nat) (m : DWord) : (s.noteWrite g k n m).queues = s.queues := rfl
@[simp] theorem State.noteWrite_ctxs (g k n : Nat) (m : DWord) : (s.noteWrite g k n m).ctxs = s.ctxs := rfl
@[simp] theorem State.noteWrite_reserved (g k n : Nat) (m : DWord) : (s.noteWrite g k n m).reserved = s.reserved := rfl
@[simp] theorem State.noteWrite_lastPlaced (g k n : Nat) (m : DWord) : (s.noteWrite g k n m).lastPlaced = s.lastPlaced := rfl
@[simp] theorem State.noteWrite_lastIssue (g k n : Nat) (m : DWord) : (s.noteWrite g k n m).lastIssue = s.lastIssue := rfl
@[simp] theorem State.noteWrite_forwards (g k n : Nat) (m : DWord) : (s.noteWrite g k n m).forwards = s.forwards := rfl
@[simp] theorem State.noteWrite_savedRuns (g k n : Nat) (m : DWord) : (s.noteWrite g k n m).savedRuns = s.savedRuns := rfl
@[simp] theorem State.noteWrite_cus (g k n : Nat) (m : DWord) : (s.noteWrite g k n m).cus = s.cus := rfl
@[simp] theorem State.noteWrite_mons (g k n : Nat) (m : DWord) : (s.noteWrite g k n m).mons = s.mons := rfl
@[simp] theorem State.noteWrite_ase (g k n : Nat) (m : DWord) : (s.noteWrite g k n m).ase = s.ase := rfl
@[simp] theorem State.noteWrite_ring (g k n : Nat) (m : DWord) : (s.noteWrite g k n m).ring = s.ring := rfl
@[simp] theorem State.noteWrite_invs (g k n : Nat) (m : DWord) : (s.noteWrite g k n m).invs = s.invs := rfl
@[simp] theorem State.noteWrite_mem (g k n : Nat) (m : DWord) : (s.noteWrite g k n m).mem = s.mem := rfl
@[simp] theorem State.noteWrite_sects (g k n : Nat) (m : DWord) : (s.noteWrite g k n m).sects = s.sects := rfl
@[simp] theorem State.noteWrite_guards (g k n : Nat) (m : DWord) : (s.noteWrite g k n m).guards = s.guards := rfl
@[simp] theorem State.noteWrite_owners (g k n : Nat) (m : DWord) : (s.noteWrite g k n m).owners = s.owners := rfl
@[simp] theorem State.noteWrite_poison (g k n : Nat) (m : DWord) : (s.noteWrite g k n m).poison = s.poison := rfl
@[simp] theorem State.noteWrite_peerL2 (g k n : Nat) (m : DWord) : (s.noteWrite g k n m).peerL2 = s.peerL2 := rfl
@[simp] theorem State.noteWrite_slack (g k n : Nat) (m : DWord) : (s.noteWrite g k n m).slack = s.slack := rfl
@[simp] theorem State.noteWrite_left (g k n : Nat) (m : DWord) : (s.noteWrite g k n m).left = s.left := rfl
@[simp] theorem State.noteWrite_fe (g k n : Nat) (m : DWord) : (s.noteWrite g k n m).fe = s.fe := rfl
@[simp] theorem State.noteWrite_locals (g k n : Nat) (m : DWord) : (s.noteWrite g k n m).locals = s.locals := rfl
@[simp] theorem State.noteWrite_ports (g k n : Nat) (m : DWord) : (s.noteWrite g k n m).ports = s.ports := rfl
@[simp] theorem State.noteWrite_lines (g k n : Nat) (m : DWord) : (s.noteWrite g k n m).lines = s.lines := rfl
@[simp] theorem State.noteWrite_ctl (g k n : Nat) (m : DWord) : (s.noteWrite g k n m).ctl = s.ctl := rfl
@[simp] theorem State.noteWrite_out (g k n : Nat) (m : DWord) : (s.noteWrite g k n m).out = s.out := rfl
@[simp] theorem State.noteWrite_said (g k n : Nat) (m : DWord) : (s.noteWrite g k n m).said = s.said := rfl

-- setV
@[simp] theorem State.setV_now (g k n : Nat) (m : DWord) (v : VVal) : (s.setV g k n m v).now = s.now := rfl
@[simp] theorem State.setV_lags (g k n : Nat) (m : DWord) (v : VVal) : (s.setV g k n m v).lags = s.lags := rfl
@[simp] theorem State.setV_nextId (g k n : Nat) (m : DWord) (v : VVal) : (s.setV g k n m v).nextId = s.nextId := rfl
@[simp] theorem State.setV_freeCtr (g k n : Nat) (m : DWord) (v : VVal) : (s.setV g k n m v).freeCtr = s.freeCtr := rfl
@[simp] theorem State.setV_agenda (g k n : Nat) (m : DWord) (v : VVal) : (s.setV g k n m v).agenda = s.agenda := rfl
@[simp] theorem State.setV_actor (g k n : Nat) (m : DWord) (v : VVal) : (s.setV g k n m v).actor = s.actor := rfl
@[simp] theorem State.setV_rr (g k n : Nat) (m : DWord) (v : VVal) : (s.setV g k n m v).rr = s.rr := rfl
@[simp] theorem State.setV_fibres (g k n : Nat) (m : DWord) (v : VVal) : (s.setV g k n m v).fibres = s.fibres := rfl
@[simp] theorem State.setV_wgs (g k n : Nat) (m : DWord) (v : VVal) : (s.setV g k n m v).wgs = s.wgs := rfl
@[simp] theorem State.setV_clusters (g k n : Nat) (m : DWord) (v : VVal) : (s.setV g k n m v).clusters = s.clusters := rfl
@[simp] theorem State.setV_grids (g k n : Nat) (m : DWord) (v : VVal) : (s.setV g k n m v).grids = s.grids := rfl
@[simp] theorem State.setV_queues (g k n : Nat) (m : DWord) (v : VVal) : (s.setV g k n m v).queues = s.queues := rfl
@[simp] theorem State.setV_ctxs (g k n : Nat) (m : DWord) (v : VVal) : (s.setV g k n m v).ctxs = s.ctxs := rfl
@[simp] theorem State.setV_reserved (g k n : Nat) (m : DWord) (v : VVal) : (s.setV g k n m v).reserved = s.reserved := rfl
@[simp] theorem State.setV_lastPlaced (g k n : Nat) (m : DWord) (v : VVal) : (s.setV g k n m v).lastPlaced = s.lastPlaced := rfl
@[simp] theorem State.setV_lastIssue (g k n : Nat) (m : DWord) (v : VVal) : (s.setV g k n m v).lastIssue = s.lastIssue := rfl
@[simp] theorem State.setV_forwards (g k n : Nat) (m : DWord) (v : VVal) : (s.setV g k n m v).forwards = s.forwards := rfl
@[simp] theorem State.setV_savedRuns (g k n : Nat) (m : DWord) (v : VVal) : (s.setV g k n m v).savedRuns = s.savedRuns := rfl
@[simp] theorem State.setV_cus (g k n : Nat) (m : DWord) (v : VVal) : (s.setV g k n m v).cus = s.cus := rfl
@[simp] theorem State.setV_mons (g k n : Nat) (m : DWord) (v : VVal) : (s.setV g k n m v).mons = s.mons := rfl
@[simp] theorem State.setV_ase (g k n : Nat) (m : DWord) (v : VVal) : (s.setV g k n m v).ase = s.ase := rfl
@[simp] theorem State.setV_ring (g k n : Nat) (m : DWord) (v : VVal) : (s.setV g k n m v).ring = s.ring := rfl
@[simp] theorem State.setV_invs (g k n : Nat) (m : DWord) (v : VVal) : (s.setV g k n m v).invs = s.invs := rfl
@[simp] theorem State.setV_mem (g k n : Nat) (m : DWord) (v : VVal) : (s.setV g k n m v).mem = s.mem := rfl
@[simp] theorem State.setV_sects (g k n : Nat) (m : DWord) (v : VVal) : (s.setV g k n m v).sects = s.sects := rfl
@[simp] theorem State.setV_guards (g k n : Nat) (m : DWord) (v : VVal) : (s.setV g k n m v).guards = s.guards := rfl
@[simp] theorem State.setV_owners (g k n : Nat) (m : DWord) (v : VVal) : (s.setV g k n m v).owners = s.owners := rfl
@[simp] theorem State.setV_poison (g k n : Nat) (m : DWord) (v : VVal) : (s.setV g k n m v).poison = s.poison := rfl
@[simp] theorem State.setV_peerL2 (g k n : Nat) (m : DWord) (v : VVal) : (s.setV g k n m v).peerL2 = s.peerL2 := rfl
@[simp] theorem State.setV_slack (g k n : Nat) (m : DWord) (v : VVal) : (s.setV g k n m v).slack = s.slack := rfl
@[simp] theorem State.setV_left (g k n : Nat) (m : DWord) (v : VVal) : (s.setV g k n m v).left = s.left := rfl
@[simp] theorem State.setV_fe (g k n : Nat) (m : DWord) (v : VVal) : (s.setV g k n m v).fe = s.fe := rfl
@[simp] theorem State.setV_locals (g k n : Nat) (m : DWord) (v : VVal) : (s.setV g k n m v).locals = s.locals := rfl
@[simp] theorem State.setV_ports (g k n : Nat) (m : DWord) (v : VVal) : (s.setV g k n m v).ports = s.ports := rfl
@[simp] theorem State.setV_lines (g k n : Nat) (m : DWord) (v : VVal) : (s.setV g k n m v).lines = s.lines := rfl
@[simp] theorem State.setV_ctl (g k n : Nat) (m : DWord) (v : VVal) : (s.setV g k n m v).ctl = s.ctl := rfl
@[simp] theorem State.setV_out (g k n : Nat) (m : DWord) (v : VVal) : (s.setV g k n m v).out = s.out := rfl
@[simp] theorem State.setV_said (g k n : Nat) (m : DWord) (v : VVal) : (s.setV g k n m v).said = s.said := rfl

-- setPad
@[simp] theorem State.setPad_now (g o : Nat) (b : Byte) : (s.setPad g o b).now = s.now := rfl
@[simp] theorem State.setPad_lags (g o : Nat) (b : Byte) : (s.setPad g o b).lags = s.lags := rfl
@[simp] theorem State.setPad_nextId (g o : Nat) (b : Byte) : (s.setPad g o b).nextId = s.nextId := rfl
@[simp] theorem State.setPad_freeCtr (g o : Nat) (b : Byte) : (s.setPad g o b).freeCtr = s.freeCtr := rfl
@[simp] theorem State.setPad_agenda (g o : Nat) (b : Byte) : (s.setPad g o b).agenda = s.agenda := rfl
@[simp] theorem State.setPad_actor (g o : Nat) (b : Byte) : (s.setPad g o b).actor = s.actor := rfl
@[simp] theorem State.setPad_rr (g o : Nat) (b : Byte) : (s.setPad g o b).rr = s.rr := rfl
@[simp] theorem State.setPad_fibres (g o : Nat) (b : Byte) : (s.setPad g o b).fibres = s.fibres := rfl
@[simp] theorem State.setPad_slots (g o : Nat) (b : Byte) : (s.setPad g o b).slots = s.slots := rfl
@[simp] theorem State.setPad_clusters (g o : Nat) (b : Byte) : (s.setPad g o b).clusters = s.clusters := rfl
@[simp] theorem State.setPad_grids (g o : Nat) (b : Byte) : (s.setPad g o b).grids = s.grids := rfl
@[simp] theorem State.setPad_queues (g o : Nat) (b : Byte) : (s.setPad g o b).queues = s.queues := rfl
@[simp] theorem State.setPad_ctxs (g o : Nat) (b : Byte) : (s.setPad g o b).ctxs = s.ctxs := rfl
@[simp] theorem State.setPad_reserved (g o : Nat) (b : Byte) : (s.setPad g o b).reserved = s.reserved := rfl
@[simp] theorem State.setPad_lastPlaced (g o : Nat) (b : Byte) : (s.setPad g o b).lastPlaced = s.lastPlaced := rfl
@[simp] theorem State.setPad_lastIssue (g o : Nat) (b : Byte) : (s.setPad g o b).lastIssue = s.lastIssue := rfl
@[simp] theorem State.setPad_forwards (g o : Nat) (b : Byte) : (s.setPad g o b).forwards = s.forwards := rfl
@[simp] theorem State.setPad_savedRuns (g o : Nat) (b : Byte) : (s.setPad g o b).savedRuns = s.savedRuns := rfl
@[simp] theorem State.setPad_ops (g o : Nat) (b : Byte) : (s.setPad g o b).ops = s.ops := rfl
@[simp] theorem State.setPad_cus (g o : Nat) (b : Byte) : (s.setPad g o b).cus = s.cus := rfl
@[simp] theorem State.setPad_mons (g o : Nat) (b : Byte) : (s.setPad g o b).mons = s.mons := rfl
@[simp] theorem State.setPad_ase (g o : Nat) (b : Byte) : (s.setPad g o b).ase = s.ase := rfl
@[simp] theorem State.setPad_ring (g o : Nat) (b : Byte) : (s.setPad g o b).ring = s.ring := rfl
@[simp] theorem State.setPad_invs (g o : Nat) (b : Byte) : (s.setPad g o b).invs = s.invs := rfl
@[simp] theorem State.setPad_mem (g o : Nat) (b : Byte) : (s.setPad g o b).mem = s.mem := rfl
@[simp] theorem State.setPad_sects (g o : Nat) (b : Byte) : (s.setPad g o b).sects = s.sects := rfl
@[simp] theorem State.setPad_guards (g o : Nat) (b : Byte) : (s.setPad g o b).guards = s.guards := rfl
@[simp] theorem State.setPad_owners (g o : Nat) (b : Byte) : (s.setPad g o b).owners = s.owners := rfl
@[simp] theorem State.setPad_poison (g o : Nat) (b : Byte) : (s.setPad g o b).poison = s.poison := rfl
@[simp] theorem State.setPad_peerL2 (g o : Nat) (b : Byte) : (s.setPad g o b).peerL2 = s.peerL2 := rfl
@[simp] theorem State.setPad_slack (g o : Nat) (b : Byte) : (s.setPad g o b).slack = s.slack := rfl
@[simp] theorem State.setPad_left (g o : Nat) (b : Byte) : (s.setPad g o b).left = s.left := rfl
@[simp] theorem State.setPad_fe (g o : Nat) (b : Byte) : (s.setPad g o b).fe = s.fe := rfl
@[simp] theorem State.setPad_locals (g o : Nat) (b : Byte) : (s.setPad g o b).locals = s.locals := rfl
@[simp] theorem State.setPad_ports (g o : Nat) (b : Byte) : (s.setPad g o b).ports = s.ports := rfl
@[simp] theorem State.setPad_lines (g o : Nat) (b : Byte) : (s.setPad g o b).lines = s.lines := rfl
@[simp] theorem State.setPad_ctl (g o : Nat) (b : Byte) : (s.setPad g o b).ctl = s.ctl := rfl
@[simp] theorem State.setPad_out (g o : Nat) (b : Byte) : (s.setPad g o b).out = s.out := rfl
@[simp] theorem State.setPad_said (g o : Nat) (b : Byte) : (s.setPad g o b).said = s.said := rfl

-- setPtByte
@[simp] theorem State.setPtByte_now (g o : Nat) (b : Byte) : (s.setPtByte g o b).now = s.now := rfl
@[simp] theorem State.setPtByte_lags (g o : Nat) (b : Byte) : (s.setPtByte g o b).lags = s.lags := rfl
@[simp] theorem State.setPtByte_nextId (g o : Nat) (b : Byte) : (s.setPtByte g o b).nextId = s.nextId := rfl
@[simp] theorem State.setPtByte_freeCtr (g o : Nat) (b : Byte) : (s.setPtByte g o b).freeCtr = s.freeCtr := rfl
@[simp] theorem State.setPtByte_agenda (g o : Nat) (b : Byte) : (s.setPtByte g o b).agenda = s.agenda := rfl
@[simp] theorem State.setPtByte_actor (g o : Nat) (b : Byte) : (s.setPtByte g o b).actor = s.actor := rfl
@[simp] theorem State.setPtByte_rr (g o : Nat) (b : Byte) : (s.setPtByte g o b).rr = s.rr := rfl
@[simp] theorem State.setPtByte_fibres (g o : Nat) (b : Byte) : (s.setPtByte g o b).fibres = s.fibres := rfl
@[simp] theorem State.setPtByte_slots (g o : Nat) (b : Byte) : (s.setPtByte g o b).slots = s.slots := rfl
@[simp] theorem State.setPtByte_clusters (g o : Nat) (b : Byte) : (s.setPtByte g o b).clusters = s.clusters := rfl
@[simp] theorem State.setPtByte_grids (g o : Nat) (b : Byte) : (s.setPtByte g o b).grids = s.grids := rfl
@[simp] theorem State.setPtByte_queues (g o : Nat) (b : Byte) : (s.setPtByte g o b).queues = s.queues := rfl
@[simp] theorem State.setPtByte_ctxs (g o : Nat) (b : Byte) : (s.setPtByte g o b).ctxs = s.ctxs := rfl
@[simp] theorem State.setPtByte_reserved (g o : Nat) (b : Byte) : (s.setPtByte g o b).reserved = s.reserved := rfl
@[simp] theorem State.setPtByte_lastPlaced (g o : Nat) (b : Byte) : (s.setPtByte g o b).lastPlaced = s.lastPlaced := rfl
@[simp] theorem State.setPtByte_lastIssue (g o : Nat) (b : Byte) : (s.setPtByte g o b).lastIssue = s.lastIssue := rfl
@[simp] theorem State.setPtByte_forwards (g o : Nat) (b : Byte) : (s.setPtByte g o b).forwards = s.forwards := rfl
@[simp] theorem State.setPtByte_savedRuns (g o : Nat) (b : Byte) : (s.setPtByte g o b).savedRuns = s.savedRuns := rfl
@[simp] theorem State.setPtByte_ops (g o : Nat) (b : Byte) : (s.setPtByte g o b).ops = s.ops := rfl
@[simp] theorem State.setPtByte_cus (g o : Nat) (b : Byte) : (s.setPtByte g o b).cus = s.cus := rfl
@[simp] theorem State.setPtByte_mons (g o : Nat) (b : Byte) : (s.setPtByte g o b).mons = s.mons := rfl
@[simp] theorem State.setPtByte_ase (g o : Nat) (b : Byte) : (s.setPtByte g o b).ase = s.ase := rfl
@[simp] theorem State.setPtByte_ring (g o : Nat) (b : Byte) : (s.setPtByte g o b).ring = s.ring := rfl
@[simp] theorem State.setPtByte_invs (g o : Nat) (b : Byte) : (s.setPtByte g o b).invs = s.invs := rfl
@[simp] theorem State.setPtByte_mem (g o : Nat) (b : Byte) : (s.setPtByte g o b).mem = s.mem := rfl
@[simp] theorem State.setPtByte_sects (g o : Nat) (b : Byte) : (s.setPtByte g o b).sects = s.sects := rfl
@[simp] theorem State.setPtByte_guards (g o : Nat) (b : Byte) : (s.setPtByte g o b).guards = s.guards := rfl
@[simp] theorem State.setPtByte_owners (g o : Nat) (b : Byte) : (s.setPtByte g o b).owners = s.owners := rfl
@[simp] theorem State.setPtByte_poison (g o : Nat) (b : Byte) : (s.setPtByte g o b).poison = s.poison := rfl
@[simp] theorem State.setPtByte_peerL2 (g o : Nat) (b : Byte) : (s.setPtByte g o b).peerL2 = s.peerL2 := rfl
@[simp] theorem State.setPtByte_slack (g o : Nat) (b : Byte) : (s.setPtByte g o b).slack = s.slack := rfl
@[simp] theorem State.setPtByte_left (g o : Nat) (b : Byte) : (s.setPtByte g o b).left = s.left := rfl
@[simp] theorem State.setPtByte_fe (g o : Nat) (b : Byte) : (s.setPtByte g o b).fe = s.fe := rfl
@[simp] theorem State.setPtByte_locals (g o : Nat) (b : Byte) : (s.setPtByte g o b).locals = s.locals := rfl
@[simp] theorem State.setPtByte_ports (g o : Nat) (b : Byte) : (s.setPtByte g o b).ports = s.ports := rfl
@[simp] theorem State.setPtByte_lines (g o : Nat) (b : Byte) : (s.setPtByte g o b).lines = s.lines := rfl
@[simp] theorem State.setPtByte_ctl (g o : Nat) (b : Byte) : (s.setPtByte g o b).ctl = s.ctl := rfl
@[simp] theorem State.setPtByte_out (g o : Nat) (b : Byte) : (s.setPtByte g o b).out = s.out := rfl
@[simp] theorem State.setPtByte_said (g o : Nat) (b : Byte) : (s.setPtByte g o b).said = s.said := rfl

-- setOp
@[simp] theorem State.setOp_now (o : Op) : (s.setOp o).now = s.now := rfl
@[simp] theorem State.setOp_lags (o : Op) : (s.setOp o).lags = s.lags := rfl
@[simp] theorem State.setOp_nextId (o : Op) : (s.setOp o).nextId = s.nextId := rfl
@[simp] theorem State.setOp_freeCtr (o : Op) : (s.setOp o).freeCtr = s.freeCtr := rfl
@[simp] theorem State.setOp_agenda (o : Op) : (s.setOp o).agenda = s.agenda := rfl
@[simp] theorem State.setOp_actor (o : Op) : (s.setOp o).actor = s.actor := rfl
@[simp] theorem State.setOp_rr (o : Op) : (s.setOp o).rr = s.rr := rfl
@[simp] theorem State.setOp_fibres (o : Op) : (s.setOp o).fibres = s.fibres := rfl
@[simp] theorem State.setOp_slots (o : Op) : (s.setOp o).slots = s.slots := rfl
@[simp] theorem State.setOp_wgs (o : Op) : (s.setOp o).wgs = s.wgs := rfl
@[simp] theorem State.setOp_clusters (o : Op) : (s.setOp o).clusters = s.clusters := rfl
@[simp] theorem State.setOp_grids (o : Op) : (s.setOp o).grids = s.grids := rfl
@[simp] theorem State.setOp_queues (o : Op) : (s.setOp o).queues = s.queues := rfl
@[simp] theorem State.setOp_ctxs (o : Op) : (s.setOp o).ctxs = s.ctxs := rfl
@[simp] theorem State.setOp_reserved (o : Op) : (s.setOp o).reserved = s.reserved := rfl
@[simp] theorem State.setOp_lastPlaced (o : Op) : (s.setOp o).lastPlaced = s.lastPlaced := rfl
@[simp] theorem State.setOp_lastIssue (o : Op) : (s.setOp o).lastIssue = s.lastIssue := rfl
@[simp] theorem State.setOp_forwards (o : Op) : (s.setOp o).forwards = s.forwards := rfl
@[simp] theorem State.setOp_savedRuns (o : Op) : (s.setOp o).savedRuns = s.savedRuns := rfl
@[simp] theorem State.setOp_cus (o : Op) : (s.setOp o).cus = s.cus := rfl
@[simp] theorem State.setOp_mons (o : Op) : (s.setOp o).mons = s.mons := rfl
@[simp] theorem State.setOp_ase (o : Op) : (s.setOp o).ase = s.ase := rfl
@[simp] theorem State.setOp_ring (o : Op) : (s.setOp o).ring = s.ring := rfl
@[simp] theorem State.setOp_invs (o : Op) : (s.setOp o).invs = s.invs := rfl
@[simp] theorem State.setOp_mem (o : Op) : (s.setOp o).mem = s.mem := rfl
@[simp] theorem State.setOp_sects (o : Op) : (s.setOp o).sects = s.sects := rfl
@[simp] theorem State.setOp_guards (o : Op) : (s.setOp o).guards = s.guards := rfl
@[simp] theorem State.setOp_owners (o : Op) : (s.setOp o).owners = s.owners := rfl
@[simp] theorem State.setOp_poison (o : Op) : (s.setOp o).poison = s.poison := rfl
@[simp] theorem State.setOp_peerL2 (o : Op) : (s.setOp o).peerL2 = s.peerL2 := rfl
@[simp] theorem State.setOp_slack (o : Op) : (s.setOp o).slack = s.slack := rfl
@[simp] theorem State.setOp_left (o : Op) : (s.setOp o).left = s.left := rfl
@[simp] theorem State.setOp_fe (o : Op) : (s.setOp o).fe = s.fe := rfl
@[simp] theorem State.setOp_locals (o : Op) : (s.setOp o).locals = s.locals := rfl
@[simp] theorem State.setOp_ports (o : Op) : (s.setOp o).ports = s.ports := rfl
@[simp] theorem State.setOp_lines (o : Op) : (s.setOp o).lines = s.lines := rfl
@[simp] theorem State.setOp_ctl (o : Op) : (s.setOp o).ctl = s.ctl := rfl
@[simp] theorem State.setOp_out (o : Op) : (s.setOp o).out = s.out := rfl
@[simp] theorem State.setOp_said (o : Op) : (s.setOp o).said = s.said := rfl

-- dropOp
@[simp] theorem State.dropOp_now (n : Nat) : (s.dropOp n).now = s.now := rfl
@[simp] theorem State.dropOp_lags (n : Nat) : (s.dropOp n).lags = s.lags := rfl
@[simp] theorem State.dropOp_nextId (n : Nat) : (s.dropOp n).nextId = s.nextId := rfl
@[simp] theorem State.dropOp_freeCtr (n : Nat) : (s.dropOp n).freeCtr = s.freeCtr := rfl
@[simp] theorem State.dropOp_agenda (n : Nat) : (s.dropOp n).agenda = s.agenda := rfl
@[simp] theorem State.dropOp_actor (n : Nat) : (s.dropOp n).actor = s.actor := rfl
@[simp] theorem State.dropOp_rr (n : Nat) : (s.dropOp n).rr = s.rr := rfl
@[simp] theorem State.dropOp_fibres (n : Nat) : (s.dropOp n).fibres = s.fibres := rfl
@[simp] theorem State.dropOp_slots (n : Nat) : (s.dropOp n).slots = s.slots := rfl
@[simp] theorem State.dropOp_wgs (n : Nat) : (s.dropOp n).wgs = s.wgs := rfl
@[simp] theorem State.dropOp_clusters (n : Nat) : (s.dropOp n).clusters = s.clusters := rfl
@[simp] theorem State.dropOp_grids (n : Nat) : (s.dropOp n).grids = s.grids := rfl
@[simp] theorem State.dropOp_queues (n : Nat) : (s.dropOp n).queues = s.queues := rfl
@[simp] theorem State.dropOp_ctxs (n : Nat) : (s.dropOp n).ctxs = s.ctxs := rfl
@[simp] theorem State.dropOp_reserved (n : Nat) : (s.dropOp n).reserved = s.reserved := rfl
@[simp] theorem State.dropOp_lastPlaced (n : Nat) : (s.dropOp n).lastPlaced = s.lastPlaced := rfl
@[simp] theorem State.dropOp_lastIssue (n : Nat) : (s.dropOp n).lastIssue = s.lastIssue := rfl
@[simp] theorem State.dropOp_forwards (n : Nat) : (s.dropOp n).forwards = s.forwards := rfl
@[simp] theorem State.dropOp_savedRuns (n : Nat) : (s.dropOp n).savedRuns = s.savedRuns := rfl
@[simp] theorem State.dropOp_cus (n : Nat) : (s.dropOp n).cus = s.cus := rfl
@[simp] theorem State.dropOp_mons (n : Nat) : (s.dropOp n).mons = s.mons := rfl
@[simp] theorem State.dropOp_ase (n : Nat) : (s.dropOp n).ase = s.ase := rfl
@[simp] theorem State.dropOp_ring (n : Nat) : (s.dropOp n).ring = s.ring := rfl
@[simp] theorem State.dropOp_invs (n : Nat) : (s.dropOp n).invs = s.invs := rfl
@[simp] theorem State.dropOp_mem (n : Nat) : (s.dropOp n).mem = s.mem := rfl
@[simp] theorem State.dropOp_sects (n : Nat) : (s.dropOp n).sects = s.sects := rfl
@[simp] theorem State.dropOp_guards (n : Nat) : (s.dropOp n).guards = s.guards := rfl
@[simp] theorem State.dropOp_owners (n : Nat) : (s.dropOp n).owners = s.owners := rfl
@[simp] theorem State.dropOp_poison (n : Nat) : (s.dropOp n).poison = s.poison := rfl
@[simp] theorem State.dropOp_peerL2 (n : Nat) : (s.dropOp n).peerL2 = s.peerL2 := rfl
@[simp] theorem State.dropOp_slack (n : Nat) : (s.dropOp n).slack = s.slack := rfl
@[simp] theorem State.dropOp_left (n : Nat) : (s.dropOp n).left = s.left := rfl
@[simp] theorem State.dropOp_fe (n : Nat) : (s.dropOp n).fe = s.fe := rfl
@[simp] theorem State.dropOp_locals (n : Nat) : (s.dropOp n).locals = s.locals := rfl
@[simp] theorem State.dropOp_ports (n : Nat) : (s.dropOp n).ports = s.ports := rfl
@[simp] theorem State.dropOp_lines (n : Nat) : (s.dropOp n).lines = s.lines := rfl
@[simp] theorem State.dropOp_ctl (n : Nat) : (s.dropOp n).ctl = s.ctl := rfl
@[simp] theorem State.dropOp_out (n : Nat) : (s.dropOp n).out = s.out := rfl
@[simp] theorem State.dropOp_said (n : Nat) : (s.dropOp n).said = s.said := rfl

-- addOp
@[simp] theorem State.addOp_now (o : Op) : (s.addOp o).now = s.now := rfl
@[simp] theorem State.addOp_lags (o : Op) : (s.addOp o).lags = s.lags := rfl
@[simp] theorem State.addOp_freeCtr (o : Op) : (s.addOp o).freeCtr = s.freeCtr := rfl
@[simp] theorem State.addOp_agenda (o : Op) : (s.addOp o).agenda = s.agenda := rfl
@[simp] theorem State.addOp_actor (o : Op) : (s.addOp o).actor = s.actor := rfl
@[simp] theorem State.addOp_rr (o : Op) : (s.addOp o).rr = s.rr := rfl
@[simp] theorem State.addOp_fibres (o : Op) : (s.addOp o).fibres = s.fibres := rfl
@[simp] theorem State.addOp_slots (o : Op) : (s.addOp o).slots = s.slots := rfl
@[simp] theorem State.addOp_wgs (o : Op) : (s.addOp o).wgs = s.wgs := rfl
@[simp] theorem State.addOp_clusters (o : Op) : (s.addOp o).clusters = s.clusters := rfl
@[simp] theorem State.addOp_grids (o : Op) : (s.addOp o).grids = s.grids := rfl
@[simp] theorem State.addOp_queues (o : Op) : (s.addOp o).queues = s.queues := rfl
@[simp] theorem State.addOp_ctxs (o : Op) : (s.addOp o).ctxs = s.ctxs := rfl
@[simp] theorem State.addOp_reserved (o : Op) : (s.addOp o).reserved = s.reserved := rfl
@[simp] theorem State.addOp_lastPlaced (o : Op) : (s.addOp o).lastPlaced = s.lastPlaced := rfl
@[simp] theorem State.addOp_lastIssue (o : Op) : (s.addOp o).lastIssue = s.lastIssue := rfl
@[simp] theorem State.addOp_forwards (o : Op) : (s.addOp o).forwards = s.forwards := rfl
@[simp] theorem State.addOp_savedRuns (o : Op) : (s.addOp o).savedRuns = s.savedRuns := rfl
@[simp] theorem State.addOp_cus (o : Op) : (s.addOp o).cus = s.cus := rfl
@[simp] theorem State.addOp_mons (o : Op) : (s.addOp o).mons = s.mons := rfl
@[simp] theorem State.addOp_ase (o : Op) : (s.addOp o).ase = s.ase := rfl
@[simp] theorem State.addOp_ring (o : Op) : (s.addOp o).ring = s.ring := rfl
@[simp] theorem State.addOp_invs (o : Op) : (s.addOp o).invs = s.invs := rfl
@[simp] theorem State.addOp_mem (o : Op) : (s.addOp o).mem = s.mem := rfl
@[simp] theorem State.addOp_sects (o : Op) : (s.addOp o).sects = s.sects := rfl
@[simp] theorem State.addOp_guards (o : Op) : (s.addOp o).guards = s.guards := rfl
@[simp] theorem State.addOp_owners (o : Op) : (s.addOp o).owners = s.owners := rfl
@[simp] theorem State.addOp_poison (o : Op) : (s.addOp o).poison = s.poison := rfl
@[simp] theorem State.addOp_peerL2 (o : Op) : (s.addOp o).peerL2 = s.peerL2 := rfl
@[simp] theorem State.addOp_slack (o : Op) : (s.addOp o).slack = s.slack := rfl
@[simp] theorem State.addOp_left (o : Op) : (s.addOp o).left = s.left := rfl
@[simp] theorem State.addOp_fe (o : Op) : (s.addOp o).fe = s.fe := rfl
@[simp] theorem State.addOp_locals (o : Op) : (s.addOp o).locals = s.locals := rfl
@[simp] theorem State.addOp_ports (o : Op) : (s.addOp o).ports = s.ports := rfl
@[simp] theorem State.addOp_lines (o : Op) : (s.addOp o).lines = s.lines := rfl
@[simp] theorem State.addOp_ctl (o : Op) : (s.addOp o).ctl = s.ctl := rfl
@[simp] theorem State.addOp_out (o : Op) : (s.addOp o).out = s.out := rfl
@[simp] theorem State.addOp_said (o : Op) : (s.addOp o).said = s.said := rfl

-- countEv
@[simp] theorem State.countEv_now (c e n : Nat) (x : Option (BitVec 12)) : (s.countEv c e n x).now = s.now := rfl
@[simp] theorem State.countEv_lags (c e n : Nat) (x : Option (BitVec 12)) : (s.countEv c e n x).lags = s.lags := rfl
@[simp] theorem State.countEv_nextId (c e n : Nat) (x : Option (BitVec 12)) : (s.countEv c e n x).nextId = s.nextId := rfl
@[simp] theorem State.countEv_freeCtr (c e n : Nat) (x : Option (BitVec 12)) : (s.countEv c e n x).freeCtr = s.freeCtr := rfl
@[simp] theorem State.countEv_agenda (c e n : Nat) (x : Option (BitVec 12)) : (s.countEv c e n x).agenda = s.agenda := rfl
@[simp] theorem State.countEv_actor (c e n : Nat) (x : Option (BitVec 12)) : (s.countEv c e n x).actor = s.actor := rfl
@[simp] theorem State.countEv_rr (c e n : Nat) (x : Option (BitVec 12)) : (s.countEv c e n x).rr = s.rr := rfl
@[simp] theorem State.countEv_fibres (c e n : Nat) (x : Option (BitVec 12)) : (s.countEv c e n x).fibres = s.fibres := rfl
@[simp] theorem State.countEv_slots (c e n : Nat) (x : Option (BitVec 12)) : (s.countEv c e n x).slots = s.slots := rfl
@[simp] theorem State.countEv_wgs (c e n : Nat) (x : Option (BitVec 12)) : (s.countEv c e n x).wgs = s.wgs := rfl
@[simp] theorem State.countEv_clusters (c e n : Nat) (x : Option (BitVec 12)) : (s.countEv c e n x).clusters = s.clusters := rfl
@[simp] theorem State.countEv_grids (c e n : Nat) (x : Option (BitVec 12)) : (s.countEv c e n x).grids = s.grids := rfl
@[simp] theorem State.countEv_queues (c e n : Nat) (x : Option (BitVec 12)) : (s.countEv c e n x).queues = s.queues := rfl
@[simp] theorem State.countEv_ctxs (c e n : Nat) (x : Option (BitVec 12)) : (s.countEv c e n x).ctxs = s.ctxs := rfl
@[simp] theorem State.countEv_reserved (c e n : Nat) (x : Option (BitVec 12)) : (s.countEv c e n x).reserved = s.reserved := rfl
@[simp] theorem State.countEv_lastPlaced (c e n : Nat) (x : Option (BitVec 12)) : (s.countEv c e n x).lastPlaced = s.lastPlaced := rfl
@[simp] theorem State.countEv_lastIssue (c e n : Nat) (x : Option (BitVec 12)) : (s.countEv c e n x).lastIssue = s.lastIssue := rfl
@[simp] theorem State.countEv_forwards (c e n : Nat) (x : Option (BitVec 12)) : (s.countEv c e n x).forwards = s.forwards := rfl
@[simp] theorem State.countEv_savedRuns (c e n : Nat) (x : Option (BitVec 12)) : (s.countEv c e n x).savedRuns = s.savedRuns := rfl
@[simp] theorem State.countEv_ops (c e n : Nat) (x : Option (BitVec 12)) : (s.countEv c e n x).ops = s.ops := rfl
@[simp] theorem State.countEv_mons (c e n : Nat) (x : Option (BitVec 12)) : (s.countEv c e n x).mons = s.mons := rfl
@[simp] theorem State.countEv_ase (c e n : Nat) (x : Option (BitVec 12)) : (s.countEv c e n x).ase = s.ase := rfl
@[simp] theorem State.countEv_ring (c e n : Nat) (x : Option (BitVec 12)) : (s.countEv c e n x).ring = s.ring := rfl
@[simp] theorem State.countEv_invs (c e n : Nat) (x : Option (BitVec 12)) : (s.countEv c e n x).invs = s.invs := rfl
@[simp] theorem State.countEv_mem (c e n : Nat) (x : Option (BitVec 12)) : (s.countEv c e n x).mem = s.mem := rfl
@[simp] theorem State.countEv_sects (c e n : Nat) (x : Option (BitVec 12)) : (s.countEv c e n x).sects = s.sects := rfl
@[simp] theorem State.countEv_guards (c e n : Nat) (x : Option (BitVec 12)) : (s.countEv c e n x).guards = s.guards := rfl
@[simp] theorem State.countEv_owners (c e n : Nat) (x : Option (BitVec 12)) : (s.countEv c e n x).owners = s.owners := rfl
@[simp] theorem State.countEv_poison (c e n : Nat) (x : Option (BitVec 12)) : (s.countEv c e n x).poison = s.poison := rfl
@[simp] theorem State.countEv_peerL2 (c e n : Nat) (x : Option (BitVec 12)) : (s.countEv c e n x).peerL2 = s.peerL2 := rfl
@[simp] theorem State.countEv_slack (c e n : Nat) (x : Option (BitVec 12)) : (s.countEv c e n x).slack = s.slack := rfl
@[simp] theorem State.countEv_left (c e n : Nat) (x : Option (BitVec 12)) : (s.countEv c e n x).left = s.left := rfl
@[simp] theorem State.countEv_fe (c e n : Nat) (x : Option (BitVec 12)) : (s.countEv c e n x).fe = s.fe := rfl
@[simp] theorem State.countEv_locals (c e n : Nat) (x : Option (BitVec 12)) : (s.countEv c e n x).locals = s.locals := rfl
@[simp] theorem State.countEv_ports (c e n : Nat) (x : Option (BitVec 12)) : (s.countEv c e n x).ports = s.ports := rfl
@[simp] theorem State.countEv_lines (c e n : Nat) (x : Option (BitVec 12)) : (s.countEv c e n x).lines = s.lines := rfl
@[simp] theorem State.countEv_ctl (c e n : Nat) (x : Option (BitVec 12)) : (s.countEv c e n x).ctl = s.ctl := rfl
@[simp] theorem State.countEv_out (c e n : Nat) (x : Option (BitVec 12)) : (s.countEv c e n x).out = s.out := rfl
@[simp] theorem State.countEv_said (c e n : Nat) (x : Option (BitVec 12)) : (s.countEv c e n x).said = s.said := rfl

-- waitHere
@[simp] theorem State.waitHere_now : (s.waitHere).now = s.now := rfl
@[simp] theorem State.waitHere_lags : (s.waitHere).lags = s.lags := rfl
@[simp] theorem State.waitHere_nextId : (s.waitHere).nextId = s.nextId := rfl
@[simp] theorem State.waitHere_freeCtr : (s.waitHere).freeCtr = s.freeCtr := rfl
@[simp] theorem State.waitHere_agenda : (s.waitHere).agenda = s.agenda := rfl
@[simp] theorem State.waitHere_actor : (s.waitHere).actor = s.actor := rfl
@[simp] theorem State.waitHere_rr : (s.waitHere).rr = s.rr := rfl
@[simp] theorem State.waitHere_slots : (s.waitHere).slots = s.slots := rfl
@[simp] theorem State.waitHere_wgs : (s.waitHere).wgs = s.wgs := rfl
@[simp] theorem State.waitHere_clusters : (s.waitHere).clusters = s.clusters := rfl
@[simp] theorem State.waitHere_grids : (s.waitHere).grids = s.grids := rfl
@[simp] theorem State.waitHere_queues : (s.waitHere).queues = s.queues := rfl
@[simp] theorem State.waitHere_ctxs : (s.waitHere).ctxs = s.ctxs := rfl
@[simp] theorem State.waitHere_reserved : (s.waitHere).reserved = s.reserved := rfl
@[simp] theorem State.waitHere_lastPlaced : (s.waitHere).lastPlaced = s.lastPlaced := rfl
@[simp] theorem State.waitHere_lastIssue : (s.waitHere).lastIssue = s.lastIssue := rfl
@[simp] theorem State.waitHere_forwards : (s.waitHere).forwards = s.forwards := rfl
@[simp] theorem State.waitHere_savedRuns : (s.waitHere).savedRuns = s.savedRuns := rfl
@[simp] theorem State.waitHere_ops : (s.waitHere).ops = s.ops := rfl
@[simp] theorem State.waitHere_cus : (s.waitHere).cus = s.cus := rfl
@[simp] theorem State.waitHere_mons : (s.waitHere).mons = s.mons := rfl
@[simp] theorem State.waitHere_ase : (s.waitHere).ase = s.ase := rfl
@[simp] theorem State.waitHere_ring : (s.waitHere).ring = s.ring := rfl
@[simp] theorem State.waitHere_invs : (s.waitHere).invs = s.invs := rfl
@[simp] theorem State.waitHere_mem : (s.waitHere).mem = s.mem := rfl
@[simp] theorem State.waitHere_sects : (s.waitHere).sects = s.sects := rfl
@[simp] theorem State.waitHere_guards : (s.waitHere).guards = s.guards := rfl
@[simp] theorem State.waitHere_owners : (s.waitHere).owners = s.owners := rfl
@[simp] theorem State.waitHere_poison : (s.waitHere).poison = s.poison := rfl
@[simp] theorem State.waitHere_peerL2 : (s.waitHere).peerL2 = s.peerL2 := rfl
@[simp] theorem State.waitHere_slack : (s.waitHere).slack = s.slack := rfl
@[simp] theorem State.waitHere_left : (s.waitHere).left = s.left := rfl
@[simp] theorem State.waitHere_fe : (s.waitHere).fe = s.fe := rfl
@[simp] theorem State.waitHere_locals : (s.waitHere).locals = s.locals := rfl
@[simp] theorem State.waitHere_ports : (s.waitHere).ports = s.ports := rfl
@[simp] theorem State.waitHere_lines : (s.waitHere).lines = s.lines := rfl
@[simp] theorem State.waitHere_ctl : (s.waitHere).ctl = s.ctl := rfl
@[simp] theorem State.waitHere_out : (s.waitHere).out = s.out := rfl
@[simp] theorem State.waitHere_said : (s.waitHere).said = s.said := rfl

-- notifyFault
@[simp] theorem State.notifyFault_now (r : FRef) (fr : FaultRec) : (s.notifyFault r fr).now = s.now := rfl
@[simp] theorem State.notifyFault_lags (r : FRef) (fr : FaultRec) : (s.notifyFault r fr).lags = s.lags := rfl
@[simp] theorem State.notifyFault_nextId (r : FRef) (fr : FaultRec) : (s.notifyFault r fr).nextId = s.nextId := rfl
@[simp] theorem State.notifyFault_freeCtr (r : FRef) (fr : FaultRec) : (s.notifyFault r fr).freeCtr = s.freeCtr := rfl
@[simp] theorem State.notifyFault_agenda (r : FRef) (fr : FaultRec) : (s.notifyFault r fr).agenda = s.agenda := rfl
@[simp] theorem State.notifyFault_actor (r : FRef) (fr : FaultRec) : (s.notifyFault r fr).actor = s.actor := rfl
@[simp] theorem State.notifyFault_rr (r : FRef) (fr : FaultRec) : (s.notifyFault r fr).rr = s.rr := rfl
@[simp] theorem State.notifyFault_fibres (r : FRef) (fr : FaultRec) : (s.notifyFault r fr).fibres = s.fibres := rfl
@[simp] theorem State.notifyFault_slots (r : FRef) (fr : FaultRec) : (s.notifyFault r fr).slots = s.slots := rfl
@[simp] theorem State.notifyFault_wgs (r : FRef) (fr : FaultRec) : (s.notifyFault r fr).wgs = s.wgs := rfl
@[simp] theorem State.notifyFault_clusters (r : FRef) (fr : FaultRec) : (s.notifyFault r fr).clusters = s.clusters := rfl
@[simp] theorem State.notifyFault_grids (r : FRef) (fr : FaultRec) : (s.notifyFault r fr).grids = s.grids := rfl
@[simp] theorem State.notifyFault_queues (r : FRef) (fr : FaultRec) : (s.notifyFault r fr).queues = s.queues := rfl
@[simp] theorem State.notifyFault_ctxs (r : FRef) (fr : FaultRec) : (s.notifyFault r fr).ctxs = s.ctxs := rfl
@[simp] theorem State.notifyFault_reserved (r : FRef) (fr : FaultRec) : (s.notifyFault r fr).reserved = s.reserved := rfl
@[simp] theorem State.notifyFault_lastPlaced (r : FRef) (fr : FaultRec) : (s.notifyFault r fr).lastPlaced = s.lastPlaced := rfl
@[simp] theorem State.notifyFault_lastIssue (r : FRef) (fr : FaultRec) : (s.notifyFault r fr).lastIssue = s.lastIssue := rfl
@[simp] theorem State.notifyFault_forwards (r : FRef) (fr : FaultRec) : (s.notifyFault r fr).forwards = s.forwards := rfl
@[simp] theorem State.notifyFault_savedRuns (r : FRef) (fr : FaultRec) : (s.notifyFault r fr).savedRuns = s.savedRuns := rfl
@[simp] theorem State.notifyFault_ops (r : FRef) (fr : FaultRec) : (s.notifyFault r fr).ops = s.ops := rfl
@[simp] theorem State.notifyFault_cus (r : FRef) (fr : FaultRec) : (s.notifyFault r fr).cus = s.cus := rfl
@[simp] theorem State.notifyFault_mons (r : FRef) (fr : FaultRec) : (s.notifyFault r fr).mons = s.mons := rfl
@[simp] theorem State.notifyFault_ase (r : FRef) (fr : FaultRec) : (s.notifyFault r fr).ase = s.ase := rfl
@[simp] theorem State.notifyFault_ring (r : FRef) (fr : FaultRec) : (s.notifyFault r fr).ring = s.ring := rfl
@[simp] theorem State.notifyFault_invs (r : FRef) (fr : FaultRec) : (s.notifyFault r fr).invs = s.invs := rfl
@[simp] theorem State.notifyFault_mem (r : FRef) (fr : FaultRec) : (s.notifyFault r fr).mem = s.mem := rfl
@[simp] theorem State.notifyFault_sects (r : FRef) (fr : FaultRec) : (s.notifyFault r fr).sects = s.sects := rfl
@[simp] theorem State.notifyFault_guards (r : FRef) (fr : FaultRec) : (s.notifyFault r fr).guards = s.guards := rfl
@[simp] theorem State.notifyFault_owners (r : FRef) (fr : FaultRec) : (s.notifyFault r fr).owners = s.owners := rfl
@[simp] theorem State.notifyFault_poison (r : FRef) (fr : FaultRec) : (s.notifyFault r fr).poison = s.poison := rfl
@[simp] theorem State.notifyFault_peerL2 (r : FRef) (fr : FaultRec) : (s.notifyFault r fr).peerL2 = s.peerL2 := rfl
@[simp] theorem State.notifyFault_slack (r : FRef) (fr : FaultRec) : (s.notifyFault r fr).slack = s.slack := rfl
@[simp] theorem State.notifyFault_left (r : FRef) (fr : FaultRec) : (s.notifyFault r fr).left = s.left := rfl
@[simp] theorem State.notifyFault_fe (r : FRef) (fr : FaultRec) : (s.notifyFault r fr).fe = s.fe := rfl
@[simp] theorem State.notifyFault_locals (r : FRef) (fr : FaultRec) : (s.notifyFault r fr).locals = s.locals := rfl
@[simp] theorem State.notifyFault_ports (r : FRef) (fr : FaultRec) : (s.notifyFault r fr).ports = s.ports := rfl
@[simp] theorem State.notifyFault_lines (r : FRef) (fr : FaultRec) : (s.notifyFault r fr).lines = s.lines := rfl
@[simp] theorem State.notifyFault_ctl (r : FRef) (fr : FaultRec) : (s.notifyFault r fr).ctl = s.ctl := rfl
@[simp] theorem State.notifyFault_said (r : FRef) (fr : FaultRec) : (s.notifyFault r fr).said = s.said := rfl

-- share
@[simp] theorem State.share_now (a b : Nat) : (s.share a b).now = s.now := rfl
@[simp] theorem State.share_lags (a b : Nat) : (s.share a b).lags = s.lags := rfl
@[simp] theorem State.share_nextId (a b : Nat) : (s.share a b).nextId = s.nextId := rfl
@[simp] theorem State.share_freeCtr (a b : Nat) : (s.share a b).freeCtr = s.freeCtr := rfl
@[simp] theorem State.share_agenda (a b : Nat) : (s.share a b).agenda = s.agenda := rfl
@[simp] theorem State.share_actor (a b : Nat) : (s.share a b).actor = s.actor := rfl
@[simp] theorem State.share_rr (a b : Nat) : (s.share a b).rr = s.rr := rfl
@[simp] theorem State.share_fibres (a b : Nat) : (s.share a b).fibres = s.fibres := rfl
@[simp] theorem State.share_slots (a b : Nat) : (s.share a b).slots = s.slots := rfl
@[simp] theorem State.share_wgs (a b : Nat) : (s.share a b).wgs = s.wgs := rfl
@[simp] theorem State.share_clusters (a b : Nat) : (s.share a b).clusters = s.clusters := rfl
@[simp] theorem State.share_grids (a b : Nat) : (s.share a b).grids = s.grids := rfl
@[simp] theorem State.share_queues (a b : Nat) : (s.share a b).queues = s.queues := rfl
@[simp] theorem State.share_ctxs (a b : Nat) : (s.share a b).ctxs = s.ctxs := rfl
@[simp] theorem State.share_reserved (a b : Nat) : (s.share a b).reserved = s.reserved := rfl
@[simp] theorem State.share_lastPlaced (a b : Nat) : (s.share a b).lastPlaced = s.lastPlaced := rfl
@[simp] theorem State.share_lastIssue (a b : Nat) : (s.share a b).lastIssue = s.lastIssue := rfl
@[simp] theorem State.share_forwards (a b : Nat) : (s.share a b).forwards = s.forwards := rfl
@[simp] theorem State.share_savedRuns (a b : Nat) : (s.share a b).savedRuns = s.savedRuns := rfl
@[simp] theorem State.share_cus (a b : Nat) : (s.share a b).cus = s.cus := rfl
@[simp] theorem State.share_mons (a b : Nat) : (s.share a b).mons = s.mons := rfl
@[simp] theorem State.share_ase (a b : Nat) : (s.share a b).ase = s.ase := rfl
@[simp] theorem State.share_ring (a b : Nat) : (s.share a b).ring = s.ring := rfl
@[simp] theorem State.share_invs (a b : Nat) : (s.share a b).invs = s.invs := rfl
@[simp] theorem State.share_mem (a b : Nat) : (s.share a b).mem = s.mem := rfl
@[simp] theorem State.share_sects (a b : Nat) : (s.share a b).sects = s.sects := rfl
@[simp] theorem State.share_guards (a b : Nat) : (s.share a b).guards = s.guards := rfl
@[simp] theorem State.share_owners (a b : Nat) : (s.share a b).owners = s.owners := rfl
@[simp] theorem State.share_poison (a b : Nat) : (s.share a b).poison = s.poison := rfl
@[simp] theorem State.share_peerL2 (a b : Nat) : (s.share a b).peerL2 = s.peerL2 := rfl
@[simp] theorem State.share_slack (a b : Nat) : (s.share a b).slack = s.slack := rfl
@[simp] theorem State.share_left (a b : Nat) : (s.share a b).left = s.left := rfl
@[simp] theorem State.share_fe (a b : Nat) : (s.share a b).fe = s.fe := rfl
@[simp] theorem State.share_locals (a b : Nat) : (s.share a b).locals = s.locals := rfl
@[simp] theorem State.share_ports (a b : Nat) : (s.share a b).ports = s.ports := rfl
@[simp] theorem State.share_lines (a b : Nat) : (s.share a b).lines = s.lines := rfl
@[simp] theorem State.share_ctl (a b : Nat) : (s.share a b).ctl = s.ctl := rfl
@[simp] theorem State.share_out (a b : Nat) : (s.share a b).out = s.out := rfl
@[simp] theorem State.share_said (a b : Nat) : (s.share a b).said = s.said := rfl

-- dropDead
@[simp] theorem State.dropDead_now (r : FRef) : (s.dropDead r).now = s.now := by unfold State.dropDead; dsimp only; split <;> rfl
@[simp] theorem State.dropDead_lags (r : FRef) : (s.dropDead r).lags = s.lags := by unfold State.dropDead; dsimp only; split <;> rfl
@[simp] theorem State.dropDead_nextId (r : FRef) : (s.dropDead r).nextId = s.nextId := by unfold State.dropDead; dsimp only; split <;> rfl
@[simp] theorem State.dropDead_freeCtr (r : FRef) : (s.dropDead r).freeCtr = s.freeCtr := by unfold State.dropDead; dsimp only; split <;> rfl
@[simp] theorem State.dropDead_agenda (r : FRef) : (s.dropDead r).agenda = s.agenda := by unfold State.dropDead; dsimp only; split <;> rfl
@[simp] theorem State.dropDead_actor (r : FRef) : (s.dropDead r).actor = s.actor := by unfold State.dropDead; dsimp only; split <;> rfl
@[simp] theorem State.dropDead_rr (r : FRef) : (s.dropDead r).rr = s.rr := by unfold State.dropDead; dsimp only; split <;> rfl
@[simp] theorem State.dropDead_fibres (r : FRef) : (s.dropDead r).fibres = s.fibres := by unfold State.dropDead; dsimp only; split <;> rfl
@[simp] theorem State.dropDead_wgs (r : FRef) : (s.dropDead r).wgs = s.wgs := by unfold State.dropDead; dsimp only; split <;> rfl
@[simp] theorem State.dropDead_clusters (r : FRef) : (s.dropDead r).clusters = s.clusters := by unfold State.dropDead; dsimp only; split <;> rfl
@[simp] theorem State.dropDead_grids (r : FRef) : (s.dropDead r).grids = s.grids := by unfold State.dropDead; dsimp only; split <;> rfl
@[simp] theorem State.dropDead_queues (r : FRef) : (s.dropDead r).queues = s.queues := by unfold State.dropDead; dsimp only; split <;> rfl
@[simp] theorem State.dropDead_ctxs (r : FRef) : (s.dropDead r).ctxs = s.ctxs := by unfold State.dropDead; dsimp only; split <;> rfl
@[simp] theorem State.dropDead_reserved (r : FRef) : (s.dropDead r).reserved = s.reserved := by unfold State.dropDead; dsimp only; split <;> rfl
@[simp] theorem State.dropDead_lastPlaced (r : FRef) : (s.dropDead r).lastPlaced = s.lastPlaced := by unfold State.dropDead; dsimp only; split <;> rfl
@[simp] theorem State.dropDead_lastIssue (r : FRef) : (s.dropDead r).lastIssue = s.lastIssue := by unfold State.dropDead; dsimp only; split <;> rfl
@[simp] theorem State.dropDead_forwards (r : FRef) : (s.dropDead r).forwards = s.forwards := by unfold State.dropDead; dsimp only; split <;> rfl
@[simp] theorem State.dropDead_savedRuns (r : FRef) : (s.dropDead r).savedRuns = s.savedRuns := by unfold State.dropDead; dsimp only; split <;> rfl
@[simp] theorem State.dropDead_ops (r : FRef) : (s.dropDead r).ops = s.ops := by unfold State.dropDead; dsimp only; split <;> rfl
@[simp] theorem State.dropDead_cus (r : FRef) : (s.dropDead r).cus = s.cus := by unfold State.dropDead; dsimp only; split <;> rfl
@[simp] theorem State.dropDead_mons (r : FRef) : (s.dropDead r).mons = s.mons := by unfold State.dropDead; dsimp only; split <;> rfl
@[simp] theorem State.dropDead_ase (r : FRef) : (s.dropDead r).ase = s.ase := by unfold State.dropDead; dsimp only; split <;> rfl
@[simp] theorem State.dropDead_ring (r : FRef) : (s.dropDead r).ring = s.ring := by unfold State.dropDead; dsimp only; split <;> rfl
@[simp] theorem State.dropDead_invs (r : FRef) : (s.dropDead r).invs = s.invs := by unfold State.dropDead; dsimp only; split <;> rfl
@[simp] theorem State.dropDead_mem (r : FRef) : (s.dropDead r).mem = s.mem := by unfold State.dropDead; dsimp only; split <;> rfl
@[simp] theorem State.dropDead_sects (r : FRef) : (s.dropDead r).sects = s.sects := by unfold State.dropDead; dsimp only; split <;> rfl
@[simp] theorem State.dropDead_guards (r : FRef) : (s.dropDead r).guards = s.guards := by unfold State.dropDead; dsimp only; split <;> rfl
@[simp] theorem State.dropDead_owners (r : FRef) : (s.dropDead r).owners = s.owners := by unfold State.dropDead; dsimp only; split <;> rfl
@[simp] theorem State.dropDead_poison (r : FRef) : (s.dropDead r).poison = s.poison := by unfold State.dropDead; dsimp only; split <;> rfl
@[simp] theorem State.dropDead_peerL2 (r : FRef) : (s.dropDead r).peerL2 = s.peerL2 := by unfold State.dropDead; dsimp only; split <;> rfl
@[simp] theorem State.dropDead_slack (r : FRef) : (s.dropDead r).slack = s.slack := by unfold State.dropDead; dsimp only; split <;> rfl
@[simp] theorem State.dropDead_left (r : FRef) : (s.dropDead r).left = s.left := by unfold State.dropDead; dsimp only; split <;> rfl
@[simp] theorem State.dropDead_fe (r : FRef) : (s.dropDead r).fe = s.fe := by unfold State.dropDead; dsimp only; split <;> rfl
@[simp] theorem State.dropDead_locals (r : FRef) : (s.dropDead r).locals = s.locals := by unfold State.dropDead; dsimp only; split <;> rfl
@[simp] theorem State.dropDead_ports (r : FRef) : (s.dropDead r).ports = s.ports := by unfold State.dropDead; dsimp only; split <;> rfl
@[simp] theorem State.dropDead_lines (r : FRef) : (s.dropDead r).lines = s.lines := by unfold State.dropDead; dsimp only; split <;> rfl
@[simp] theorem State.dropDead_ctl (r : FRef) : (s.dropDead r).ctl = s.ctl := by unfold State.dropDead; dsimp only; split <;> rfl
@[simp] theorem State.dropDead_out (r : FRef) : (s.dropDead r).out = s.out := by unfold State.dropDead; dsimp only; split <;> rfl
@[simp] theorem State.dropDead_said (r : FRef) : (s.dropDead r).said = s.said := by unfold State.dropDead; dsimp only; split <;> rfl

-- shedDead
@[simp] theorem State.shedDead_now (r : FRef) : (s.shedDead r).now = s.now := by unfold State.shedDead; dsimp only; split; exact s.dropDead_now r; rfl
@[simp] theorem State.shedDead_lags (r : FRef) : (s.shedDead r).lags = s.lags := by unfold State.shedDead; dsimp only; split; exact s.dropDead_lags r; rfl
@[simp] theorem State.shedDead_nextId (r : FRef) : (s.shedDead r).nextId = s.nextId := by unfold State.shedDead; dsimp only; split; exact s.dropDead_nextId r; rfl
@[simp] theorem State.shedDead_freeCtr (r : FRef) : (s.shedDead r).freeCtr = s.freeCtr := by unfold State.shedDead; dsimp only; split; exact s.dropDead_freeCtr r; rfl
@[simp] theorem State.shedDead_agenda (r : FRef) : (s.shedDead r).agenda = s.agenda := by unfold State.shedDead; dsimp only; split; exact s.dropDead_agenda r; rfl
@[simp] theorem State.shedDead_actor (r : FRef) : (s.shedDead r).actor = s.actor := by unfold State.shedDead; dsimp only; split; exact s.dropDead_actor r; rfl
@[simp] theorem State.shedDead_rr (r : FRef) : (s.shedDead r).rr = s.rr := by unfold State.shedDead; dsimp only; split; exact s.dropDead_rr r; rfl
@[simp] theorem State.shedDead_wgs (r : FRef) : (s.shedDead r).wgs = s.wgs := by unfold State.shedDead; dsimp only; split; exact s.dropDead_wgs r; rfl
@[simp] theorem State.shedDead_clusters (r : FRef) : (s.shedDead r).clusters = s.clusters := by unfold State.shedDead; dsimp only; split; exact s.dropDead_clusters r; rfl
@[simp] theorem State.shedDead_grids (r : FRef) : (s.shedDead r).grids = s.grids := by unfold State.shedDead; dsimp only; split; exact s.dropDead_grids r; rfl
@[simp] theorem State.shedDead_queues (r : FRef) : (s.shedDead r).queues = s.queues := by unfold State.shedDead; dsimp only; split; exact s.dropDead_queues r; rfl
@[simp] theorem State.shedDead_ctxs (r : FRef) : (s.shedDead r).ctxs = s.ctxs := by unfold State.shedDead; dsimp only; split; exact s.dropDead_ctxs r; rfl
@[simp] theorem State.shedDead_reserved (r : FRef) : (s.shedDead r).reserved = s.reserved := by unfold State.shedDead; dsimp only; split; exact s.dropDead_reserved r; rfl
@[simp] theorem State.shedDead_lastPlaced (r : FRef) : (s.shedDead r).lastPlaced = s.lastPlaced := by unfold State.shedDead; dsimp only; split; exact s.dropDead_lastPlaced r; rfl
@[simp] theorem State.shedDead_lastIssue (r : FRef) : (s.shedDead r).lastIssue = s.lastIssue := by unfold State.shedDead; dsimp only; split; exact s.dropDead_lastIssue r; rfl
@[simp] theorem State.shedDead_forwards (r : FRef) : (s.shedDead r).forwards = s.forwards := by unfold State.shedDead; dsimp only; split; exact s.dropDead_forwards r; rfl
@[simp] theorem State.shedDead_savedRuns (r : FRef) : (s.shedDead r).savedRuns = s.savedRuns := by unfold State.shedDead; dsimp only; split; exact s.dropDead_savedRuns r; rfl
@[simp] theorem State.shedDead_ops (r : FRef) : (s.shedDead r).ops = s.ops := by unfold State.shedDead; dsimp only; split; exact s.dropDead_ops r; rfl
@[simp] theorem State.shedDead_cus (r : FRef) : (s.shedDead r).cus = s.cus := by unfold State.shedDead; dsimp only; split; exact s.dropDead_cus r; rfl
@[simp] theorem State.shedDead_mons (r : FRef) : (s.shedDead r).mons = s.mons := by unfold State.shedDead; dsimp only; split; exact s.dropDead_mons r; rfl
@[simp] theorem State.shedDead_ase (r : FRef) : (s.shedDead r).ase = s.ase := by unfold State.shedDead; dsimp only; split; exact s.dropDead_ase r; rfl
@[simp] theorem State.shedDead_ring (r : FRef) : (s.shedDead r).ring = s.ring := by unfold State.shedDead; dsimp only; split; exact s.dropDead_ring r; rfl
@[simp] theorem State.shedDead_invs (r : FRef) : (s.shedDead r).invs = s.invs := by unfold State.shedDead; dsimp only; split; exact s.dropDead_invs r; rfl
@[simp] theorem State.shedDead_mem (r : FRef) : (s.shedDead r).mem = s.mem := by unfold State.shedDead; dsimp only; split; exact s.dropDead_mem r; rfl
@[simp] theorem State.shedDead_sects (r : FRef) : (s.shedDead r).sects = s.sects := by unfold State.shedDead; dsimp only; split; exact s.dropDead_sects r; rfl
@[simp] theorem State.shedDead_guards (r : FRef) : (s.shedDead r).guards = s.guards := by unfold State.shedDead; dsimp only; split; exact s.dropDead_guards r; rfl
@[simp] theorem State.shedDead_owners (r : FRef) : (s.shedDead r).owners = s.owners := by unfold State.shedDead; dsimp only; split; exact s.dropDead_owners r; rfl
@[simp] theorem State.shedDead_poison (r : FRef) : (s.shedDead r).poison = s.poison := by unfold State.shedDead; dsimp only; split; exact s.dropDead_poison r; rfl
@[simp] theorem State.shedDead_peerL2 (r : FRef) : (s.shedDead r).peerL2 = s.peerL2 := by unfold State.shedDead; dsimp only; split; exact s.dropDead_peerL2 r; rfl
@[simp] theorem State.shedDead_slack (r : FRef) : (s.shedDead r).slack = s.slack := by unfold State.shedDead; dsimp only; split; exact s.dropDead_slack r; rfl
@[simp] theorem State.shedDead_left (r : FRef) : (s.shedDead r).left = s.left := by unfold State.shedDead; dsimp only; split; exact s.dropDead_left r; rfl
@[simp] theorem State.shedDead_fe (r : FRef) : (s.shedDead r).fe = s.fe := by unfold State.shedDead; dsimp only; split; exact s.dropDead_fe r; rfl
@[simp] theorem State.shedDead_locals (r : FRef) : (s.shedDead r).locals = s.locals := by unfold State.shedDead; dsimp only; split; exact s.dropDead_locals r; rfl
@[simp] theorem State.shedDead_ports (r : FRef) : (s.shedDead r).ports = s.ports := by unfold State.shedDead; dsimp only; split; exact s.dropDead_ports r; rfl
@[simp] theorem State.shedDead_lines (r : FRef) : (s.shedDead r).lines = s.lines := by unfold State.shedDead; dsimp only; split; exact s.dropDead_lines r; rfl
@[simp] theorem State.shedDead_ctl (r : FRef) : (s.shedDead r).ctl = s.ctl := by unfold State.shedDead; dsimp only; split; exact s.dropDead_ctl r; rfl
@[simp] theorem State.shedDead_out (r : FRef) : (s.shedDead r).out = s.out := by unfold State.shedDead; dsimp only; split; exact s.dropDead_out r; rfl
@[simp] theorem State.shedDead_said (r : FRef) : (s.shedDead r).said = s.said := by unfold State.shedDead; dsimp only; split; exact s.dropDead_said r; rfl

-- haltOne
@[simp] theorem State.haltOne_now (r : FRef) (c : BitVec 8) (d : Nat) (p : DWord) : (s.haltOne r c d p).now = s.now := s.shedDead_now r
@[simp] theorem State.haltOne_lags (r : FRef) (c : BitVec 8) (d : Nat) (p : DWord) : (s.haltOne r c d p).lags = s.lags := s.shedDead_lags r
@[simp] theorem State.haltOne_nextId (r : FRef) (c : BitVec 8) (d : Nat) (p : DWord) : (s.haltOne r c d p).nextId = s.nextId := s.shedDead_nextId r
@[simp] theorem State.haltOne_freeCtr (r : FRef) (c : BitVec 8) (d : Nat) (p : DWord) : (s.haltOne r c d p).freeCtr = s.freeCtr := s.shedDead_freeCtr r
@[simp] theorem State.haltOne_agenda (r : FRef) (c : BitVec 8) (d : Nat) (p : DWord) : (s.haltOne r c d p).agenda = s.agenda := s.shedDead_agenda r
@[simp] theorem State.haltOne_actor (r : FRef) (c : BitVec 8) (d : Nat) (p : DWord) : (s.haltOne r c d p).actor = s.actor := s.shedDead_actor r
@[simp] theorem State.haltOne_rr (r : FRef) (c : BitVec 8) (d : Nat) (p : DWord) : (s.haltOne r c d p).rr = s.rr := s.shedDead_rr r
@[simp] theorem State.haltOne_wgs (r : FRef) (c : BitVec 8) (d : Nat) (p : DWord) : (s.haltOne r c d p).wgs = s.wgs := s.shedDead_wgs r
@[simp] theorem State.haltOne_clusters (r : FRef) (c : BitVec 8) (d : Nat) (p : DWord) : (s.haltOne r c d p).clusters = s.clusters := s.shedDead_clusters r
@[simp] theorem State.haltOne_grids (r : FRef) (c : BitVec 8) (d : Nat) (p : DWord) : (s.haltOne r c d p).grids = s.grids := s.shedDead_grids r
@[simp] theorem State.haltOne_queues (r : FRef) (c : BitVec 8) (d : Nat) (p : DWord) : (s.haltOne r c d p).queues = s.queues := s.shedDead_queues r
@[simp] theorem State.haltOne_ctxs (r : FRef) (c : BitVec 8) (d : Nat) (p : DWord) : (s.haltOne r c d p).ctxs = s.ctxs := s.shedDead_ctxs r
@[simp] theorem State.haltOne_reserved (r : FRef) (c : BitVec 8) (d : Nat) (p : DWord) : (s.haltOne r c d p).reserved = s.reserved := s.shedDead_reserved r
@[simp] theorem State.haltOne_lastPlaced (r : FRef) (c : BitVec 8) (d : Nat) (p : DWord) : (s.haltOne r c d p).lastPlaced = s.lastPlaced := s.shedDead_lastPlaced r
@[simp] theorem State.haltOne_lastIssue (r : FRef) (c : BitVec 8) (d : Nat) (p : DWord) : (s.haltOne r c d p).lastIssue = s.lastIssue := s.shedDead_lastIssue r
@[simp] theorem State.haltOne_forwards (r : FRef) (c : BitVec 8) (d : Nat) (p : DWord) : (s.haltOne r c d p).forwards = s.forwards := s.shedDead_forwards r
@[simp] theorem State.haltOne_savedRuns (r : FRef) (c : BitVec 8) (d : Nat) (p : DWord) : (s.haltOne r c d p).savedRuns = s.savedRuns := s.shedDead_savedRuns r
@[simp] theorem State.haltOne_ops (r : FRef) (c : BitVec 8) (d : Nat) (p : DWord) : (s.haltOne r c d p).ops = s.ops := s.shedDead_ops r
@[simp] theorem State.haltOne_mons (r : FRef) (c : BitVec 8) (d : Nat) (p : DWord) : (s.haltOne r c d p).mons = s.mons := s.shedDead_mons r
@[simp] theorem State.haltOne_ase (r : FRef) (c : BitVec 8) (d : Nat) (p : DWord) : (s.haltOne r c d p).ase = s.ase := s.shedDead_ase r
@[simp] theorem State.haltOne_ring (r : FRef) (c : BitVec 8) (d : Nat) (p : DWord) : (s.haltOne r c d p).ring = s.ring := s.shedDead_ring r
@[simp] theorem State.haltOne_invs (r : FRef) (c : BitVec 8) (d : Nat) (p : DWord) : (s.haltOne r c d p).invs = s.invs := s.shedDead_invs r
@[simp] theorem State.haltOne_mem (r : FRef) (c : BitVec 8) (d : Nat) (p : DWord) : (s.haltOne r c d p).mem = s.mem := s.shedDead_mem r
@[simp] theorem State.haltOne_sects (r : FRef) (c : BitVec 8) (d : Nat) (p : DWord) : (s.haltOne r c d p).sects = s.sects := s.shedDead_sects r
@[simp] theorem State.haltOne_guards (r : FRef) (c : BitVec 8) (d : Nat) (p : DWord) : (s.haltOne r c d p).guards = s.guards := s.shedDead_guards r
@[simp] theorem State.haltOne_owners (r : FRef) (c : BitVec 8) (d : Nat) (p : DWord) : (s.haltOne r c d p).owners = s.owners := s.shedDead_owners r
@[simp] theorem State.haltOne_poison (r : FRef) (c : BitVec 8) (d : Nat) (p : DWord) : (s.haltOne r c d p).poison = s.poison := s.shedDead_poison r
@[simp] theorem State.haltOne_peerL2 (r : FRef) (c : BitVec 8) (d : Nat) (p : DWord) : (s.haltOne r c d p).peerL2 = s.peerL2 := s.shedDead_peerL2 r
@[simp] theorem State.haltOne_slack (r : FRef) (c : BitVec 8) (d : Nat) (p : DWord) : (s.haltOne r c d p).slack = s.slack := s.shedDead_slack r
@[simp] theorem State.haltOne_left (r : FRef) (c : BitVec 8) (d : Nat) (p : DWord) : (s.haltOne r c d p).left = s.left := s.shedDead_left r
@[simp] theorem State.haltOne_fe (r : FRef) (c : BitVec 8) (d : Nat) (p : DWord) : (s.haltOne r c d p).fe = s.fe := s.shedDead_fe r
@[simp] theorem State.haltOne_locals (r : FRef) (c : BitVec 8) (d : Nat) (p : DWord) : (s.haltOne r c d p).locals = s.locals := s.shedDead_locals r
@[simp] theorem State.haltOne_ports (r : FRef) (c : BitVec 8) (d : Nat) (p : DWord) : (s.haltOne r c d p).ports = s.ports := s.shedDead_ports r
@[simp] theorem State.haltOne_lines (r : FRef) (c : BitVec 8) (d : Nat) (p : DWord) : (s.haltOne r c d p).lines = s.lines := s.shedDead_lines r
@[simp] theorem State.haltOne_ctl (r : FRef) (c : BitVec 8) (d : Nat) (p : DWord) : (s.haltOne r c d p).ctl = s.ctl := s.shedDead_ctl r
@[simp] theorem State.haltOne_said (r : FRef) (c : BitVec 8) (d : Nat) (p : DWord) : (s.haltOne r c d p).said = s.said := s.shedDead_said r

-- Tables
/-- Reading the key that was just written. -/
@[simp] theorem Tbl.get_set_same {κ α : Type} [DecidableEq κ] (t : Tbl κ α) (k : κ) (v d : α) :
    Tbl.get (Tbl.set t k v) k d = v := by
  induction t with
  | nil => simp [Tbl.set, Tbl.get]
  | cons e t ih => obtain ⟨a, b⟩ := e; simp only [Tbl.set]; split <;> simp_all [Tbl.get]

/-- Reading another key than the one written. -/
theorem Tbl.get_set_ne {κ α : Type} [DecidableEq κ] (t : Tbl κ α) {k q : κ} (v d : α) (h : q ≠ k) :
    Tbl.get (Tbl.set t k v) q d = Tbl.get t q d := by
  induction t with
  | nil => simp [Tbl.set, Tbl.get, Ne.symm h]
  | cons e t ih =>
    obtain ⟨a, b⟩ := e
    simp only [Tbl.set]
    split
    · subst_vars; simp [Tbl.get, Ne.symm h]
    · simp only [Tbl.get, ih]

/-- A table after a write, at any key. -/
theorem Tbl.get_set {κ α : Type} [DecidableEq κ] (t : Tbl κ α) (k q : κ) (v d : α) :
    Tbl.get (Tbl.set t k v) q d = if q = k then v else Tbl.get t q d := by
  split
  · subst_vars; simp
  · rename_i h; exact Tbl.get_set_ne t v d h

-- Records of the state
@[simp] theorem State.fib_setFib_same (r : FRef) (f : Fibre) : (s.setFib r f).fib r = f := by simp [State.fib, State.setFib]
theorem State.fib_setFib_ne {r q : FRef} (f : Fibre) (h : q ≠ r) : (s.setFib r f).fib q = s.fib q := by
  simp [State.fib, State.setFib, Tbl.get_set_ne _ _ _ h]
theorem State.fib_setFib (r q : FRef) (f : Fibre) : (s.setFib r f).fib q = if q = r then f else s.fib q := by
  simp [State.fib, State.setFib, Tbl.get_set]
@[simp] theorem State.me_setMe (f : Fibre) : (s.setMe f).me = f := by simp [State.me, State.setMe]
theorem State.slot_setSlot (g k g' k' : Nat) (t : Slot) :
    (s.setSlot g k t).slot g' k' = if (g', k') = (g, k) then t else s.slot g' k' := by
  simp [State.slot, State.setSlot, Tbl.get_set]
theorem State.wg_setWg (n m : Nat) (w : Wg) : (s.setWg n w).wg m = if m = n then w else s.wg m := by
  simp [State.wg, State.setWg, Tbl.get_set]
theorem State.cluster_setCluster (n m : Nat) (c : Cluster) : (s.setCluster n c).cluster m = if m = n then c else s.cluster m := by
  simp [State.cluster, State.setCluster, Tbl.get_set]
theorem State.grid_setGrid (n m : Nat) (g : Grid) : (s.setGrid n g).grid m = if m = n then g else s.grid m := by
  simp [State.grid, State.setGrid, Tbl.get_set]
theorem State.queue_setQueue (n m : Nat) (q : LQueue) : (s.setQueue n q).queue m = if m = n then q else s.queue m := by
  simp [State.queue, State.setQueue, Tbl.get_set]
theorem State.ctx_setCtx (c d : BitVec 12) (x : Ctx) : (s.setCtx c x).ctx d = if d = c then x else s.ctx d := by
  simp [State.ctx, State.setCtx, Tbl.get_set]
theorem State.cu_setCu (n m : Nat) (c : Cu) : (s.setCu n c).cu m = if m = n then c else s.cu m := by
  simp [State.cu, State.setCu, Tbl.get_set]

/-- A fold keeps what each of its steps keeps. -/
theorem foldl_keeps {α β γ : Type} (p : β → γ) (f : β → α → β) (h : ∀ b a, p (f b a) = p b) (l : List α) (b : β) :
    p (l.foldl f b) = p b := by
  induction l generalizing b with
  | nil => rfl
  | cons a l ih => simp only [List.foldl_cons, ih, h]


end Sys2Proof.Machine
end

