-- ==== Sys2Proof/Laws/Memory.lean ====
section
/-!
SUPPORT. The laws of memory: a write keeps the canonical form, a read after a write gives what was written there and the old
byte elsewhere, and two canonical lists that read alike are equal.
-/
namespace Sys2Proof.Machine

theorem Mem.wfFrom_mono {lo k : Nat} {m : List Host.Cell} (h : Mem.wfFrom lo m = true) (hk : k ≤ lo) : Mem.wfFrom k m = true := by
  cases m with
  | nil => rfl
  | cons c t =>
    obtain ⟨a, b⟩ := c
    simp only [Mem.wfFrom, Bool.and_eq_true, decide_eq_true_eq] at h ⊢
    exact ⟨⟨by omega, h.1.2⟩, h.2⟩

theorem Mem.read_of_lt {lo a : Nat} {m : List Host.Cell} (h : Mem.wfFrom lo m = true) (ha : a < lo) : Mem.read m a = 0 := by
  cases m with
  | nil => rfl
  | cons c t =>
    obtain ⟨k, b⟩ := c
    simp only [Mem.wfFrom, Bool.and_eq_true, decide_eq_true_eq] at h
    simp only [Mem.read, show ¬ k = a by omega, show a < k by omega, if_false, if_true]

theorem Mem.wfFrom_write {lo a : Nat} {m : List Host.Cell} (b : Byte) (h : Mem.wfFrom lo m = true) (ha : lo ≤ a) :
    Mem.wfFrom lo (Mem.write m a b) = true := by
  induction m generalizing lo with
  | nil =>
    unfold Mem.write
    split
    · rfl
    · rename_i hb
      simp only [Mem.wfFrom, Bool.and_eq_true, decide_eq_true_eq]
      exact ⟨⟨ha, hb⟩, trivial⟩
  | cons c t ih =>
    obtain ⟨k, d⟩ := c
    simp only [Mem.wfFrom, Bool.and_eq_true, decide_eq_true_eq] at h
    unfold Mem.write
    split
    · rename_i hk
      split
      · exact Mem.wfFrom_mono h.2 (by omega)
      · simp only [Mem.wfFrom, Bool.and_eq_true, decide_eq_true_eq]
        exact ⟨⟨ha, ‹_›⟩, by simpa [hk] using h.2⟩
    · split
      · split
        · simp only [Mem.wfFrom, Bool.and_eq_true, decide_eq_true_eq]
          exact h
        · simp only [Mem.wfFrom, Bool.and_eq_true, decide_eq_true_eq]
          exact ⟨⟨ha, ‹_›⟩, ⟨⟨by omega, h.1.2⟩, h.2⟩⟩
      · simp only [Mem.wfFrom, Bool.and_eq_true, decide_eq_true_eq]
        exact ⟨h.1, ih h.2 (by omega)⟩

theorem Mem.read_write {lo : Nat} {m : List Host.Cell} (a x : Nat) (b : Byte) (h : Mem.wfFrom lo m = true) :
    Mem.read (Mem.write m a b) x = if x = a then b else Mem.read m x := by
  induction m generalizing lo with
  | nil =>
    unfold Mem.write
    split
    · split <;> simp_all [Mem.read]
    · by_cases hx : x = a
      · simp [Mem.read, hx]
      · simp only [Mem.read, if_neg hx, if_neg (Ne.symm hx)]
        split <;> rfl
  | cons c t ih =>
    obtain ⟨k, d⟩ := c
    simp only [Mem.wfFrom, Bool.and_eq_true, decide_eq_true_eq] at h
    unfold Mem.write
    split
    · rename_i hk
      subst hk
      split
      · rename_i hb
        by_cases hx : x = k
        · subst hx
          rw [if_pos rfl, hb]
          exact Mem.read_of_lt h.2 (by omega)
        · simp only [if_neg hx, Mem.read, if_neg (Ne.symm hx)]
          split
          · exact Mem.read_of_lt h.2 (by omega)
          · rfl
      · by_cases hx : x = k
        · simp [Mem.read, hx]
        · simp only [if_neg hx, Mem.read, if_neg (Ne.symm hx)]
    · rename_i hk
      split
      · rename_i hak
        split
        · rename_i hb
          by_cases hx : x = a
          · subst hx
            simp [Mem.read, hk, hak, hb]
          · rw [if_neg hx]
        · by_cases hx : x = a
          · simp [Mem.read, hx]
          · simp only [if_neg hx]
            rw [Mem.read, if_neg (Ne.symm hx)]
            split
            · rename_i hxa
              simp only [Mem.read, show ¬ k = x by omega, show x < k by omega, if_false, if_true]
            · rfl
      · rename_i hak
        have hlt : k < a := by omega
        by_cases hx : x = a
        · subst hx
          rw [if_pos rfl, Mem.read, if_neg hk, if_neg hak, ih h.2, if_pos rfl]
        · rw [if_neg hx, Mem.read, Mem.read, ih h.2, if_neg hx]

/-- Canonical memories that read alike are equal data. -/
theorem Mem.eq_of_read {lo : Nat} {m n : List Host.Cell} (hm : Mem.wfFrom lo m = true) (hn : Mem.wfFrom lo n = true)
    (h : ∀ a, Mem.read m a = Mem.read n a) : m = n := by
  induction m generalizing lo n with
  | nil =>
    cases n with
    | nil => rfl
    | cons c t =>
      obtain ⟨k, d⟩ := c
      have := h k
      simp only [Mem.wfFrom, Bool.and_eq_true, decide_eq_true_eq] at hn
      simp only [Mem.read, if_true] at this
      exact absurd this.symm hn.1.2
  | cons c t ih =>
    obtain ⟨k, d⟩ := c
    simp only [Mem.wfFrom, Bool.and_eq_true, decide_eq_true_eq] at hm
    cases n with
    | nil =>
      have := h k
      simp only [Mem.read, if_true] at this
      exact absurd this hm.1.2
    | cons c u =>
      obtain ⟨j, e⟩ := c
      simp only [Mem.wfFrom, Bool.and_eq_true, decide_eq_true_eq] at hn
      have hk := h k
      have hj := h j
      simp only [Mem.read, if_true] at hk hj
      have hkj : k = j := by
        rcases Nat.lt_trichotomy k j with hl | hl | hl
        · rw [if_neg (by omega), if_pos hl] at hk
          exact absurd hk hm.1.2
        · exact hl
        · rw [if_neg (by omega), if_pos hl] at hj
          exact absurd hj.symm hn.1.2
      subst hkj
      rw [if_pos rfl] at hk
      subst hk
      congr 1
      refine ih hm.2 hn.2 (fun a => ?_)
      have ha := h a
      simp only [Mem.read] at ha
      by_cases hka : k = a
      · rw [Mem.read_of_lt hm.2 (by omega), Mem.read_of_lt hn.2 (by omega)]
      · rw [if_neg hka, if_neg hka] at ha
        by_cases hlt : a < k
        · rw [Mem.read_of_lt hm.2 (by omega), Mem.read_of_lt hn.2 (by omega)]
        · rwa [if_neg hlt, if_neg hlt] at ha

/-- The bytes `putHbm` writes, from the address on. -/
def Mem.writes (m : List Host.Cell) (a : Nat) : List Byte → List Host.Cell
  | [] => m
  | b :: t => Mem.writes (Mem.write m a b) (a + 1) t

theorem State.putHbm_mem (s : State) (a : Nat) (bs : List Byte) : (s.putHbm a bs).mem = Mem.writes s.mem a bs := by
  unfold State.putHbm
  generalize s.mem = m
  induction bs generalizing m a with
  | nil => rfl
  | cons b t ih => exact ih (a + 1) (Mem.write m a b)

theorem Mem.wf_writes {m : List Host.Cell} (a : Nat) (bs : List Byte) (h : Mem.wf m = true) : Mem.wf (Mem.writes m a bs) = true := by
  induction bs generalizing m a with
  | nil => exact h
  | cons b t ih => exact ih (a + 1) (Mem.wfFrom_write b h (Nat.zero_le a))

theorem Mem.read_writes {m : List Host.Cell} (a x : Nat) (bs : List Byte) (h : Mem.wf m = true) :
    Mem.read (Mem.writes m a bs) x = if a ≤ x ∧ x < a + bs.length then bs.getD (x - a) 0 else Mem.read m x := by
  induction bs generalizing m a with
  | nil => simp [Mem.writes] <;> omega
  | cons b t ih =>
    rw [Mem.writes, ih (a + 1) (Mem.wfFrom_write b h (Nat.zero_le a)), Mem.read_write a x b h]
    by_cases hx : x = a
    · subst hx
      rw [if_neg (by omega), if_pos rfl, if_pos ⟨Nat.le_refl x, by simp only [List.length_cons]; omega⟩, Nat.sub_self]
      rfl
    · by_cases hc : a ≤ x ∧ x < a + (b :: t).length
      · have h1 : a + 1 ≤ x ∧ x < a + 1 + t.length := by simp only [List.length_cons] at hc; omega
        rw [if_pos h1, if_pos hc]
        obtain ⟨n, hn⟩ : ∃ n, x = a + (n + 1) := ⟨x - a - 1, by omega⟩
        subst hn
        simp [show a + (n + 1) - (a + 1) = n by omega]
      · have h1 : ¬ (a + 1 ≤ x ∧ x < a + 1 + t.length) := by simp only [List.length_cons] at hc; omega
        rw [if_neg h1, if_neg hc, if_neg hx]

/-- A write of bytes keeps memory canonical. -/
theorem State.memOk_putHbm {s : State} (a : Nat) (bs : List Byte) (h : s.memOk) : (s.putHbm a bs).memOk := by
  unfold State.memOk at *
  rw [State.putHbm_mem]
  exact Mem.wf_writes a bs h

/-- A read after a write of bytes. -/
theorem State.hbm_putHbm {s : State} (a x : Nat) (bs : List Byte) (h : s.memOk) :
    (s.putHbm a bs).hbm x = if a ≤ x ∧ x < a + bs.length then bs.getD (x - a) 0 else s.hbm x := by
  unfold State.hbm
  rw [State.putHbm_mem]
  exact Mem.read_writes a x bs h

theorem State.memOk_of_mem {s t : State} (h : s.memOk) (e : t.mem = s.mem) : t.memOk := by
  unfold State.memOk at *
  rw [e]
  exact h

theorem State.memOk_reset : State.reset.memOk := rfl

end Sys2Proof.Machine
end

