-- ==== Sys2Proof/Laws/PerInstr.lean ====
section
/-!
SUPPORT. Of every instruction: the word the encoder makes of it is a 32-bit word, so no bit of a field falls outside (R34).
-/
namespace Sys2Proof.Laws.Encoding

/-- The word of the instruction, if it has one, is below 2^32. -/
def Statement (i : Instr) : Prop := ∀ n, encodeNat i = some n → n < 2 ^ 32

theorem of_word {i : Instr} {m : Nat} (h : encodeNat i = some m) (hm : m < 2 ^ 32) : Statement i := by
  intro n hn
  rw [h] at hn
  cases hn
  exact hm

theorem pack_lt {n N R : Nat} {fs : List Nat} (h : n ≤ N) (hs : fs.sum ≤ R) (hb : N + R < 2 ^ 32) : pack n fs < 2 ^ 32 := by
  unfold pack
  omega

theorem sum_cons_le {a A R : Nat} {t : List Nat} (ha : a ≤ A) (ht : t.sum ≤ R) : (a :: t).sum ≤ A + R := by
  rw [List.sum_cons]
  omega

theorem sum_nil_le : ([] : List Nat).sum ≤ 0 := Nat.le_of_eq rfl
theorem at0_le {w : Nat} (v : BitVec w) : at0 v ≤ (2 ^ w - 1) * 1 := by
  unfold at0
  exact Nat.mul_le_mul_right _ (Nat.le_sub_one_of_lt v.isLt)

theorem at1_le {w : Nat} (v : BitVec w) : at1 v ≤ (2 ^ w - 1) * 2 := by
  unfold at1
  exact Nat.mul_le_mul_right _ (Nat.le_sub_one_of_lt v.isLt)

theorem at2_le {w : Nat} (v : BitVec w) : at2 v ≤ (2 ^ w - 1) * 4 := by
  unfold at2
  exact Nat.mul_le_mul_right _ (Nat.le_sub_one_of_lt v.isLt)

theorem at3_le {w : Nat} (v : BitVec w) : at3 v ≤ (2 ^ w - 1) * 8 := by
  unfold at3
  exact Nat.mul_le_mul_right _ (Nat.le_sub_one_of_lt v.isLt)

theorem at4_le {w : Nat} (v : BitVec w) : at4 v ≤ (2 ^ w - 1) * 16 := by
  unfold at4
  exact Nat.mul_le_mul_right _ (Nat.le_sub_one_of_lt v.isLt)

theorem at5_le {w : Nat} (v : BitVec w) : at5 v ≤ (2 ^ w - 1) * 32 := by
  unfold at5
  exact Nat.mul_le_mul_right _ (Nat.le_sub_one_of_lt v.isLt)

theorem at6_le {w : Nat} (v : BitVec w) : at6 v ≤ (2 ^ w - 1) * 64 := by
  unfold at6
  exact Nat.mul_le_mul_right _ (Nat.le_sub_one_of_lt v.isLt)

theorem at7_le {w : Nat} (v : BitVec w) : at7 v ≤ (2 ^ w - 1) * 128 := by
  unfold at7
  exact Nat.mul_le_mul_right _ (Nat.le_sub_one_of_lt v.isLt)

theorem at8_le {w : Nat} (v : BitVec w) : at8 v ≤ (2 ^ w - 1) * 256 := by
  unfold at8
  exact Nat.mul_le_mul_right _ (Nat.le_sub_one_of_lt v.isLt)

theorem at9_le {w : Nat} (v : BitVec w) : at9 v ≤ (2 ^ w - 1) * 512 := by
  unfold at9
  exact Nat.mul_le_mul_right _ (Nat.le_sub_one_of_lt v.isLt)

theorem at10_le {w : Nat} (v : BitVec w) : at10 v ≤ (2 ^ w - 1) * 1024 := by
  unfold at10
  exact Nat.mul_le_mul_right _ (Nat.le_sub_one_of_lt v.isLt)

theorem at11_le {w : Nat} (v : BitVec w) : at11 v ≤ (2 ^ w - 1) * 2048 := by
  unfold at11
  exact Nat.mul_le_mul_right _ (Nat.le_sub_one_of_lt v.isLt)

theorem at12_le {w : Nat} (v : BitVec w) : at12 v ≤ (2 ^ w - 1) * 4096 := by
  unfold at12
  exact Nat.mul_le_mul_right _ (Nat.le_sub_one_of_lt v.isLt)

theorem at13_le {w : Nat} (v : BitVec w) : at13 v ≤ (2 ^ w - 1) * 8192 := by
  unfold at13
  exact Nat.mul_le_mul_right _ (Nat.le_sub_one_of_lt v.isLt)

theorem at14_le {w : Nat} (v : BitVec w) : at14 v ≤ (2 ^ w - 1) * 16384 := by
  unfold at14
  exact Nat.mul_le_mul_right _ (Nat.le_sub_one_of_lt v.isLt)

theorem at15_le {w : Nat} (v : BitVec w) : at15 v ≤ (2 ^ w - 1) * 32768 := by
  unfold at15
  exact Nat.mul_le_mul_right _ (Nat.le_sub_one_of_lt v.isLt)

theorem at16_le {w : Nat} (v : BitVec w) : at16 v ≤ (2 ^ w - 1) * 65536 := by
  unfold at16
  exact Nat.mul_le_mul_right _ (Nat.le_sub_one_of_lt v.isLt)

theorem at17_le {w : Nat} (v : BitVec w) : at17 v ≤ (2 ^ w - 1) * 131072 := by
  unfold at17
  exact Nat.mul_le_mul_right _ (Nat.le_sub_one_of_lt v.isLt)

theorem at18_le {w : Nat} (v : BitVec w) : at18 v ≤ (2 ^ w - 1) * 262144 := by
  unfold at18
  exact Nat.mul_le_mul_right _ (Nat.le_sub_one_of_lt v.isLt)

theorem at19_le {w : Nat} (v : BitVec w) : at19 v ≤ (2 ^ w - 1) * 524288 := by
  unfold at19
  exact Nat.mul_le_mul_right _ (Nat.le_sub_one_of_lt v.isLt)

theorem at20_le {w : Nat} (v : BitVec w) : at20 v ≤ (2 ^ w - 1) * 1048576 := by
  unfold at20
  exact Nat.mul_le_mul_right _ (Nat.le_sub_one_of_lt v.isLt)

theorem at22_le {w : Nat} (v : BitVec w) : at22 v ≤ (2 ^ w - 1) * 4194304 := by
  unfold at22
  exact Nat.mul_le_mul_right _ (Nat.le_sub_one_of_lt v.isLt)

theorem of_none {i : Instr} (h : encodeNat i = none) : Statement i := by
  intro n hn
  rw [h] at hn
  cases hn

theorem shape0 (n : Nat) (x0 : BitVec 16) (h : n ≤ 4261412864) : pack n [at0 x0] < 2 ^ 32 :=
  pack_lt h (sum_cons_le (at0_le x0) sum_nil_le) (by decide)
theorem shape1 (n : Nat) (x0 : BitVec 6) (x1 : BitVec 16) (h : n ≤ 4261412864) : pack n [at16 x0, at0 x1] < 2 ^ 32 :=
  pack_lt h (sum_cons_le (at16_le x0) (sum_cons_le (at0_le x1) sum_nil_le)) (by decide)
theorem shape2 (n : Nat) (x0 : BitVec 3) (x1 : BitVec 16) (h : n ≤ 4261412864) : pack n [at16 x0, at0 x1] < 2 ^ 32 :=
  pack_lt h (sum_cons_le (at16_le x0) (sum_cons_le (at0_le x1) sum_nil_le)) (by decide)
theorem shape3 (n : Nat) (x0 : BitVec 1) (x1 : BitVec 3) (x2 : BitVec 16) (h : n ≤ 4261412864) : pack n [at22 x0, at16 x1, at0 x2] < 2 ^ 32 :=
  pack_lt h (sum_cons_le (at22_le x0) (sum_cons_le (at16_le x1) (sum_cons_le (at0_le x2) sum_nil_le))) (by decide)
theorem shape4 (n : Nat) (x0 : BitVec 6) (h : n ≤ 4261412864) : pack n [at16 x0] < 2 ^ 32 :=
  pack_lt h (sum_cons_le (at16_le x0) sum_nil_le) (by decide)
theorem shape5 (n : Nat) (x0 : BitVec 4) (h : n ≤ 4261412864) : pack n [at18 x0] < 2 ^ 32 :=
  pack_lt h (sum_cons_le (at18_le x0) sum_nil_le) (by decide)
theorem shape6 (n : Nat) (x0 : BitVec 6) (x1 : BitVec 6) (x2 : BitVec 6) (x3 : BitVec 3) (h : n ≤ 4261412864) : pack n [at15 x0, at9 x1, at3 x2, at0 x3] < 2 ^ 32 :=
  pack_lt h (sum_cons_le (at15_le x0) (sum_cons_le (at9_le x1) (sum_cons_le (at3_le x2) (sum_cons_le (at0_le x3) sum_nil_le)))) (by decide)
theorem shape7 (n : Nat) (h : n ≤ 4261412864) : pack n [] < 2 ^ 32 :=
  pack_lt h sum_nil_le (by decide)
theorem shape8 (n : Nat) (x0 : BitVec 6) (h : n ≤ 4261412864) : pack n [at9 x0] < 2 ^ 32 :=
  pack_lt h (sum_cons_le (at9_le x0) sum_nil_le) (by decide)
theorem shape9 (n : Nat) (x0 : BitVec 6) (x1 : BitVec 6) (h : n ≤ 4261412864) : pack n [at9 x0, at3 x1] < 2 ^ 32 :=
  pack_lt h (sum_cons_le (at9_le x0) (sum_cons_le (at3_le x1) sum_nil_le)) (by decide)
theorem shape10 (n : Nat) (x0 : BitVec 6) (x1 : BitVec 6) (h : n ≤ 4261412864) : pack n [at15 x0, at9 x1] < 2 ^ 32 :=
  pack_lt h (sum_cons_le (at15_le x0) (sum_cons_le (at9_le x1) sum_nil_le)) (by decide)
theorem shape11 (n : Nat) (x0 : BitVec 12) (h : n ≤ 4261412864) : pack n [at10 x0] < 2 ^ 32 :=
  pack_lt h (sum_cons_le (at10_le x0) sum_nil_le) (by decide)
theorem shape12 (n : Nat) (x0 : BitVec 3) (x1 : BitVec 3) (x2 : BitVec 3) (h : n ≤ 4261412864) : pack n [at19 x0, at16 x1, at13 x2] < 2 ^ 32 :=
  pack_lt h (sum_cons_le (at19_le x0) (sum_cons_le (at16_le x1) (sum_cons_le (at13_le x2) sum_nil_le))) (by decide)
theorem shape13 (n : Nat) (x0 : BitVec 3) (x1 : BitVec 3) (h : n ≤ 4261412864) : pack n [at19 x0, at16 x1] < 2 ^ 32 :=
  pack_lt h (sum_cons_le (at19_le x0) (sum_cons_le (at16_le x1) sum_nil_le)) (by decide)
theorem shape14 (n : Nat) (x0 : BitVec 3) (x1 : BitVec 6) (h : n ≤ 4261412864) : pack n [at19 x0, at7 x1] < 2 ^ 32 :=
  pack_lt h (sum_cons_le (at19_le x0) (sum_cons_le (at7_le x1) sum_nil_le)) (by decide)
theorem shape15 (n : Nat) (x0 : BitVec 3) (x1 : BitVec 6) (h : n ≤ 4261412864) : pack n [at16 x0, at7 x1] < 2 ^ 32 :=
  pack_lt h (sum_cons_le (at16_le x0) (sum_cons_le (at7_le x1) sum_nil_le)) (by decide)
theorem shape16 (n : Nat) (x0 : BitVec 7) (x1 : BitVec 7) (x2 : BitVec 2) (x3 : BitVec 7) (x4 : BitVec 2) (h : n ≤ 4261412864) : pack n [at18 x0, at11 x1, at9 x2, at2 x3, at0 x4] < 2 ^ 32 :=
  pack_lt h (sum_cons_le (at18_le x0) (sum_cons_le (at11_le x1) (sum_cons_le (at9_le x2) (sum_cons_le (at2_le x3) (sum_cons_le (at0_le x4) sum_nil_le))))) (by decide)
theorem shape17 (n : Nat) (x0 : BitVec 3) (x1 : BitVec 3) (x2 : BitVec 7) (x3 : BitVec 2) (x4 : BitVec 7) (x5 : BitVec 2) (h : n ≤ 4261412864) : pack n [at22 x0, at18 x1, at11 x2, at9 x3, at2 x4, at0 x5] < 2 ^ 32 :=
  pack_lt h (sum_cons_le (at22_le x0) (sum_cons_le (at18_le x1) (sum_cons_le (at11_le x2) (sum_cons_le (at9_le x3) (sum_cons_le (at2_le x4) (sum_cons_le (at0_le x5) sum_nil_le)))))) (by decide)
theorem shape18 (n : Nat) (x0 : BitVec 7) (x1 : BitVec 7) (x2 : BitVec 2) (x3 : BitVec 3) (x4 : BitVec 1) (h : n ≤ 4261412864) : pack n [at18 x0, at11 x1, at9 x2, at6 x3, at5 x4] < 2 ^ 32 :=
  pack_lt h (sum_cons_le (at18_le x0) (sum_cons_le (at11_le x1) (sum_cons_le (at9_le x2) (sum_cons_le (at6_le x3) (sum_cons_le (at5_le x4) sum_nil_le))))) (by decide)
theorem shape19 (n : Nat) (x0 : BitVec 7) (x1 : BitVec 4) (x2 : BitVec 9) (h : n ≤ 4261412864) : pack n [at18 x0, at14 x1, at0 x2] < 2 ^ 32 :=
  pack_lt h (sum_cons_le (at18_le x0) (sum_cons_le (at14_le x1) (sum_cons_le (at0_le x2) sum_nil_le))) (by decide)
theorem shape20 (n : Nat) (x0 : BitVec 7) (x1 : BitVec 7) (x2 : BitVec 2) (h : n ≤ 4261412864) : pack n [at18 x0, at11 x1, at9 x2] < 2 ^ 32 :=
  pack_lt h (sum_cons_le (at18_le x0) (sum_cons_le (at11_le x1) (sum_cons_le (at9_le x2) sum_nil_le))) (by decide)
theorem shape21 (n : Nat) (x0 : BitVec 7) (x1 : BitVec 7) (h : n ≤ 4261412864) : pack n [at18 x0, at11 x1] < 2 ^ 32 :=
  pack_lt h (sum_cons_le (at18_le x0) (sum_cons_le (at11_le x1) sum_nil_le)) (by decide)
theorem shape22 (n : Nat) (x0 : BitVec 7) (h : n ≤ 4261412864) : pack n [at18 x0] < 2 ^ 32 :=
  pack_lt h (sum_cons_le (at18_le x0) sum_nil_le) (by decide)
theorem shape23 (n : Nat) (x0 : BitVec 7) (x1 : BitVec 7) (x2 : BitVec 2) (x3 : BitVec 4) (h : n ≤ 4261412864) : pack n [at18 x0, at11 x1, at9 x2, at2 x3] < 2 ^ 32 :=
  pack_lt h (sum_cons_le (at18_le x0) (sum_cons_le (at11_le x1) (sum_cons_le (at9_le x2) (sum_cons_le (at2_le x3) sum_nil_le)))) (by decide)
theorem shape24 (n : Nat) (x0 : BitVec 7) (x1 : BitVec 7) (x2 : BitVec 2) (x3 : BitVec 4) (h : n ≤ 4261412864) : pack n [at18 x0, at11 x1, at9 x2, at5 x3] < 2 ^ 32 :=
  pack_lt h (sum_cons_le (at18_le x0) (sum_cons_le (at11_le x1) (sum_cons_le (at9_le x2) (sum_cons_le (at5_le x3) sum_nil_le)))) (by decide)
theorem shape25 (n : Nat) (x0 : BitVec 7) (x1 : BitVec 2) (x2 : BitVec 6) (x3 : BitVec 3) (h : n ≤ 4261412864) : pack n [at11 x0, at9 x1, at3 x2, at0 x3] < 2 ^ 32 :=
  pack_lt h (sum_cons_le (at11_le x0) (sum_cons_le (at9_le x1) (sum_cons_le (at3_le x2) (sum_cons_le (at0_le x3) sum_nil_le)))) (by decide)
theorem shape26 (n : Nat) (x0 : BitVec 7) (x1 : BitVec 7) (x2 : BitVec 2) (x3 : BitVec 6) (x4 : BitVec 3) (h : n ≤ 4261412864) : pack n [at18 x0, at11 x1, at9 x2, at3 x3, at0 x4] < 2 ^ 32 :=
  pack_lt h (sum_cons_le (at18_le x0) (sum_cons_le (at11_le x1) (sum_cons_le (at9_le x2) (sum_cons_le (at3_le x3) (sum_cons_le (at0_le x4) sum_nil_le))))) (by decide)
theorem shape27 (n : Nat) (x0 : BitVec 2) (x1 : BitVec 3) (x2 : BitVec 6) (h : n ≤ 4261412864) : pack n [at20 x0, at17 x1, at11 x2] < 2 ^ 32 :=
  pack_lt h (sum_cons_le (at20_le x0) (sum_cons_le (at17_le x1) (sum_cons_le (at11_le x2) sum_nil_le))) (by decide)
theorem shape28 (n : Nat) (x0 : BitVec 2) (x1 : BitVec 3) (x2 : BitVec 6) (h : n ≤ 4261412864) : pack n [at20 x0, at17 x1, at5 x2] < 2 ^ 32 :=
  pack_lt h (sum_cons_le (at20_le x0) (sum_cons_le (at17_le x1) (sum_cons_le (at5_le x2) sum_nil_le))) (by decide)
theorem shape29 (n : Nat) (x0 : BitVec 4) (x1 : BitVec 7) (x2 : BitVec 2) (h : n ≤ 4261412864) : pack n [at18 x0, at11 x1, at9 x2] < 2 ^ 32 :=
  pack_lt h (sum_cons_le (at18_le x0) (sum_cons_le (at11_le x1) (sum_cons_le (at9_le x2) sum_nil_le))) (by decide)
theorem shape30 (n : Nat) (x0 : BitVec 6) (x1 : BitVec 3) (h : n ≤ 4261412864) : pack n [at16 x0, at10 x1] < 2 ^ 32 :=
  pack_lt h (sum_cons_le (at16_le x0) (sum_cons_le (at10_le x1) sum_nil_le)) (by decide)
theorem shape31 (n : Nat) (x0 : BitVec 6) (x1 : BitVec 3) (x2 : BitVec 3) (h : n ≤ 4261412864) : pack n [at16 x0, at13 x1, at10 x2] < 2 ^ 32 :=
  pack_lt h (sum_cons_le (at16_le x0) (sum_cons_le (at13_le x1) (sum_cons_le (at10_le x2) sum_nil_le))) (by decide)
theorem shape32 (n : Nat) (x0 : BitVec 6) (x1 : BitVec 6) (x2 : BitVec 6) (h : n ≤ 4261412864) : pack n [at19 x0, at13 x1, at7 x2] < 2 ^ 32 :=
  pack_lt h (sum_cons_le (at19_le x0) (sum_cons_le (at13_le x1) (sum_cons_le (at7_le x2) sum_nil_le))) (by decide)
theorem shape33 (n : Nat) (x0 : BitVec 6) (x1 : BitVec 6) (h : n ≤ 4261412864) : pack n [at19 x0, at7 x1] < 2 ^ 32 :=
  pack_lt h (sum_cons_le (at19_le x0) (sum_cons_le (at7_le x1) sum_nil_le)) (by decide)
theorem shape34 (n : Nat) (x0 : BitVec 6) (x1 : BitVec 6) (h : n ≤ 4261412864) : pack n [at19 x0, at13 x1] < 2 ^ 32 :=
  pack_lt h (sum_cons_le (at19_le x0) (sum_cons_le (at13_le x1) sum_nil_le)) (by decide)
theorem shape35 (n : Nat) (x0 : BitVec 6) (x1 : BitVec 6) (x2 : BitVec 6) (x3 : BitVec 4) (h : n ≤ 4261412864) : pack n [at19 x0, at13 x1, at7 x2, at0 x3] < 2 ^ 32 :=
  pack_lt h (sum_cons_le (at19_le x0) (sum_cons_le (at13_le x1) (sum_cons_le (at7_le x2) (sum_cons_le (at0_le x3) sum_nil_le)))) (by decide)
theorem shape36 (n : Nat) (x0 : BitVec 6) (x1 : BitVec 6) (x2 : BitVec 13) (h : n ≤ 4261412864) : pack n [at19 x0, at13 x1, at0 x2] < 2 ^ 32 :=
  pack_lt h (sum_cons_le (at19_le x0) (sum_cons_le (at13_le x1) (sum_cons_le (at0_le x2) sum_nil_le))) (by decide)
theorem shape37 (n : Nat) (x0 : BitVec 6) (x1 : BitVec 6) (x2 : BitVec 6) (h : n ≤ 4261412864) : pack n [at19 x0, at13 x1, at0 x2] < 2 ^ 32 :=
  pack_lt h (sum_cons_le (at19_le x0) (sum_cons_le (at13_le x1) (sum_cons_le (at0_le x2) sum_nil_le))) (by decide)
theorem shape38 (n : Nat) (x0 : BitVec 6) (x1 : BitVec 13) (h : n ≤ 4261412864) : pack n [at19 x0, at0 x1] < 2 ^ 32 :=
  pack_lt h (sum_cons_le (at19_le x0) (sum_cons_le (at0_le x1) sum_nil_le)) (by decide)
theorem shape39 (n : Nat) (x0 : BitVec 6) (h : n ≤ 4261412864) : pack n [at19 x0] < 2 ^ 32 :=
  pack_lt h (sum_cons_le (at19_le x0) sum_nil_le) (by decide)
theorem shape40 (n : Nat) (x0 : BitVec 6) (x1 : BitVec 6) (x2 : BitVec 6) (x3 : BitVec 6) (h : n ≤ 4261412864) : pack n [at19 x0, at13 x1, at7 x2, at1 x3] < 2 ^ 32 :=
  pack_lt h (sum_cons_le (at19_le x0) (sum_cons_le (at13_le x1) (sum_cons_le (at7_le x2) (sum_cons_le (at1_le x3) sum_nil_le)))) (by decide)
theorem shape41 (n : Nat) (x0 : BitVec 6) (x1 : BitVec 6) (x2 : BitVec 6) (x3 : BitVec 6) (x4 : BitVec 1) (h : n ≤ 4261412864) : pack n [at19 x0, at13 x1, at7 x2, at1 x3, at0 x4] < 2 ^ 32 :=
  pack_lt h (sum_cons_le (at19_le x0) (sum_cons_le (at13_le x1) (sum_cons_le (at7_le x2) (sum_cons_le (at1_le x3) (sum_cons_le (at0_le x4) sum_nil_le))))) (by decide)
theorem shape42 (n : Nat) (x0 : BitVec 7) (x1 : BitVec 7) (x2 : BitVec 6) (x3 : BitVec 4) (x4 : BitVec 1) (h : n ≤ 4261412864) : pack n [at18 x0, at11 x1, at5 x2, at1 x3, at0 x4] < 2 ^ 32 :=
  pack_lt h (sum_cons_le (at18_le x0) (sum_cons_le (at11_le x1) (sum_cons_le (at5_le x2) (sum_cons_le (at1_le x3) (sum_cons_le (at0_le x4) sum_nil_le))))) (by decide)
theorem shape43 (n : Nat) (x0 : BitVec 7) (x1 : BitVec 7) (x2 : BitVec 6) (x3 : BitVec 3) (x4 : BitVec 1) (h : n ≤ 4261412864) : pack n [at18 x0, at11 x1, at5 x2, at1 x3, at0 x4] < 2 ^ 32 :=
  pack_lt h (sum_cons_le (at18_le x0) (sum_cons_le (at11_le x1) (sum_cons_le (at5_le x2) (sum_cons_le (at1_le x3) (sum_cons_le (at0_le x4) sum_nil_le))))) (by decide)
theorem shape44 (n : Nat) (x0 : BitVec 7) (x1 : BitVec 7) (x2 : BitVec 6) (x3 : BitVec 1) (h : n ≤ 4261412864) : pack n [at18 x0, at11 x1, at5 x2, at0 x3] < 2 ^ 32 :=
  pack_lt h (sum_cons_le (at18_le x0) (sum_cons_le (at11_le x1) (sum_cons_le (at5_le x2) (sum_cons_le (at0_le x3) sum_nil_le)))) (by decide)
theorem shape45 (n : Nat) (x0 : BitVec 7) (x1 : BitVec 7) (x2 : BitVec 6) (x3 : BitVec 1) (x4 : BitVec 1) (h : n ≤ 4261412864) : pack n [at18 x0, at11 x1, at5 x2, at1 x3, at0 x4] < 2 ^ 32 :=
  pack_lt h (sum_cons_le (at18_le x0) (sum_cons_le (at11_le x1) (sum_cons_le (at5_le x2) (sum_cons_le (at1_le x3) (sum_cons_le (at0_le x4) sum_nil_le))))) (by decide)
theorem shape46 (n : Nat) (x0 : BitVec 6) (x1 : BitVec 6) (x2 : BitVec 3) (x3 : BitVec 1) (x4 : BitVec 8) (h : n ≤ 4261412864) : pack n [at19 x0, at13 x1, at9 x2, at8 x3, at0 x4] < 2 ^ 32 :=
  pack_lt h (sum_cons_le (at19_le x0) (sum_cons_le (at13_le x1) (sum_cons_le (at9_le x2) (sum_cons_le (at8_le x3) (sum_cons_le (at0_le x4) sum_nil_le))))) (by decide)
theorem shape47 (n : Nat) (x0 : BitVec 6) (x1 : BitVec 6) (x2 : BitVec 2) (x3 : BitVec 1) (x4 : BitVec 8) (h : n ≤ 4261412864) : pack n [at19 x0, at13 x1, at9 x2, at8 x3, at0 x4] < 2 ^ 32 :=
  pack_lt h (sum_cons_le (at19_le x0) (sum_cons_le (at13_le x1) (sum_cons_le (at9_le x2) (sum_cons_le (at8_le x3) (sum_cons_le (at0_le x4) sum_nil_le))))) (by decide)
theorem shape48 (n : Nat) (x0 : BitVec 7) (x1 : BitVec 6) (x2 : BitVec 4) (x3 : BitVec 1) (h : n ≤ 4261412864) : pack n [at18 x0, at5 x1, at1 x2, at0 x3] < 2 ^ 32 :=
  pack_lt h (sum_cons_le (at18_le x0) (sum_cons_le (at5_le x1) (sum_cons_le (at1_le x2) (sum_cons_le (at0_le x3) sum_nil_le)))) (by decide)
theorem shape49 (n : Nat) (x0 : BitVec 7) (x1 : BitVec 6) (x2 : BitVec 1) (h : n ≤ 4261412864) : pack n [at11 x0, at5 x1, at1 x2] < 2 ^ 32 :=
  pack_lt h (sum_cons_le (at11_le x0) (sum_cons_le (at5_le x1) (sum_cons_le (at1_le x2) sum_nil_le))) (by decide)
theorem shape50 (n : Nat) (x0 : BitVec 8) (x1 : BitVec 8) (x2 : BitVec 3) (h : n ≤ 4261412864) : pack n [at17 x0, at9 x1, at6 x2] < 2 ^ 32 :=
  pack_lt h (sum_cons_le (at17_le x0) (sum_cons_le (at9_le x1) (sum_cons_le (at6_le x2) sum_nil_le))) (by decide)
theorem shape51 (n : Nat) (x0 : BitVec 6) (x1 : BitVec 6) (x2 : BitVec 4) (x3 : BitVec 1) (x4 : BitVec 1) (h : n ≤ 4261412864) : pack n [at19 x0, at13 x1, at9 x2, at8 x3, at7 x4] < 2 ^ 32 :=
  pack_lt h (sum_cons_le (at19_le x0) (sum_cons_le (at13_le x1) (sum_cons_le (at9_le x2) (sum_cons_le (at8_le x3) (sum_cons_le (at7_le x4) sum_nil_le))))) (by decide)
theorem shape52 (n : Nat) (x0 : BitVec 7) (x1 : BitVec 6) (x2 : BitVec 1) (h : n ≤ 4261412864) : pack n [at18 x0, at5 x1, at0 x2] < 2 ^ 32 :=
  pack_lt h (sum_cons_le (at18_le x0) (sum_cons_le (at5_le x1) (sum_cons_le (at0_le x2) sum_nil_le))) (by decide)
theorem shape53 (n : Nat) (x0 : BitVec 7) (x1 : BitVec 7) (x2 : BitVec 6) (x3 : BitVec 2) (x4 : BitVec 1) (h : n ≤ 4261412864) : pack n [at18 x0, at11 x1, at5 x2, at1 x3, at0 x4] < 2 ^ 32 :=
  pack_lt h (sum_cons_le (at18_le x0) (sum_cons_le (at11_le x1) (sum_cons_le (at5_le x2) (sum_cons_le (at1_le x3) (sum_cons_le (at0_le x4) sum_nil_le))))) (by decide)
theorem shape54 (n : Nat) (x0 : BitVec 7) (x1 : BitVec 7) (x2 : BitVec 4) (x3 : BitVec 3) (x4 : BitVec 3) (x5 : BitVec 1) (h : n ≤ 4261412864) : pack n [at18 x0, at11 x1, at7 x2, at4 x3, at1 x4, at0 x5] < 2 ^ 32 :=
  pack_lt h (sum_cons_le (at18_le x0) (sum_cons_le (at11_le x1) (sum_cons_le (at7_le x2) (sum_cons_le (at4_le x3) (sum_cons_le (at1_le x4) (sum_cons_le (at0_le x5) sum_nil_le)))))) (by decide)
theorem shape55 (n : Nat) (x0 : BitVec 7) (x1 : BitVec 7) (x2 : BitVec 3) (x3 : BitVec 4) (x4 : BitVec 2) (x5 : BitVec 1) (h : n ≤ 4261412864) : pack n [at17 x0, at10 x1, at7 x2, at3 x3, at1 x4, at0 x5] < 2 ^ 32 :=
  pack_lt h (sum_cons_le (at17_le x0) (sum_cons_le (at10_le x1) (sum_cons_le (at7_le x2) (sum_cons_le (at3_le x3) (sum_cons_le (at1_le x4) (sum_cons_le (at0_le x5) sum_nil_le)))))) (by decide)
theorem shape56 (n : Nat) (x0 : BitVec 4) (x1 : BitVec 6) (x2 : BitVec 6) (h : n ≤ 4261412864) : pack n [at20 x0, at14 x1, at8 x2] < 2 ^ 32 :=
  pack_lt h (sum_cons_le (at20_le x0) (sum_cons_le (at14_le x1) (sum_cons_le (at8_le x2) sum_nil_le))) (by decide)
theorem shape57 (n : Nat) (x0 : BitVec 6) (x1 : BitVec 6) (h : n ≤ 4261412864) : pack n [at13 x0, at7 x1] < 2 ^ 32 :=
  pack_lt h (sum_cons_le (at13_le x0) (sum_cons_le (at7_le x1) sum_nil_le)) (by decide)
theorem shape58 (n : Nat) (x0 : BitVec 6) (h : n ≤ 4261412864) : pack n [at13 x0] < 2 ^ 32 :=
  pack_lt h (sum_cons_le (at13_le x0) sum_nil_le) (by decide)
theorem shape59 (n : Nat) (x0 : BitVec 6) (x1 : BitVec 6) (x2 : BitVec 2) (h : n ≤ 4261412864) : pack n [at19 x0, at13 x1, at0 x2] < 2 ^ 32 :=
  pack_lt h (sum_cons_le (at19_le x0) (sum_cons_le (at13_le x1) (sum_cons_le (at0_le x2) sum_nil_le))) (by decide)
theorem shape60 (n : Nat) (x0 : BitVec 6) (x1 : BitVec 3) (x2 : BitVec 2) (h : n ≤ 4261412864) : pack n [at12 x0, at6 x1, at1 x2] < 2 ^ 32 :=
  pack_lt h (sum_cons_le (at12_le x0) (sum_cons_le (at6_le x1) (sum_cons_le (at1_le x2) sum_nil_le))) (by decide)
theorem shape61 (n : Nat) (x0 : BitVec 6) (x1 : BitVec 3) (x2 : BitVec 1) (h : n ≤ 4261412864) : pack n [at12 x0, at1 x1, at0 x2] < 2 ^ 32 :=
  pack_lt h (sum_cons_le (at12_le x0) (sum_cons_le (at1_le x1) (sum_cons_le (at0_le x2) sum_nil_le))) (by decide)
theorem shape62 (n : Nat) (x0 : BitVec 7) (x1 : BitVec 6) (x2 : BitVec 3) (h : n ≤ 4261412864) : pack n [at18 x0, at12 x1, at6 x2] < 2 ^ 32 :=
  pack_lt h (sum_cons_le (at18_le x0) (sum_cons_le (at12_le x1) (sum_cons_le (at6_le x2) sum_nil_le))) (by decide)
theorem shape63 (n : Nat) (x0 : BitVec 7) (x1 : BitVec 3) (x2 : BitVec 3) (h : n ≤ 4261412864) : pack n [at18 x0, at6 x1, at1 x2] < 2 ^ 32 :=
  pack_lt h (sum_cons_le (at18_le x0) (sum_cons_le (at6_le x1) (sum_cons_le (at1_le x2) sum_nil_le))) (by decide)
theorem shape64 (n : Nat) (x0 : BitVec 6) (x1 : BitVec 6) (x2 : BitVec 1) (h : n ≤ 4261412864) : pack n [at12 x0, at6 x1, at0 x2] < 2 ^ 32 :=
  pack_lt h (sum_cons_le (at12_le x0) (sum_cons_le (at6_le x1) (sum_cons_le (at0_le x2) sum_nil_le))) (by decide)
theorem shape65 (n : Nat) (x0 : BitVec 3) (x1 : BitVec 6) (x2 : BitVec 3) (h : n ≤ 4261412864) : pack n [at18 x0, at12 x1, at6 x2] < 2 ^ 32 :=
  pack_lt h (sum_cons_le (at18_le x0) (sum_cons_le (at12_le x1) (sum_cons_le (at6_le x2) sum_nil_le))) (by decide)
theorem shape66 (n : Nat) (x0 : BitVec 6) (x1 : BitVec 6) (h : n ≤ 4261412864) : pack n [at12 x0, at6 x1] < 2 ^ 32 :=
  pack_lt h (sum_cons_le (at12_le x0) (sum_cons_le (at6_le x1) sum_nil_le)) (by decide)
theorem shape67 (n : Nat) (x0 : BitVec 6) (x1 : BitVec 6) (x2 : BitVec 6) (x3 : BitVec 1) (h : n ≤ 4261412864) : pack n [at18 x0, at12 x1, at6 x2, at0 x3] < 2 ^ 32 :=
  pack_lt h (sum_cons_le (at18_le x0) (sum_cons_le (at12_le x1) (sum_cons_le (at6_le x2) (sum_cons_le (at0_le x3) sum_nil_le)))) (by decide)
theorem shape68 (n : Nat) (x0 : BitVec 2) (x1 : BitVec 6) (h : n ≤ 4261412864) : pack n [at18 x0, at12 x1] < 2 ^ 32 :=
  pack_lt h (sum_cons_le (at18_le x0) (sum_cons_le (at12_le x1) sum_nil_le)) (by decide)
theorem shape69 (n : Nat) (x0 : BitVec 6) (x1 : BitVec 6) (x2 : BitVec 6) (h : n ≤ 4261412864) : pack n [at18 x0, at12 x1, at6 x2] < 2 ^ 32 :=
  pack_lt h (sum_cons_le (at18_le x0) (sum_cons_le (at12_le x1) (sum_cons_le (at6_le x2) sum_nil_le))) (by decide)
theorem shape70 (n : Nat) (x0 : BitVec 6) (h : n ≤ 4261412864) : pack n [at6 x0] < 2 ^ 32 :=
  pack_lt h (sum_cons_le (at6_le x0) sum_nil_le) (by decide)
theorem shape71 (n : Nat) (x0 : BitVec 3) (x1 : BitVec 6) (x2 : BitVec 6) (x3 : BitVec 1) (h : n ≤ 4261412864) : pack n [at18 x0, at12 x1, at6 x2, at0 x3] < 2 ^ 32 :=
  pack_lt h (sum_cons_le (at18_le x0) (sum_cons_le (at12_le x1) (sum_cons_le (at6_le x2) (sum_cons_le (at0_le x3) sum_nil_le)))) (by decide)
theorem shape72 (n : Nat) (x0 : BitVec 7) (x1 : BitVec 3) (x2 : BitVec 1) (h : n ≤ 4261412864) : pack n [at18 x0, at12 x1, at0 x2] < 2 ^ 32 :=
  pack_lt h (sum_cons_le (at18_le x0) (sum_cons_le (at12_le x1) (sum_cons_le (at0_le x2) sum_nil_le))) (by decide)
theorem shape73 (n : Nat) (x0 : BitVec 7) (x1 : BitVec 6) (h : n ≤ 4261412864) : pack n [at18 x0, at12 x1] < 2 ^ 32 :=
  pack_lt h (sum_cons_le (at18_le x0) (sum_cons_le (at12_le x1) sum_nil_le)) (by decide)
theorem shape74 (n : Nat) (x0 : BitVec 4) (x1 : BitVec 6) (h : n ≤ 4261412864) : pack n [at18 x0, at12 x1] < 2 ^ 32 :=
  pack_lt h (sum_cons_le (at18_le x0) (sum_cons_le (at12_le x1) sum_nil_le)) (by decide)
theorem shape75 (n : Nat) (x0 : BitVec 6) (h : n ≤ 4261412864) : pack n [at12 x0] < 2 ^ 32 :=
  pack_lt h (sum_cons_le (at12_le x0) sum_nil_le) (by decide)
theorem shape76 (n : Nat) (x0 : BitVec 3) (x1 : BitVec 2) (x2 : BitVec 3) (x3 : BitVec 3) (x4 : BitVec 3) (x5 : BitVec 3) (h : n ≤ 4261412864) : pack n [at22 x0, at20 x1, at17 x2, at14 x3, at11 x4, at8 x5] < 2 ^ 32 :=
  pack_lt h (sum_cons_le (at22_le x0) (sum_cons_le (at20_le x1) (sum_cons_le (at17_le x2) (sum_cons_le (at14_le x3) (sum_cons_le (at11_le x4) (sum_cons_le (at8_le x5) sum_nil_le)))))) (by decide)

theorem bra (o : BitVec 16) : Statement (.bra o) := of_word rfl (shape0 _ _ (by decide))
theorem braZ (s : BitVec 6) (o : BitVec 16) : Statement (.braZ s o) := of_word rfl (shape1 _ _ _ (by decide))
theorem braNz (s : BitVec 6) (o : BitVec 16) : Statement (.braNz s o) := of_word rfl (shape1 _ _ _ (by decide))
theorem braLt (s : BitVec 6) (o : BitVec 16) : Statement (.braLt s o) := of_word rfl (shape1 _ _ _ (by decide))
theorem braGe (s : BitVec 6) (o : BitVec 16) : Statement (.braGe s o) := of_word rfl (shape1 _ _ _ (by decide))
theorem braAll (p : BitVec 3) (o : BitVec 16) : Statement (.braAll p o) := of_word rfl (shape2 _ _ _ (by decide))
theorem braAny (p : BitVec 3) (o : BitVec 16) : Statement (.braAny p o) := of_word rfl (shape2 _ _ _ (by decide))
theorem brp (n : BitVec 1) (p : BitVec 3) (o : BitVec 16) : Statement (.brp n p o) := of_word rfl (shape3 _ _ _ _ (by decide))
theorem call (l : BitVec 6) (o : BitVec 16) : Statement (.call l o) := of_word rfl (shape1 _ _ _ (by decide))
theorem brx (t : BitVec 6) (o : BitVec 16) : Statement (.brx t o) := of_word rfl (shape1 _ _ _ (by decide))
theorem ret (r : BitVec 6) : Statement (.ret r) := of_word rfl (shape4 _ _ (by decide))
theorem jset (j : BitVec 4) : Statement (.jset j) := of_word rfl (shape5 _ _ (by decide))
theorem join (j : BitVec 4) : Statement (.join j) := of_word rfl (shape5 _ _ (by decide))
theorem waitj (j : BitVec 4) : Statement (.waitj j) := of_word rfl (shape5 _ _ (by decide))
theorem fork (d : BitVec 6) (t : BitVec 6) (w : BitVec 6) (p : BitVec 3) : Statement (.fork d t w p) := of_word rfl (shape6 _ _ _ _ _ (by decide))
theorem fend : Statement .fend := of_word rfl (shape7 _ (by decide))
theorem fyield : Statement .fyield := of_word rfl (shape7 _ (by decide))
theorem fsync (a : BitVec 6) : Statement (.fsync a) := of_word rfl (shape8 _ _ (by decide))
theorem fsyncM (a : BitVec 6) : Statement (.fsyncM a) := of_word rfl (shape8 _ _ (by decide))
theorem fresume (k : BitVec 6) : Statement (.fresume k) := of_word rfl (shape8 _ _ (by decide))
theorem fresumePc (k : BitVec 6) (p : BitVec 6) : Statement (.fresumePc k p) := of_word rfl (shape9 _ _ _ (by decide))
theorem fresumeEnd (k : BitVec 6) : Statement (.fresumeEnd k) := of_word rfl (shape8 _ _ (by decide))
theorem fstatMask (d : BitVec 6) (k : BitVec 6) : Statement (.fstatMask d k) := of_word rfl (shape10 _ _ _ (by decide))
theorem fstatPc (d : BitVec 6) (k : BitVec 6) : Statement (.fstatPc d k) := of_word rfl (shape10 _ _ _ (by decide))
theorem fstatInfo (d : BitVec 6) (k : BitVec 6) : Statement (.fstatInfo d k) := of_word rfl (shape10 _ _ _ (by decide))
theorem barWg : Statement .barWg := of_word rfl (shape7 _ (by decide))
theorem barCa : Statement .barCa := of_word rfl (shape7 _ (by decide))
theorem barCw : Statement .barCw := of_word rfl (shape7 _ (by decide))
theorem barGrid : Statement .barGrid := of_word rfl (shape7 _ (by decide))
theorem waitf (m : BitVec 12) : Statement (.waitf m) := of_word rfl (shape11 _ _ (by decide))
theorem setf (m : BitVec 12) : Statement (.setf m) := of_word rfl (shape11 _ _ (by decide))
theorem clrf (m : BitVec 12) : Statement (.clrf m) := of_word rfl (shape11 _ _ (by decide))
theorem trap (c : BitVec 16) : Statement (.trap c) := of_word rfl (shape0 _ _ (by decide))
theorem brk (c : BitVec 16) : Statement (.brk c) := of_word rfl (shape0 _ _ (by decide))
theorem sysr (s : BitVec 6) (r : BitVec 16) : Statement (.sysr s r) := of_word rfl (shape1 _ _ _ (by decide))
theorem sysw (s : BitVec 6) (r : BitVec 16) : Statement (.sysw s r) := of_word rfl (shape1 _ _ _ (by decide))
theorem icinv (a : BitVec 6) (b : BitVec 6) : Statement (.icinv a b) := of_word rfl (shape9 _ _ _ (by decide))
theorem icinvD (a : BitVec 6) (b : BitVec 6) : Statement (.icinvD a b) := of_word rfl (shape9 _ _ _ (by decide))
theorem isync : Statement .isync := of_word rfl (shape7 _ (by decide))
theorem pand (d : BitVec 3) (a : BitVec 3) (b : BitVec 3) : Statement (.pand d a b) := of_word rfl (shape12 _ _ _ _ (by decide))
theorem por (d : BitVec 3) (a : BitVec 3) (b : BitVec 3) : Statement (.por d a b) := of_word rfl (shape12 _ _ _ _ (by decide))
theorem pxor (d : BitVec 3) (a : BitVec 3) (b : BitVec 3) : Statement (.pxor d a b) := of_word rfl (shape12 _ _ _ _ (by decide))
theorem pnot (d : BitVec 3) (a : BitVec 3) : Statement (.pnot d a) := of_word rfl (shape13 _ _ _ (by decide))
theorem pmov (d : BitVec 3) (a : BitVec 3) : Statement (.pmov d a) := of_word rfl (shape13 _ _ _ (by decide))
theorem pmovFs (d : BitVec 3) (s : BitVec 6) : Statement (.pmovFs d s) := of_word rfl (shape14 _ _ _ (by decide))
theorem pmovTs (a : BitVec 3) (s : BitVec 6) : Statement (.pmovTs a s) := of_word rfl (shape15 _ _ _ (by decide))
theorem nop : Statement .nop := of_word rfl (shape7 _ (by decide))
theorem exit : Statement .exit := of_word rfl (shape7 _ (by decide))
theorem vadd (d : BitVec 7) (a : BitVec 7) (x : BitVec 2) (b : BitVec 7) (y : BitVec 2) : Statement (.vadd d a x b y) := of_word rfl (shape16 _ _ _ _ _ _ (by decide))
theorem vsub (d : BitVec 7) (a : BitVec 7) (x : BitVec 2) (b : BitVec 7) (y : BitVec 2) : Statement (.vsub d a x b y) := of_word rfl (shape16 _ _ _ _ _ _ (by decide))
theorem vmul (d : BitVec 7) (a : BitVec 7) (x : BitVec 2) (b : BitVec 7) (y : BitVec 2) : Statement (.vmul d a x b y) := of_word rfl (shape16 _ _ _ _ _ _ (by decide))
theorem vmulh (d : BitVec 7) (a : BitVec 7) (x : BitVec 2) (b : BitVec 7) (y : BitVec 2) : Statement (.vmulh d a x b y) := of_word rfl (shape16 _ _ _ _ _ _ (by decide))
theorem vfma (d : BitVec 7) (a : BitVec 7) (x : BitVec 2) (b : BitVec 7) (y : BitVec 2) : Statement (.vfma d a x b y) := of_word rfl (shape16 _ _ _ _ _ _ (by decide))
theorem vfms (d : BitVec 7) (a : BitVec 7) (x : BitVec 2) (b : BitVec 7) (y : BitVec 2) : Statement (.vfms d a x b y) := of_word rfl (shape16 _ _ _ _ _ _ (by decide))
theorem vmadi (d : BitVec 7) (a : BitVec 7) (x : BitVec 2) (b : BitVec 7) (y : BitVec 2) : Statement (.vmadi d a x b y) := of_word rfl (shape16 _ _ _ _ _ _ (by decide))
theorem vmin (d : BitVec 7) (a : BitVec 7) (x : BitVec 2) (b : BitVec 7) (y : BitVec 2) : Statement (.vmin d a x b y) := of_word rfl (shape16 _ _ _ _ _ _ (by decide))
theorem vmax (d : BitVec 7) (a : BitVec 7) (x : BitVec 2) (b : BitVec 7) (y : BitVec 2) : Statement (.vmax d a x b y) := of_word rfl (shape16 _ _ _ _ _ _ (by decide))
theorem vand (d : BitVec 7) (a : BitVec 7) (x : BitVec 2) (b : BitVec 7) (y : BitVec 2) : Statement (.vand d a x b y) := of_word rfl (shape16 _ _ _ _ _ _ (by decide))
theorem vor (d : BitVec 7) (a : BitVec 7) (x : BitVec 2) (b : BitVec 7) (y : BitVec 2) : Statement (.vor d a x b y) := of_word rfl (shape16 _ _ _ _ _ _ (by decide))
theorem vxor (d : BitVec 7) (a : BitVec 7) (x : BitVec 2) (b : BitVec 7) (y : BitVec 2) : Statement (.vxor d a x b y) := of_word rfl (shape16 _ _ _ _ _ _ (by decide))
theorem vshl (d : BitVec 7) (a : BitVec 7) (x : BitVec 2) (b : BitVec 7) (y : BitVec 2) : Statement (.vshl d a x b y) := of_word rfl (shape16 _ _ _ _ _ _ (by decide))
theorem vshr (d : BitVec 7) (a : BitVec 7) (x : BitVec 2) (b : BitVec 7) (y : BitVec 2) : Statement (.vshr d a x b y) := of_word rfl (shape16 _ _ _ _ _ _ (by decide))
theorem vsra (d : BitVec 7) (a : BitVec 7) (x : BitVec 2) (b : BitVec 7) (y : BitVec 2) : Statement (.vsra d a x b y) := of_word rfl (shape16 _ _ _ _ _ _ (by decide))
theorem vscale (d : BitVec 7) (a : BitVec 7) (x : BitVec 2) (b : BitVec 7) (y : BitVec 2) : Statement (.vscale d a x b y) := of_word rfl (shape16 _ _ _ _ _ _ (by decide))
theorem vdot4 (d : BitVec 7) (a : BitVec 7) (x : BitVec 2) (b : BitVec 7) (y : BitVec 2) : Statement (.vdot4 d a x b y) := of_word rfl (shape16 _ _ _ _ _ _ (by decide))
theorem vpack (d : BitVec 7) (a : BitVec 7) (x : BitVec 2) (b : BitVec 7) (y : BitVec 2) : Statement (.vpack d a x b y) := of_word rfl (shape16 _ _ _ _ _ _ (by decide))
theorem vperm (d : BitVec 7) (a : BitVec 7) (x : BitVec 2) (b : BitVec 7) (y : BitVec 2) : Statement (.vperm d a x b y) := of_word rfl (shape16 _ _ _ _ _ _ (by decide))
theorem vcmp (p : BitVec 3) (c : BitVec 3) (a : BitVec 7) (x : BitVec 2) (b : BitVec 7) (y : BitVec 2) : Statement (.vcmp p c a x b y) := of_word rfl (shape17 _ _ _ _ _ _ _ (by decide))
theorem vsel (d : BitVec 7) (a : BitVec 7) (x : BitVec 2) (p : BitVec 3) (n : BitVec 1) : Statement (.vsel d a x p n) := of_word rfl (shape18 _ _ _ _ _ _ (by decide))
theorem vmovi (d : BitVec 7) (t : BitVec 4) (i : BitVec 9) : Statement (.vmovi d t i) := of_word rfl (shape19 _ _ _ _ (by decide))
theorem vmov (d : BitVec 7) (a : BitVec 7) (x : BitVec 2) : Statement (.vmov d a x) := of_word rfl (shape20 _ _ _ _ (by decide))
theorem vabs (d : BitVec 7) (a : BitVec 7) (x : BitVec 2) : Statement (.vabs d a x) := of_word rfl (shape20 _ _ _ _ (by decide))
theorem vneg (d : BitVec 7) (a : BitVec 7) (x : BitVec 2) : Statement (.vneg d a x) := of_word rfl (shape20 _ _ _ _ (by decide))
theorem vnot (d : BitVec 7) (a : BitVec 7) (x : BitVec 2) : Statement (.vnot d a x) := of_word rfl (shape20 _ _ _ _ (by decide))
theorem vclass (d : BitVec 7) (a : BitVec 7) (x : BitVec 2) : Statement (.vclass d a x) := of_word rfl (shape20 _ _ _ _ (by decide))
theorem vclz (d : BitVec 7) (a : BitVec 7) (x : BitVec 2) : Statement (.vclz d a x) := of_word rfl (shape20 _ _ _ _ (by decide))
theorem vffs (d : BitVec 7) (a : BitVec 7) (x : BitVec 2) : Statement (.vffs d a x) := of_word rfl (shape20 _ _ _ _ (by decide))
theorem vpopc (d : BitVec 7) (a : BitVec 7) (x : BitVec 2) : Statement (.vpopc d a x) := of_word rfl (shape20 _ _ _ _ (by decide))
theorem vbrev (d : BitVec 7) (a : BitVec 7) (x : BitVec 2) : Statement (.vbrev d a x) := of_word rfl (shape20 _ _ _ _ (by decide))
theorem vtag (d : BitVec 7) (a : BitVec 7) : Statement (.vtag d a) := of_word rfl (shape21 _ _ _ (by decide))
theorem vlaneid (d : BitVec 7) : Statement (.vlaneid d) := of_word rfl (shape22 _ _ (by decide))
theorem vexp2 (d : BitVec 7) (a : BitVec 7) (x : BitVec 2) : Statement (.vexp2 d a x) := of_word rfl (shape20 _ _ _ _ (by decide))
theorem vlog2 (d : BitVec 7) (a : BitVec 7) (x : BitVec 2) : Statement (.vlog2 d a x) := of_word rfl (shape20 _ _ _ _ (by decide))
theorem vrcp (d : BitVec 7) (a : BitVec 7) (x : BitVec 2) : Statement (.vrcp d a x) := of_word rfl (shape20 _ _ _ _ (by decide))
theorem vrsq (d : BitVec 7) (a : BitVec 7) (x : BitVec 2) : Statement (.vrsq d a x) := of_word rfl (shape20 _ _ _ _ (by decide))
theorem vsin (d : BitVec 7) (a : BitVec 7) (x : BitVec 2) : Statement (.vsin d a x) := of_word rfl (shape20 _ _ _ _ (by decide))
theorem vcos (d : BitVec 7) (a : BitVec 7) (x : BitVec 2) : Statement (.vcos d a x) := of_word rfl (shape20 _ _ _ _ (by decide))
theorem vunpk (d : BitVec 7) (a : BitVec 7) (x : BitVec 2) (e : BitVec 4) : Statement (.vunpk d a x e) := of_word rfl (shape23 _ _ _ _ _ (by decide))
theorem vcvt (d : BitVec 7) (a : BitVec 7) (x : BitVec 2) (t : BitVec 4) : Statement (.vcvt d a x t) := of_word rfl (shape24 _ _ _ _ _ (by decide))
theorem vretag (d : BitVec 7) (a : BitVec 7) (x : BitVec 2) (t : BitVec 4) : Statement (.vretag d a x t) := of_word rfl (shape24 _ _ _ _ _ (by decide))
theorem vreduce (a : BitVec 7) (x : BitVec 2) (s : BitVec 6) (o : BitVec 3) : Statement (.vreduce a x s o) := of_word rfl (shape25 _ _ _ _ _ (by decide))
theorem vscan (d : BitVec 7) (a : BitVec 7) (x : BitVec 2) (s : BitVec 6) (o : BitVec 3) : Statement (.vscan d a x s o) := of_word rfl (shape26 _ _ _ _ _ _ (by decide))
theorem route (q : BitVec 2) (k : BitVec 3) (p : BitVec 6) : Statement (.route q k p) := of_word rfl (shape27 _ _ _ _ (by decide))
theorem routeS (q : BitVec 2) (k : BitVec 3) (s : BitVec 6) : Statement (.routeS q k s) := of_word rfl (shape28 _ _ _ _ (by decide))
theorem ptld (t : BitVec 4) (a : BitVec 7) (x : BitVec 2) : Statement (.ptld t a x) := of_word rfl (shape29 _ _ _ _ (by decide))
theorem vballot (s : BitVec 6) (p : BitVec 3) : Statement (.vballot s p) := of_word rfl (shape30 _ _ _ (by decide))
theorem vvoteAny (s : BitVec 6) (d : BitVec 3) (p : BitVec 3) : Statement (.vvoteAny s d p) := of_word rfl (shape31 _ _ _ _ (by decide))
theorem vvoteAll (s : BitVec 6) (d : BitVec 3) (p : BitVec 3) : Statement (.vvoteAll s d p) := of_word rfl (shape31 _ _ _ _ (by decide))
theorem vvoteEq (s : BitVec 6) (d : BitVec 3) (p : BitVec 3) : Statement (.vvoteEq s d p) := of_word rfl (shape31 _ _ _ _ (by decide))
theorem sadd (d : BitVec 6) (a : BitVec 6) (b : BitVec 6) : Statement (.sadd d a b) := of_word rfl (shape32 _ _ _ _ (by decide))
theorem ssub (d : BitVec 6) (a : BitVec 6) (b : BitVec 6) : Statement (.ssub d a b) := of_word rfl (shape32 _ _ _ _ (by decide))
theorem smul (d : BitVec 6) (a : BitVec 6) (b : BitVec 6) : Statement (.smul d a b) := of_word rfl (shape32 _ _ _ _ (by decide))
theorem smulh (d : BitVec 6) (a : BitVec 6) (b : BitVec 6) : Statement (.smulh d a b) := of_word rfl (shape32 _ _ _ _ (by decide))
theorem smulhU (d : BitVec 6) (a : BitVec 6) (b : BitVec 6) : Statement (.smulhU d a b) := of_word rfl (shape32 _ _ _ _ (by decide))
theorem sdiv (d : BitVec 6) (a : BitVec 6) (b : BitVec 6) : Statement (.sdiv d a b) := of_word rfl (shape32 _ _ _ _ (by decide))
theorem sdivU (d : BitVec 6) (a : BitVec 6) (b : BitVec 6) : Statement (.sdivU d a b) := of_word rfl (shape32 _ _ _ _ (by decide))
theorem srem (d : BitVec 6) (a : BitVec 6) (b : BitVec 6) : Statement (.srem d a b) := of_word rfl (shape32 _ _ _ _ (by decide))
theorem sremU (d : BitVec 6) (a : BitVec 6) (b : BitVec 6) : Statement (.sremU d a b) := of_word rfl (shape32 _ _ _ _ (by decide))
theorem sand (d : BitVec 6) (a : BitVec 6) (b : BitVec 6) : Statement (.sand d a b) := of_word rfl (shape32 _ _ _ _ (by decide))
theorem sor (d : BitVec 6) (a : BitVec 6) (b : BitVec 6) : Statement (.sor d a b) := of_word rfl (shape32 _ _ _ _ (by decide))
theorem sxor (d : BitVec 6) (a : BitVec 6) (b : BitVec 6) : Statement (.sxor d a b) := of_word rfl (shape32 _ _ _ _ (by decide))
theorem sshl (d : BitVec 6) (a : BitVec 6) (b : BitVec 6) : Statement (.sshl d a b) := of_word rfl (shape32 _ _ _ _ (by decide))
theorem sshr (d : BitVec 6) (a : BitVec 6) (b : BitVec 6) : Statement (.sshr d a b) := of_word rfl (shape32 _ _ _ _ (by decide))
theorem ssra (d : BitVec 6) (a : BitVec 6) (b : BitVec 6) : Statement (.ssra d a b) := of_word rfl (shape32 _ _ _ _ (by decide))
theorem smin (d : BitVec 6) (a : BitVec 6) (b : BitVec 6) : Statement (.smin d a b) := of_word rfl (shape32 _ _ _ _ (by decide))
theorem sminU (d : BitVec 6) (a : BitVec 6) (b : BitVec 6) : Statement (.sminU d a b) := of_word rfl (shape32 _ _ _ _ (by decide))
theorem smax (d : BitVec 6) (a : BitVec 6) (b : BitVec 6) : Statement (.smax d a b) := of_word rfl (shape32 _ _ _ _ (by decide))
theorem smaxU (d : BitVec 6) (a : BitVec 6) (b : BitVec 6) : Statement (.smaxU d a b) := of_word rfl (shape32 _ _ _ _ (by decide))
theorem smov (d : BitVec 6) (b : BitVec 6) : Statement (.smov d b) := of_word rfl (shape33 _ _ _ (by decide))
theorem sclz (d : BitVec 6) (a : BitVec 6) : Statement (.sclz d a) := of_word rfl (shape34 _ _ _ (by decide))
theorem sffs (d : BitVec 6) (a : BitVec 6) : Statement (.sffs d a) := of_word rfl (shape34 _ _ _ (by decide))
theorem spopc (d : BitVec 6) (a : BitVec 6) : Statement (.spopc d a) := of_word rfl (shape34 _ _ _ (by decide))
theorem ssel (d : BitVec 6) (a : BitVec 6) (b : BitVec 6) : Statement (.ssel d a b) := of_word rfl (shape32 _ _ _ _ (by decide))
theorem scmp (d : BitVec 6) (a : BitVec 6) (b : BitVec 6) (r : BitVec 4) : Statement (.scmp d a b r) := of_word rfl (shape35 _ _ _ _ _ (by decide))
theorem saddImm (d : BitVec 6) (a : BitVec 6) (i : BitVec 13) : Statement (.saddImm d a i) := of_word rfl (shape36 _ _ _ _ (by decide))
theorem sandImm (d : BitVec 6) (a : BitVec 6) (i : BitVec 13) : Statement (.sandImm d a i) := of_word rfl (shape36 _ _ _ _ (by decide))
theorem sorImm (d : BitVec 6) (a : BitVec 6) (i : BitVec 13) : Statement (.sorImm d a i) := of_word rfl (shape36 _ _ _ _ (by decide))
theorem sxorImm (d : BitVec 6) (a : BitVec 6) (i : BitVec 13) : Statement (.sxorImm d a i) := of_word rfl (shape36 _ _ _ _ (by decide))
theorem sshlImm (d : BitVec 6) (a : BitVec 6) (n : BitVec 6) : Statement (.sshlImm d a n) := of_word rfl (shape37 _ _ _ _ (by decide))
theorem sshrImm (d : BitVec 6) (a : BitVec 6) (n : BitVec 6) : Statement (.sshrImm d a n) := of_word rfl (shape37 _ _ _ _ (by decide))
theorem ssraImm (d : BitVec 6) (a : BitVec 6) (n : BitVec 6) : Statement (.ssraImm d a n) := of_word rfl (shape37 _ _ _ _ (by decide))
theorem sli (d : BitVec 6) (i : BitVec 13) : Statement (.sli d i) := of_word rfl (shape38 _ _ _ (by decide))
theorem sliHi (d : BitVec 6) : Statement (.sliHi d) := of_word rfl (shape39 _ _ (by decide))
theorem smadd (d : BitVec 6) (a : BitVec 6) (b : BitVec 6) (c : BitVec 6) : Statement (.smadd d a b c) := of_word rfl (shape40 _ _ _ _ _ (by decide))
theorem sbfx (d : BitVec 6) (a : BitVec 6) (p : BitVec 6) (l : BitVec 6) (x : BitVec 1) : Statement (.sbfx d a p l x) := of_word rfl (shape41 _ _ _ _ _ _ (by decide))
theorem sbfi (d : BitVec 6) (a : BitVec 6) (p : BitVec 6) (l : BitVec 6) : Statement (.sbfi d a p l) := of_word rfl (shape40 _ _ _ _ _ (by decide))
theorem ld32 (d : BitVec 7) (a : BitVec 7) (b : BitVec 6) (t : BitVec 4) (f : BitVec 1) : Statement (.ld32 d a b t f) := of_word rfl (shape42 _ _ _ _ _ _ (by decide))
theorem ld64 (d : BitVec 7) (a : BitVec 7) (b : BitVec 6) (t : BitVec 4) (f : BitVec 1) : Statement (.ld64 d a b t f) := of_word rfl (shape42 _ _ _ _ _ _ (by decide))
theorem ld128 (d : BitVec 7) (a : BitVec 7) (b : BitVec 6) (t : BitVec 4) (f : BitVec 1) : Statement (.ld128 d a b t f) := of_word rfl (shape42 _ _ _ _ _ _ (by decide))
theorem ldN (d : BitVec 7) (a : BitVec 7) (b : BitVec 6) (n : BitVec 3) (f : BitVec 1) : Statement (.ldN d a b n f) := of_word rfl (shape43 _ _ _ _ _ _ (by decide))
theorem st32 (d : BitVec 7) (a : BitVec 7) (b : BitVec 6) (f : BitVec 1) : Statement (.st32 d a b f) := of_word rfl (shape44 _ _ _ _ _ (by decide))
theorem st64 (d : BitVec 7) (a : BitVec 7) (b : BitVec 6) (f : BitVec 1) : Statement (.st64 d a b f) := of_word rfl (shape44 _ _ _ _ _ (by decide))
theorem st128 (d : BitVec 7) (a : BitVec 7) (b : BitVec 6) (f : BitVec 1) : Statement (.st128 d a b f) := of_word rfl (shape44 _ _ _ _ _ (by decide))
theorem stN (d : BitVec 7) (a : BitVec 7) (b : BitVec 6) (n : BitVec 1) (f : BitVec 1) : Statement (.stN d a b n f) := of_word rfl (shape45 _ _ _ _ _ _ (by decide))
theorem lds (d : BitVec 6) (b : BitVec 6) (n : BitVec 3) (f : BitVec 1) (i : BitVec 8) : Statement (.lds d b n f i) := of_word rfl (shape46 _ _ _ _ _ _ (by decide))
theorem sts (d : BitVec 6) (b : BitVec 6) (n : BitVec 2) (f : BitVec 1) (i : BitVec 8) : Statement (.sts d b n f i) := of_word rfl (shape47 _ _ _ _ _ _ (by decide))
theorem ldb (d : BitVec 7) (b : BitVec 6) (t : BitVec 4) (f : BitVec 1) : Statement (.ldb d b t f) := of_word rfl (shape48 _ _ _ _ _ (by decide))
theorem pref (a : BitVec 7) (b : BitVec 6) (n : BitVec 1) : Statement (.pref a b n) := of_word rfl (shape49 _ _ _ _ (by decide))
theorem fence (p : BitVec 8) (s : BitVec 8) (c : BitVec 3) : Statement (.fence p s c) := of_word rfl (shape50 _ _ _ _ (by decide))
theorem waitc (a : BitVec 6) (v : BitVec 6) (o : BitVec 4) (z : BitVec 1) (f : BitVec 1) : Statement (.waitc a v o z f) := of_word rfl (shape51 _ _ _ _ _ _ (by decide))
theorem decantBind (d : BitVec 6) (a : BitVec 6) (b : BitVec 6) : Statement (.decantBind d a b) := of_word rfl (shape32 _ _ _ _ (by decide))
theorem decantUnbind (d : BitVec 6) (a : BitVec 6) : Statement (.decantUnbind d a) := of_word rfl (shape34 _ _ _ (by decide))
theorem ldw (d : BitVec 7) (b : BitVec 6) (f : BitVec 1) : Statement (.ldw d b f) := of_word rfl (shape52 _ _ _ _ (by decide))
theorem stw (d : BitVec 7) (b : BitVec 6) (f : BitVec 1) : Statement (.stw d b f) := of_word rfl (shape52 _ _ _ _ (by decide))
theorem clst (d : BitVec 7) (a : BitVec 7) (b : BitVec 6) (n : BitVec 2) (f : BitVec 1) : Statement (.clst d a b n f) := of_word rfl (shape53 _ _ _ _ _ _ (by decide))
theorem amo (d : BitVec 7) (a : BitVec 7) (b : BitVec 4) (o : BitVec 3) (r : BitVec 3) (f : BitVec 1) : Statement (.amo d a b o r f) := of_word rfl (shape54 _ _ _ _ _ _ _ (by decide))
theorem amor (d : BitVec 7) (a : BitVec 7) (b : BitVec 4) (o : BitVec 3) (r : BitVec 3) (f : BitVec 1) : Statement (.amor d a b o r f) := of_word rfl (shape54 _ _ _ _ _ _ _ (by decide))
theorem cas (d : BitVec 7) (a : BitVec 7) (b : BitVec 4) (s : BitVec 3) (r : BitVec 3) (f : BitVec 1) : Statement (.cas d a b s r f) := of_word rfl (shape54 _ _ _ _ _ _ _ (by decide))
theorem acust (d : BitVec 7) (a : BitVec 7) (b : BitVec 3) (h : BitVec 4) (r : BitVec 2) (f : BitVec 1) : Statement (.acust d a b h r f) := of_word rfl (shape55 _ _ _ _ _ _ _ (by decide))
theorem asinst (h : BitVec 4) (a : BitVec 6) (b : BitVec 6) : Statement (.asinst h a b) := of_word rfl (shape56 _ _ _ _ (by decide))
theorem tlbinvVaDev (a : BitVec 6) (b : BitVec 6) : Statement (.tlbinvVaDev a b) := of_word rfl (shape57 _ _ _ (by decide))
theorem tlbinvVaSys (a : BitVec 6) (b : BitVec 6) : Statement (.tlbinvVaSys a b) := of_word rfl (shape57 _ _ _ (by decide))
theorem tlbinvAsidDev (a : BitVec 6) : Statement (.tlbinvAsidDev a) := of_word rfl (shape58 _ _ (by decide))
theorem tlbinvAsidSys (a : BitVec 6) : Statement (.tlbinvAsidSys a) := of_word rfl (shape58 _ _ (by decide))
theorem tlbinvAllDev : Statement .tlbinvAllDev := of_word rfl (shape7 _ (by decide))
theorem tlbinvAllSys : Statement .tlbinvAllSys := of_word rfl (shape7 _ (by decide))
theorem tlbsyncDev : Statement .tlbsyncDev := of_word rfl (shape7 _ (by decide))
theorem tlbsyncSys : Statement .tlbsyncSys := of_word rfl (shape7 _ (by decide))
theorem atrans (d : BitVec 6) (a : BitVec 6) (n : BitVec 2) : Statement (.atrans d a n) := of_word rfl (shape59 _ _ _ _ (by decide))
theorem mbind (a : BitVec 6) (g : BitVec 3) (n : BitVec 2) : Statement (.mbind a g n) := of_word rfl (shape60 _ _ _ _ (by decide))
theorem mready : Statement .mready := of_word rfl (shape7 _ (by decide))
theorem msign (a : BitVec 6) (g : BitVec 3) (f : BitVec 1) : Statement (.msign a g f) := of_word rfl (shape61 _ _ _ _ (by decide))
theorem mma (c : BitVec 7) (a : BitVec 6) (g : BitVec 3) : Statement (.mma c a g) := of_word rfl (shape62 _ _ _ _ (by decide))
theorem mtile (c : BitVec 7) (a : BitVec 6) (g : BitVec 3) : Statement (.mtile c a g) := of_word rfl (shape62 _ _ _ _ (by decide))
theorem mepi (c : BitVec 7) (g : BitVec 3) (m : BitVec 3) : Statement (.mepi c g m) := of_word rfl (shape63 _ _ _ _ (by decide))
theorem splitEnc (a : BitVec 6) (b : BitVec 6) (f : BitVec 1) : Statement (.splitEnc a b f) := of_word rfl (shape64 _ _ _ _ (by decide))
theorem splitDec (a : BitVec 6) (b : BitVec 6) (f : BitVec 1) : Statement (.splitDec a b f) := of_word rfl (shape64 _ _ _ _ (by decide))
theorem mstat (i : BitVec 3) (d : BitVec 6) (g : BitVec 3) : Statement (.mstat i d g) := of_word rfl (shape65 _ _ _ _ (by decide))
theorem mrfence : Statement .mrfence := of_word rfl (shape7 _ (by decide))
theorem spgRow (a : BitVec 6) (b : BitVec 6) (f : BitVec 1) : Statement (.spgRow a b f) := of_word rfl (shape64 _ _ _ _ (by decide))
theorem spgFlush (a : BitVec 6) (b : BitVec 6) (f : BitVec 1) : Statement (.spgFlush a b f) := of_word rfl (shape64 _ _ _ _ (by decide))
theorem rackHint (a : BitVec 6) (b : BitVec 6) : Statement (.rackHint a b) := of_word rfl (shape66 _ _ _ (by decide))
theorem rackInv (a : BitVec 6) (b : BitVec 6) : Statement (.rackInv a b) := of_word rfl (shape66 _ _ _ (by decide))
theorem cp (l : BitVec 6) (a : BitVec 6) (b : BitVec 6) (f : BitVec 1) : Statement (.cp l a b f) := of_word rfl (shape67 _ _ _ _ _ (by decide))
theorem cpG (l : BitVec 6) (a : BitVec 6) (b : BitVec 6) (f : BitVec 1) : Statement (.cpG l a b f) := of_word rfl (shape67 _ _ _ _ _ (by decide))
theorem cpT (a : BitVec 6) (b : BitVec 6) (f : BitVec 1) : Statement (.cpT a b f) := of_word rfl (shape64 _ _ _ _ (by decide))
theorem cpMc (l : BitVec 6) (a : BitVec 6) (b : BitVec 6) (f : BitVec 1) : Statement (.cpMc l a b f) := of_word rfl (shape67 _ _ _ _ _ (by decide))
theorem cpStat (i : BitVec 2) (d : BitVec 6) : Statement (.cpStat i d) := of_word rfl (shape68 _ _ _ (by decide))
theorem put (l : BitVec 6) (a : BitVec 6) (b : BitVec 6) (f : BitVec 1) : Statement (.put l a b f) := of_word rfl (shape67 _ _ _ _ _ (by decide))
theorem putG (l : BitVec 6) (a : BitVec 6) (b : BitVec 6) (f : BitVec 1) : Statement (.putG l a b f) := of_word rfl (shape67 _ _ _ _ _ (by decide))
theorem get (l : BitVec 6) (a : BitVec 6) (b : BitVec 6) (f : BitVec 1) : Statement (.get l a b f) := of_word rfl (shape67 _ _ _ _ _ (by decide))
theorem getG (l : BitVec 6) (a : BitVec 6) (b : BitVec 6) (f : BitVec 1) : Statement (.getG l a b f) := of_word rfl (shape67 _ _ _ _ _ (by decide))
theorem tsend (p : BitVec 6) (a : BitVec 6) (b : BitVec 6) (f : BitVec 1) : Statement (.tsend p a b f) := of_word rfl (shape67 _ _ _ _ _ (by decide))
theorem cntRd (d : BitVec 6) (c : BitVec 6) : Statement (.cntRd d c) := of_word rfl (shape66 _ _ _ (by decide))
theorem cntSet (l : BitVec 6) (a : BitVec 6) (c : BitVec 6) : Statement (.cntSet l a c) := of_word rfl (shape69 _ _ _ _ (by decide))
theorem cntAdd (v : BitVec 6) (c : BitVec 6) : Statement (.cntAdd v c) := of_word rfl (shape66 _ _ _ (by decide))
theorem cntwait (v : BitVec 6) (c : BitVec 6) (f : BitVec 1) : Statement (.cntwait v c f) := of_word rfl (shape64 _ _ _ _ (by decide))
theorem qpost (q : BitVec 6) (a : BitVec 6) : Statement (.qpost q a) := of_word rfl (shape66 _ _ _ (by decide))
theorem msend (l : BitVec 6) (t : BitVec 6) (s : BitVec 6) (f : BitVec 1) : Statement (.msend l t s f) := of_word rfl (shape67 _ _ _ _ _ (by decide))
theorem qpop (r : BitVec 6) (d : BitVec 6) (q : BitVec 6) : Statement (.qpop r d q) := of_word rfl (shape69 _ _ _ _ (by decide))
theorem peerStat (d : BitVec 6) (i : BitVec 6) : Statement (.peerStat d i) := of_word rfl (shape66 _ _ _ (by decide))
theorem peerClr (i : BitVec 6) : Statement (.peerClr i) := of_word rfl (shape70 _ _ (by decide))
theorem spawn (t : BitVec 3) (a : BitVec 6) (b : BitVec 6) (f : BitVec 1) : Statement (.spawn t a b f) := of_word rfl (shape71 _ _ _ _ _ (by decide))
theorem spawnv (d : BitVec 7) (t : BitVec 3) (f : BitVec 1) : Statement (.spawnv d t f) := of_word rfl (shape72 _ _ _ _ (by decide))
theorem itemdone : Statement .itemdone := of_word rfl (shape7 _ (by decide))
theorem launch (a : BitVec 6) (b : BitVec 6) (f : BitVec 1) : Statement (.launch a b f) := of_word rfl (shape64 _ _ _ _ (by decide))
theorem preemptPt (n : BitVec 7) (a : BitVec 6) : Statement (.preemptPt n a) := of_word rfl (shape73 _ _ _ (by decide))
theorem evread (n : BitVec 4) (d : BitVec 6) : Statement (.evread n d) := of_word rfl (shape74 _ _ _ (by decide))
theorem evctl (n : BitVec 4) (c : BitVec 6) : Statement (.evctl n c) := of_word rfl (shape74 _ _ _ (by decide))
theorem tmark (v : BitVec 6) : Statement (.tmark v) := of_word rfl (shape75 _ _ (by decide))
theorem mod (m : BitVec 3) (s : BitVec 2) (c : BitVec 3) (o : BitVec 3) (l : BitVec 3) (t : BitVec 3) : Statement (.mod m s c o l t) := of_word rfl (shape76 _ _ _ _ _ _ _ (by decide))
theorem limm (imm : Word) : Statement (.limm imm) := of_none rfl
theorem clauseFetch (f : FRef) : Statement (.clauseFetch f) := of_none rfl
theorem fibreSwitch (wg : Nat) (slot : Nat) : Statement (.fibreSwitch wg slot) := of_none rfl
theorem headerWaitSatisfied (f : FRef) : Statement (.headerWaitSatisfied f) := of_none rfl
theorem fibreEndComplete (f : FRef) : Statement (.fibreEndComplete f) := of_none rfl
theorem barrierRelease (k : BarKind) (id : Nat) : Statement (.barrierRelease k id) := of_none rfl
theorem rejoinRelease (wg : Nat) (slot : Nat) (j : BitVec 4) : Statement (.rejoinRelease wg slot j) := of_none rfl
theorem fsyncRelease (wg : Nat) (slot : Nat) (set : BitVec 8) : Statement (.fsyncRelease wg slot set) := of_none rfl
theorem asyncFaultFreeze (f : FRef) : Statement (.asyncFaultFreeze f) := of_none rfl
theorem handlerFibreStart (wg : Nat) (slot : Nat) : Statement (.handlerFibreStart wg slot) := of_none rfl
theorem loadSplit (f : FRef) : Statement (.loadSplit f) := of_none rfl
theorem writeThrough (op : Nat) (part : Nat) : Statement (.writeThrough op part) := of_none rfl
theorem homeRead (op : Nat) (part : Nat) : Statement (.homeRead op part) := of_none rfl
theorem sectorFill (op : Nat) (part : Nat) : Statement (.sectorFill op part) := of_none rfl
theorem gwctReply (op : Nat) (part : Nat) : Statement (.gwctReply op part) := of_none rfl
theorem monitorArm (op : Nat) : Statement (.monitorArm op) := of_none rfl
theorem monitorComplete (op : Nat) : Statement (.monitorComplete op) := of_none rfl
theorem fenceComplete (f : FRef) : Statement (.fenceComplete f) := of_none rfl
theorem pageWalk (cu : Nat) (asid : BitVec 16) (page : DWord) : Statement (.pageWalk cu asid page) := of_none rfl
theorem invalidationApply (inv : Nat) : Statement (.invalidationApply inv) := of_none rfl
theorem atomicServiceSlot (group : Nat) : Statement (.atomicServiceSlot group) := of_none rfl
theorem atomicReply (op : Nat) (part : Nat) : Statement (.atomicReply op part) := of_none rfl
theorem mxQueueEntry (cu : Nat) : Statement (.mxQueueEntry cu) := of_none rfl
theorem matrixStep (cu : Nat) : Statement (.matrixStep cu) := of_none rfl
theorem mxOperationComplete (cu : Nat) : Statement (.mxOperationComplete cu) := of_none rfl
theorem gseOperation (cu : Nat) : Statement (.gseOperation cu) := of_none rfl
theorem copyStart (cu : Nat) (chan : Nat) : Statement (.copyStart cu chan) := of_none rfl
theorem copyComplete (op : Nat) : Statement (.copyComplete op) := of_none rfl
theorem spawnAppend (op : Nat) : Statement (.spawnAppend op) := of_none rfl
theorem launchAppend (op : Nat) : Statement (.launchAppend op) := of_none rfl
theorem launchBlockProcess (q : Nat) : Statement (.launchBlockProcess q) := of_none rfl
theorem launchTestRetest (q : Nat) : Statement (.launchTestRetest q) := of_none rfl
theorem placement : Statement .placement := of_none rfl
theorem agePromotion (grid : Nat) : Statement (.agePromotion grid) := of_none rfl
theorem gridComplete (grid : Nat) : Statement (.gridComplete grid) := of_none rfl
theorem stagePacking (wg : Nat) (slot : Nat) : Statement (.stagePacking wg slot) := of_none rfl
theorem packHeadTimeout (cluster : Nat) (stage : Nat) : Statement (.packHeadTimeout cluster stage) := of_none rfl
theorem slotRebalance (wg : Nat) : Statement (.slotRebalance wg) := of_none rfl
theorem stealRequest (cluster : Nat) (stage : Nat) : Statement (.stealRequest cluster stage) := of_none rfl
theorem stealAnswer (cluster : Nat) (stage : Nat) : Statement (.stealAnswer cluster stage) := of_none rfl
theorem stealRetry (cluster : Nat) (stage : Nat) : Statement (.stealRetry cluster stage) := of_none rfl
theorem pipelineEnd (grid : Nat) : Statement (.pipelineEnd grid) := of_none rfl
theorem migration (cluster : Nat) (x : Nat) (y : Nat) : Statement (.migration cluster x y) := of_none rfl
theorem forwardingExpiry (fwd : Nat) : Statement (.forwardingExpiry fwd) := of_none rfl
theorem preemption (cluster : Nat) (level : Nat) : Statement (.preemption cluster level) := of_none rfl
theorem restore (cluster : Nat) (x : Nat) (y : Nat) : Statement (.restore cluster x y) := of_none rfl
theorem tsendFire (op : Nat) : Statement (.tsendFire op) := of_none rfl
theorem cntwaitComplete (op : Nat) : Statement (.cntwaitComplete op) := of_none rfl
theorem packetSend (tx : Nat) : Statement (.packetSend tx) := of_none rfl
theorem packetForward (p : Packet) (arrivedGlobal : Bool) (stage : Nat) : Statement (.packetForward p arrivedGlobal stage) := of_none rfl
theorem readPacket (p : Packet) : Statement (.readPacket p) := of_none rfl
theorem writePacket (p : Packet) : Statement (.writePacket p) := of_none rfl
theorem atomicPacket (p : Packet) : Statement (.atomicPacket p) := of_none rfl
theorem putPacket (p : Packet) : Statement (.putPacket p) := of_none rfl
theorem putgPacket (p : Packet) : Statement (.putgPacket p) := of_none rfl
theorem getPacket (p : Packet) : Statement (.getPacket p) := of_none rfl
theorem getgPacket (p : Packet) : Statement (.getgPacket p) := of_none rfl
theorem msgPacket (p : Packet) : Statement (.msgPacket p) := of_none rfl
theorem ctrlInvalidation (p : Packet) : Statement (.ctrlInvalidation p) := of_none rfl
theorem ctrlResync (p : Packet) : Statement (.ctrlResync p) := of_none rfl
theorem rdata (p : Packet) : Statement (.rdata p) := of_none rfl
theorem ack (p : Packet) : Statement (.ack p) := of_none rfl
theorem aresult (p : Packet) : Statement (.aresult p) := of_none rfl
theorem getdata (p : Packet) : Statement (.getdata p) := of_none rfl
theorem busy (p : Packet) : Statement (.busy p) := of_none rfl
theorem grant (p : Packet) : Statement (.grant p) := of_none rfl
theorem refused (p : Packet) : Statement (.refused p) := of_none rfl
theorem msgBackoffResend (tx : Nat) : Statement (.msgBackoffResend tx) := of_none rfl
theorem grantLapse (queue : Nat) : Statement (.grantLapse queue) := of_none rfl
theorem feReplayTimer (tx : Nat) : Statement (.feReplayTimer tx) := of_none rfl
theorem eolDataFlit (port : Nat) (fl : Flit) : Statement (.eolDataFlit port fl) := of_none rfl
theorem eolNak (port : Nat) (fl : Flit) : Statement (.eolNak port fl) := of_none rfl
theorem eolReplayTimeout (port : Nat) : Statement (.eolReplayTimeout port) := of_none rfl
theorem ts1 (port : Nat) (fl : Flit) : Statement (.ts1 port fl) := of_none rfl
theorem ts1Timer (port : Nat) : Statement (.ts1Timer port) := of_none rfl
theorem ts2 (port : Nat) (fl : Flit) : Statement (.ts2 port fl) := of_none rfl
theorem creditInit (port : Nat) (fl : Flit) : Statement (.creditInit port fl) := of_none rfl
theorem trainTimeout (port : Nat) : Statement (.trainTimeout port) := of_none rfl
theorem fecLockLoss (port : Nat) : Statement (.fecLockLoss port) := of_none rfl
theorem localPortRetrain (port : Nat) (ev : UaTrain) : Statement (.localPortRetrain port ev) := of_none rfl
theorem ctxCreate (ctxid : BitVec 16) (asid : BitVec 16) (root : DWord) (priv : Bool) (save : DWord) (size : DWord) (share : List (BitVec 16)) : Statement (.ctxCreate ctxid asid root priv save size share) := of_none rfl
theorem ctxDestroy (ctxid : BitVec 16) : Statement (.ctxDestroy ctxid) := of_none rfl
theorem ctxKill (ctxid : BitVec 16) : Statement (.ctxKill ctxid) := of_none rfl
theorem queueBind (q : Nat) (ctxid : BitVec 16) (deviceFed : Bool) : Statement (.queueBind q ctxid deviceFed) := of_none rfl
theorem queueUnbind (q : Nat) : Statement (.queueUnbind q) := of_none rfl
theorem memRd (a : OcAddr) (n : Nat) : Statement (.memRd a n) := of_none rfl
theorem memWr (a : OcAddr) (data : List Byte) : Statement (.memWr a data) := of_none rfl
theorem regRd (pa : Nat) : Statement (.regRd pa) := of_none rfl
theorem regWr (pa : Nat) (v : DWord) : Statement (.regWr pa v) := of_none rfl
theorem dbgHalt (f : FRef) : Statement (.dbgHalt f) := of_none rfl
theorem dbgResume (f : FRef) (wholeGroup : Bool) : Statement (.dbgResume f wholeGroup) := of_none rfl
theorem dbgStep (f : FRef) : Statement (.dbgStep f) := of_none rfl
theorem dbgRead (f : FRef) (off : Nat) : Statement (.dbgRead f off) := of_none rfl
theorem dbgWrite (f : FRef) (off : Nat) (v : DWord) : Statement (.dbgWrite f off v) := of_none rfl
theorem unknownCommand (code : BitVec 8) : Statement (.unknownCommand code) := of_none rfl
theorem doorbellWrite (q : Nat) (v : DWord) : Statement (.doorbellWrite q v) := of_none rfl
theorem fertimerWrite (v : DWord) : Statement (.fertimerWrite v) := of_none rfl
theorem mmioRegisterWrite (pa : Nat) (v : DWord) : Statement (.mmioRegisterWrite pa v) := of_none rfl
theorem evownWrite (cu : Nat) (n : BitVec 4) (v : DWord) : Statement (.evownWrite cu n v) := of_none rfl
theorem freeze (lowNs : Nat) : Statement (.freeze lowNs) := of_none rfl
theorem moduleReset (lowNs : Nat) : Statement (.moduleReset lowNs) := of_none rfl
theorem boot : Statement .boot := of_none rfl
theorem uncorrectableError (u : ErrUnit) (pa : Nat) : Statement (.uncorrectableError u pa) := of_none rfl
theorem scrub (pa : Nat) (h : LineHealth) : Statement (.scrub pa h) := of_none rfl
theorem scrubPoisonedLine (pa : Nat) : Statement (.scrubPoisonedLine pa) := of_none rfl
theorem engineReset (cu : Nat) (part : EnginePart) : Statement (.engineReset cu part) := of_none rfl
theorem droopStretch (cu : Option Nat) : Statement (.droopStretch cu) := of_none rfl
theorem powerControl (milliwatts : Nat) : Statement (.powerControl milliwatts) := of_none rfl
theorem thermalLimit (celsius : Nat) : Statement (.thermalLimit celsius) := of_none rfl
theorem setDevid (id : BitVec 16) : Statement (.setDevid id) := of_none rfl
theorem setPowerCap (watts : Nat) : Statement (.setPowerCap watts) := of_none rfl
theorem managementFreeze : Statement .managementFreeze := of_none rfl
theorem managementReset : Statement .managementReset := of_none rfl
theorem pldmMonitoring (r : Reading) : Statement (.pldmMonitoring r) := of_none rfl
theorem pldmFirmwareUpdate (img : Image) : Statement (.pldmFirmwareUpdate img) := of_none rfl
theorem getVersion : Statement .getVersion := of_none rfl
theorem getCapabilities : Statement .getCapabilities := of_none rfl
theorem negotiateAlgorithms (ecdsaP384 : Bool) (sha384 : Bool) : Statement (.negotiateAlgorithms ecdsaP384 sha384) := of_none rfl
theorem getDigests : Statement .getDigests := of_none rfl
theorem getCertificate (slot : Nat) : Statement (.getCertificate slot) := of_none rfl
theorem challenge (nonce : List Byte) : Statement (.challenge nonce) := of_none rfl
theorem getMeasurements : Statement .getMeasurements := of_none rfl
theorem codeword (port : Nat) (wave : Nat) (msg : Option (BitVec 20 × List Byte)) : Statement (.codeword port wave msg) := of_none rfl
theorem idleFlit (port : Nat) (fl : Flit) : Statement (.idleFlit port fl) := of_none rfl
theorem gwctWaitEnd (op : Nat) : Statement (.gwctWaitEnd op) := of_none rfl

end Sys2Proof.Laws.Encoding
end

