-- ==== Sys2Proof/Laws/Unit.lean ====
section
/-!
SUPPORT. What ending an issue unit, moving to a header, waiting in place, freezing and halting leave alone: one lemma for each
shared operation, and the fields that follow from it.
-/
namespace Sys2Proof.Machine
variable (s : State)

/-- The state without the fields that these operations write. -/
def State.bare (s : State) : State := { s with fibres := [], slots := [], cus := [], out := [], nextId := 0, freeCtr := 0 }

@[simp] theorem State.bare_setFib (r : FRef) (f : Fibre) : (s.setFib r f).bare = s.bare := rfl
@[simp] theorem State.bare_setMe (f : Fibre) : (s.setMe f).bare = s.bare := rfl
@[simp] theorem State.bare_setSlot (g k : Nat) (t : Slot) : (s.setSlot g k t).bare = s.bare := rfl
@[simp] theorem State.bare_bump : s.bump.bare = s.bare := rfl
@[simp] theorem State.bare_send (m : Msg) : (s.send m).bare = s.bare := rfl
@[simp] theorem State.bare_notifyFault (r : FRef) (fr : FaultRec) : (s.notifyFault r fr).bare = s.bare := rfl
@[simp] theorem State.bare_countEv (c e n : Nat) (x : Option (BitVec 12)) : (s.countEv c e n x).bare = s.bare := rfl
@[simp] theorem State.bare_waitHere : s.waitHere.bare = s.bare := rfl
@[simp] theorem State.bare_setS (n : Nat) (v : DWord) : (s.setS n v).bare = s.bare := rfl
@[simp] theorem State.bare_setP (n : Nat) (v : DWord) : (s.setP n v).bare = s.bare := rfl
@[simp] theorem State.bare_raise (fl : BitVec 9) : (s.raise fl).bare = s.bare := rfl
@[simp] theorem State.bare_dropDead (r : FRef) : (s.dropDead r).bare = s.bare := by
  unfold State.dropDead
  dsimp only
  split <;> rfl
@[simp] theorem State.bare_shedDead (r : FRef) : (s.shedDead r).bare = s.bare := by
  unfold State.shedDead
  dsimp only
  split
  · exact s.bare_dropDead r
  · rfl
@[simp] theorem State.bare_countUnit : s.countUnit.bare = s.bare := rfl
@[simp] theorem State.bare_endUnit : s.endUnit.bare = s.bare := rfl
@[simp] theorem State.bare_toHeader (r : FRef) (h : DWord) (v : Option Via) : (s.toHeader r h v).bare = s.bare :=
  s.bare_dropDead r
@[simp] theorem State.bare_haltOne (r : FRef) (c : BitVec 8) (d : Nat) (p : DWord) : (s.haltOne r c d p).bare = s.bare :=
  s.bare_shedDead r

@[simp] theorem State.bare_halt (r : FRef) (c : BitVec 8) (d : Nat) (p : DWord) : (s.halt r c d p).bare = s.bare := by
  unfold State.halt
  simp only
  split
  · rw [foldl_keeps State.bare]
    · simp
    · intro b a; split <;> (try split) <;> first | rfl | simp
  · simp

@[simp] theorem State.bare_reach (r : FRef) : (s.reach r).bare = s.bare := by
  unfold State.reach
  simp only
  split
  · rfl
  · split <;> simp

@[simp] theorem State.bare_arrive (r : FRef) (h : DWord) (v : Option Via) : (s.arrive r h v).bare = s.bare := by
  simp [State.arrive]

@[simp] theorem State.bare_goOn : s.goOn.bare = s.bare := by
  unfold State.goOn
  simp only
  split
  · split
    · split <;> simp
    · simp
  · rfl

@[simp] theorem State.bare_retire : s.retire.bare = s.bare := by simp [State.retire]

@[simp] theorem State.bare_leave (t : DWord) (v : Option Via) : (s.leave t v).bare = s.bare := by simp [State.leave]

@[simp] theorem State.bare_freeze (r : FRef) (fr : FaultRec) : (s.freeze r fr).bare = s.bare := by
  unfold State.freeze
  simp only
  split <;> simp

@[simp] theorem State.bare_take (c : BitVec 8) (d : Nat) : (s.take c d).bare = s.bare := by simp [State.take]
@[simp] theorem State.bare_takeAt (c : BitVec 8) (d : Nat) (a ls : DWord) (l : Option Nat) :
    (s.takeAt c d a ls l).bare = s.bare := by simp [State.takeAt]

-- The vector registers and rejoin registers of every slot.

/-- What a slot keeps under these operations. -/
def State.banks (s : State) (g k : Nat) : Tbl Nat VVal × Tbl Nat Rejoin := ((s.slot g k).v, (s.slot g k).j)

@[simp] theorem State.banks_setFib (g k : Nat) (r : FRef) (f : Fibre) : (s.setFib r f).banks g k = s.banks g k := rfl
@[simp] theorem State.banks_setMe (g k : Nat) (f : Fibre) : (s.setMe f).banks g k = s.banks g k := rfl
@[simp] theorem State.banks_bump (g k : Nat) : s.bump.banks g k = s.banks g k := rfl
@[simp] theorem State.banks_send (g k : Nat) (m : Msg) : (s.send m).banks g k = s.banks g k := rfl
@[simp] theorem State.banks_notifyFault (g k : Nat) (r : FRef) (fr : FaultRec) : (s.notifyFault r fr).banks g k = s.banks g k := rfl
@[simp] theorem State.banks_countEv (g k c e n : Nat) (x : Option (BitVec 12)) : (s.countEv c e n x).banks g k = s.banks g k := rfl
theorem State.banks_setSlot (g k g' k' : Nat) (t : Slot) (hv : t.v = (s.slot g' k').v) (hj : t.j = (s.slot g' k').j) :
    (s.setSlot g' k' t).banks g k = s.banks g k := by
  simp only [State.banks, State.slot_setSlot]
  split
  · rename_i h; cases h; rw [hv, hj]
  · rfl

@[simp] theorem State.banks_dropDead (g k : Nat) (r : FRef) : (s.dropDead r).banks g k = s.banks g k := by
  unfold State.dropDead
  dsimp only
  split
  · exact State.banks_setSlot _ _ _ _ _ _ rfl rfl
  · rfl
@[simp] theorem State.banks_shedDead (g k : Nat) (r : FRef) : (s.shedDead r).banks g k = s.banks g k := by
  unfold State.shedDead
  dsimp only
  split
  · exact s.banks_dropDead g k r
  · rfl
@[simp] theorem State.banks_countUnit (g k : Nat) : s.countUnit.banks g k = s.banks g k := rfl
@[simp] theorem State.banks_endUnit (g k : Nat) : s.endUnit.banks g k = s.banks g k := rfl
@[simp] theorem State.banks_toHeader (g k : Nat) (r : FRef) (h : DWord) (v : Option Via) :
    (s.toHeader r h v).banks g k = s.banks g k := s.banks_dropDead g k r
@[simp] theorem State.banks_haltOne (g k : Nat) (r : FRef) (c : BitVec 8) (d : Nat) (p : DWord) :
    (s.haltOne r c d p).banks g k = s.banks g k := s.banks_shedDead g k r

@[simp] theorem State.banks_halt (g k : Nat) (r : FRef) (c : BitVec 8) (d : Nat) (p : DWord) :
    (s.halt r c d p).banks g k = s.banks g k := by
  unfold State.halt
  simp only
  split
  · rw [foldl_keeps (fun t : State => t.banks g k)]
    · simp
    · intro b a; split <;> (try split) <;> first | rfl | simp
  · simp

@[simp] theorem State.banks_reach (g k : Nat) (r : FRef) : (s.reach r).banks g k = s.banks g k := by
  unfold State.reach
  simp only
  split
  · rfl
  · split <;> simp

@[simp] theorem State.banks_arrive (g k : Nat) (r : FRef) (h : DWord) (v : Option Via) :
    (s.arrive r h v).banks g k = s.banks g k := by simp [State.arrive]

@[simp] theorem State.banks_goOn (g k : Nat) : s.goOn.banks g k = s.banks g k := by
  unfold State.goOn
  simp only
  split
  · split
    · split <;> simp
    · simp
  · rfl

@[simp] theorem State.banks_retire (g k : Nat) : s.retire.banks g k = s.banks g k := by simp [State.retire]

@[simp] theorem State.banks_leave (g k : Nat) (t : DWord) (v : Option Via) : (s.leave t v).banks g k = s.banks g k := by
  simp [State.leave]

@[simp] theorem State.banks_freeze (g k : Nat) (r : FRef) (fr : FaultRec) : (s.freeze r fr).banks g k = s.banks g k := by
  unfold State.freeze
  simp only
  split
  · rw [State.banks_setSlot]
    · simp
    · rfl
    · rfl
  · simp

-- The registers of every fibre.

/-- Writing a record that has the registers of the old one. -/
theorem State.regs_setFib (r q : FRef) (f : Fibre) (h : f.regs = (s.fib r).regs) : ((s.setFib r f).fib q).regs = (s.fib q).regs := by
  rw [State.fib_setFib]
  split
  · subst_vars; exact h
  · rfl

theorem State.regs_dropDead (r q : FRef) : ((s.dropDead r).fib q).regs = (s.fib q).regs := by
  unfold State.dropDead
  dsimp only
  split <;> rfl

theorem State.regs_shedDead (r q : FRef) : ((s.shedDead r).fib q).regs = (s.fib q).regs := by
  unfold State.shedDead
  dsimp only
  split
  · refine (State.regs_setFib (s.dropDead r) r q _ ?_).trans (s.regs_dropDead r q)
    rw [s.regs_dropDead r r]; rfl
  · rfl

theorem State.regs_haltOne (r q : FRef) (c : BitVec 8) (d : Nat) (p : DWord) : ((s.haltOne r c d p).fib q).regs = (s.fib q).regs := by
  refine Eq.trans ?_ (s.regs_shedDead r q)
  exact State.regs_setFib (s.shedDead r) r q _ rfl

theorem State.regs_halt (r q : FRef) (c : BitVec 8) (d : Nat) (p : DWord) : ((s.halt r c d p).fib q).regs = (s.fib q).regs := by
  unfold State.halt
  simp only
  split
  · rw [foldl_keeps (fun t : State => (t.fib q).regs)]
    · exact State.regs_haltOne s r q c d p
    · intro b a
      split
      · rfl
      · split
        · exact State.regs_haltOne b a q _ _ _
        · exact State.regs_setFib b a q _ rfl
  · exact State.regs_haltOne s r q c d p

theorem State.regs_toHeader (r q : FRef) (h : DWord) (v : Option Via) : ((s.toHeader r h v).fib q).regs = (s.fib q).regs := by
  refine (State.regs_setFib (s.dropDead r).bump r q _ ?_).trans (s.regs_dropDead r q)
  exact (s.regs_dropDead r r).symm

theorem State.regs_reach (r q : FRef) : ((s.reach r).fib q).regs = (s.fib q).regs := by
  unfold State.reach
  simp only
  split
  · rfl
  · split <;> simp only [State.regs_halt, State.regs_haltOne]

theorem State.regs_arrive (r q : FRef) (h : DWord) (v : Option Via) : ((s.arrive r h v).fib q).regs = (s.fib q).regs :=
  ((s.toHeader r h v).regs_reach r q).trans (s.regs_toHeader r q h v)

theorem State.regs_endUnit (q : FRef) : (s.endUnit.fib q).regs = (s.fib q).regs := State.regs_setFib s s.actor q _ rfl

theorem State.regs_goOn (q : FRef) : (s.goOn.fib q).regs = (s.fib q).regs := by
  unfold State.goOn
  simp only
  split
  · split
    · split <;> simp only [State.regs_halt, State.regs_haltOne]
    · rw [State.regs_arrive]
  · rfl

theorem State.regs_retire (q : FRef) : (s.retire.fib q).regs = (s.fib q).regs := (s.endUnit.regs_goOn q).trans (s.regs_endUnit q)

theorem State.regs_leave (q : FRef) (t : DWord) (v : Option Via) : ((s.leave t v).fib q).regs = (s.fib q).regs := by
  rw [State.leave, State.regs_arrive]; exact State.regs_setFib s s.actor q _ rfl

theorem State.regs_freeze (r q : FRef) (fr : FaultRec) : ((s.freeze r fr).fib q).regs = (s.fib q).regs := by
  unfold State.freeze
  simp only
  split <;>
    refine Eq.trans ?_ (s.regs_shedDead r q) <;>
    exact State.regs_setFib (s.shedDead r) r q _ rfl

theorem State.regs_waitHere (q : FRef) : (s.waitHere.fib q).regs = (s.fib q).regs := State.regs_setFib s s.actor q _ rfl

-- Quiet

/-- The fields behind `Quiet`. -/
theorem Quiet.of_bare {s t : State} (hb : t.bare = s.bare) (hk : ∀ g k, t.banks g k = s.banks g k)
    (hr : ∀ r, r ≠ s.actor → (t.fib r).regs = (s.fib r).regs) : Quiet s t := by
  have f : ∀ {α : Type} (p : State → α), (∀ u : State, p u.bare = p u) → p t = p s := fun p hp => by rw [← hp t, ← hp s, hb]
  refine ⟨⟨fun a => ?_, fun a => ?_, fun g o => ?_, fun g k n => ?_, ?_, ?_⟩, ?_, ?_, hr⟩
  · exact f (fun u => u.hbm a) (fun _ => rfl)
  · exact f (fun u => u.guardTag a) (fun _ => rfl)
  · exact f (fun u => u.pad g o) (fun _ => rfl)
  · have h := congrArg Prod.fst (hk g k); simp only [State.banks] at h; simp only [State.vreg, h]
  · exact ⟨f State.fe (fun _ => rfl), f State.ports (fun _ => rfl), f State.locals (fun _ => rfl), f State.ctl (fun _ => rfl)⟩
  · exact ⟨f State.now (fun _ => rfl), f State.lags (fun _ => rfl)⟩
  · exact ⟨f State.wgs (fun _ => rfl), f State.clusters (fun _ => rfl), f State.grids (fun _ => rfl), f State.queues (fun _ => rfl),
      f State.ctxs (fun _ => rfl)⟩
  · exact ⟨f State.ops (fun _ => rfl), f State.mons (fun _ => rfl), f State.ase (fun _ => rfl), f State.invs (fun _ => rfl)⟩

/-- Ending a unit after writing the running fibre's record is quiet. -/
theorem Quiet.setMe_retire (f : Fibre) : Quiet s (s.setMe f).retire :=
  Quiet.of_bare (by simp) (by simp) (fun r h => by
    rw [State.regs_retire]; simp only [State.setMe]; rw [State.fib_setFib_ne _ _ h])

/-- Going to another header after writing the running fibre's record is quiet. -/
theorem Quiet.setMe_leave (f : Fibre) (t : DWord) (v : Option Via) : Quiet s ((s.setMe f).leave t v) :=
  Quiet.of_bare (by simp) (by simp) (fun r h => by
    rw [State.regs_leave]; simp only [State.setMe]; rw [State.fib_setFib_ne _ _ h])

/-- Taking a precise fault is quiet. -/
theorem Quiet.take (c : BitVec 8) (d : Nat) : Quiet s (s.take c d) :=
  Quiet.of_bare (by simp) (by simp [State.take]) (fun r _ => by rw [State.take, State.regs_freeze])

/-- Waiting in place is quiet. -/
theorem Quiet.waitHere : Quiet s s.waitHere :=
  Quiet.of_bare rfl (fun _ _ => rfl) (fun r _ => State.regs_waitHere s r)

end Sys2Proof.Machine
end

