-- ==== Sys2Proof/Tests/Slice0.lean ====
section
/-!
SUPPORT. Tests: ill-formed terms, words written out from the encodings of the spec, single steps on small states, and for every
obligation with hypotheses states that meet them. Expected results come from the rules cited, by hand.
-/
namespace Sys2Proof.Tests
open Sys2Proof Sys2Proof.Machine
set_option Elab.async false

-- A small machine: context 1 maps the first GiB of addresses to the first GiB of HBM; workgroup 0 has one warp slot of 16 lanes, 128
-- registers and 64 KiB of scratchpad; its fibre 0 runs a clause of two words at 0x20000. The port of the control node is up.

/-- A clause of two NOPs. -/
def clause2 : Clause := { addr := 0x20000, header := 0xFE000002, ext := none, words := [0x1A000000, 0x1A000000] }

/-- A leaf that maps the first GiB to itself, readable, writable, executable and PINNED. -/
def leaf0 : TLeaf := { asid := 1, base := 0, size := 3, pte := 0x9D, frame := 0, dev := 0 }

/-- The place of the fibre under test. -/
def r0 : FRef := { wg := 0, slot := 0, idx := 0 }

/-- A register of 16 equal lanes. -/
def reg (t : Tag) (w : Word) : VVal := { tag := t, lanes := List.replicate 16 w }

/-- The small machine. -/
def b0 : State :=
  let s := State.reset.withFetchWord 32 0x1A000000
  let f := s.fib r0
  let s1 := s.setFib r0 { f with clause := some clause2, pc := 0x20000 }
  let s2 := s1.setWg 0 { s1.wg 0 with ssize := 0x10000, scratch := [] }
  let s3 := s2.setCtx 1 { s2.ctx 1 with root := 0x1000, share := [7] }
  let s4 := s3.setCu 0 { Cu.empty with leaves := [leaf0] }
  let s5 := s4.setSlot 0 0 { s4.slot 0 0 with v := [(0, reg 1 0), (1, reg 1 7), (2, reg 2 3), (4, reg 3 0x3F800000),
    (6, reg 0xE 5), (7, reg 0xF 0), (8, reg 0xC 0x01020304), (10, reg 1 0), (11, reg 1 0)] }
  { s5 with agenda := [], ports := [(255, { Port.down with st := .up })], mem := [(0x1000, 3), (0x1001, 0x20), (0x2000, 3), (0x2001, 0x30), (0x3000, 0x9D)] }

/-- The machine with another record for the fibre. -/
def me (f : Fibre → Fibre) (s : State := b0) : State := s.setMe (f s.me)
/-- The machine with scalar registers of the fibre set. -/
def sr (l : List (Nat × DWord)) (s : State := b0) : State := me (fun f => { f with s := l }) s
/-- The machine with a predicate set in every lane. -/
def pr (n : Nat) (v : DWord) (s : State := b0) : State := me (fun f => { f with p := [(n, v)] }) s
/-- The machine with a `LIMM` word latched. -/
def limm (w : Word) (s : State := b0) : State := me (fun f => { f with hLimm := some w }) s
/-- The machine with a warp slot changed. -/
def slt (f : Slot → Slot) (s : State := b0) : State := s.setSlot 0 0 (f (s.slot 0 0))
/-- The machine with the workgroup changed. -/
def wgr (f : Wg → Wg) (s : State := b0) : State := s.setWg 0 (f (s.wg 0))
/-- The machine with the context changed. -/
def ctxr (f : Ctx → Ctx) (s : State := b0) : State := s.setCtx 1 (f (s.ctx 1))
/-- The machine with a second fibre record. -/
def fibAt (k : Nat) (f : Fibre) (s : State := b0) : State := s.setFib { r0 with idx := k } f
/-- The machine with CU 0 changed. -/
def cur (f : Cu → Cu) (s : State := b0) : State := s.setCu 0 (f (s.cu 0))

/-- Of two machines the next state in which a property is asked. -/
def after (o : Host.Outcome State Fault Refusal) (p : State → Bool) : Bool :=
  match o with | .next t => p t | _ => false

-- Witnesses: the instructions of a fibre issue in the small machine ------------------------------------------------------------

theorem test_goes_control : ([.bra 0, .braZ 1 0, .braNz 1 0, .braLt 1 0, .braGe 1 0, .braAll 1 0, .braAny 1 0, .brp 0 1 0, .call 1 0, .brx 1 0,
    .ret 1, .jset 0, .join 0, .waitj 0, .fork 1 2 3 1, .fend, .fyield, .fsync 1, .fsyncM 1, .fresume 1, .fresumePc 1 2, .fresumeEnd 1,
    .fstatMask 1 2, .fstatPc 1 2, .fstatInfo 1 2, .barWg, .barCa, .barCw, .barGrid, .waitf 1, .setf 1, .clrf 1, .trap 0, .brk 0,
    .sysr 1 1, .sysw 1 1, .icinv 1 2, .icinvD 1 2, .isync, .nop, .exit, .itemdone, .mready, .mrfence, .fence 1 1 1, .tlbsyncDev] :
    List Instr).all (fun i => b0.issuing && decide (b0.verdict i = .go)) = true := rfl

theorem test_goes_scalar : ([.sadd 3 1 2, .ssub 3 1 2, .smul 3 1 2, .smulh 3 1 2, .smulhU 3 1 2, .sdiv 3 1 2, .sdivU 3 1 2, .srem 3 1 2,
    .sremU 3 1 2, .sand 3 1 2, .sor 3 1 2, .sxor 3 1 2, .sshl 3 1 2, .sshr 3 1 2, .ssra 3 1 2, .smin 3 1 2, .sminU 3 1 2, .smax 3 1 2,
    .smaxU 3 1 2, .smov 3 2, .sclz 3 1, .sffs 3 1, .spopc 3 1, .ssel 3 1 2, .scmp 3 1 2 9, .saddImm 3 1 5, .sandImm 3 1 5, .sorImm 3 1 5,
    .sxorImm 3 1 5, .sshlImm 3 1 5, .sshrImm 3 1 5, .ssraImm 3 1 5, .sli 3 5, .smadd 3 1 2 4, .sbfx 3 1 0 63 0, .sbfi 3 1 63 0,
    .pand 1 2 3, .por 1 2 3, .pxor 1 2 3, .pnot 1 2, .pmov 1 2, .pmovFs 1 2, .pmovTs 1 2, .vballot 1 2, .vvoteAny 1 2 3, .vvoteAll 1 2 3,
    .vvoteEq 1 2 3] : List Instr).all (fun i => b0.issuing && decide (b0.verdict i = .go)) = true := rfl

theorem test_goes_vector : ([.vadd 9 0 0 1 0, .vsub 9 0 0 1 0, .vmul 9 0 0 1 0, .vmulh 9 0 0 1 0, .vfma 9 4 0 4 0, .vfms 9 4 0 4 0,
    .vmadi 9 0 0 1 0, .vmin 9 0 0 1 0, .vmax 9 0 0 1 0, .vand 9 0 0 1 0, .vor 9 0 0 1 0, .vxor 9 0 0 1 0, .vshl 9 0 0 1 0, .vshr 9 0 0 1 0,
    .vsra 9 0 0 1 0, .vscale 9 4 0 1 0, .vdot4 9 8 0 8 0, .vpack 8 4 0 1 0, .vperm 9 0 0 1 0, .vcmp 1 0 0 0 1 0, .vsel 9 0 0 1 0,
    .vmovi 9 1 5, .vmov 9 0 0, .vnot 9 0 0, .vabs 9 0 0, .vneg 9 0 0, .vclass 9 4 0, .vclz 9 0 0, .vffs 9 0 0, .vpopc 9 0 0, .vbrev 9 0 0,
    .vtag 9 0, .vlaneid 9, .vexp2 9 4 0, .vlog2 9 4 0, .vrcp 9 4 0, .vrsq 9 4 0, .vsin 9 4 0, .vcos 9 4 0, .vunpk 9 8 0 0, .vcvt 9 0 0 3,
    .vretag 9 0 0 2, .vreduce 0 0 3 0, .vscan 9 0 0 3 0, .route 1 0 0, .routeS 1 0 2, .ptld 0 0 0] :
    List Instr).all (fun i => b0.issuing && decide (b0.verdict i = .go)) = true := rfl

theorem test_goes_memory : ([.ld32 9 0 1 1 0, .ld64 12 0 1 0xE 0, .ld128 12 0 1 1 0, .ldN 9 0 1 0 0, .st32 0 0 1 0, .st64 10 0 1 0, .st128 0 0 1 0,
    .stN 0 0 1 0 0, .lds 3 1 6 0 0, .sts 3 1 3 0 0, .ldb 9 1 1 0, .pref 0 1 0, .ldw 9 1 0, .stw 0 1 0, .waitc 1 2 0 1 0, .clst 0 0 1 0 0,
    .amo 0 0 1 0 0 0, .amor 0 0 1 0 0 0, .cas 10 0 1 0 0 0, .acust 10 0 1 0 0 0, .asinst 0 1 2, .tlbinvVaDev 1 2, .tlbinvVaSys 1 2,
    .tlbinvAsidDev 1, .tlbinvAsidSys 1, .tlbinvAllDev, .tlbinvAllSys, .tlbsyncSys, .atrans 1 2 0, .decantBind 1 2 3, .decantUnbind 1 2] :
    List Instr).all (fun i => b0.issuing && decide (b0.verdict i = .go)) = true := rfl

theorem test_goes_engines : ([.mbind 1 0 0, .msign 1 0 0, .mma 0 1 0, .mtile 0 1 0, .mepi 0 0 0, .mstat 0 3 0, .splitEnc 1 2 0, .splitDec 1 2 0,
    .spgRow 1 2 0, .spgFlush 1 2 0, .rackHint 1 2, .rackInv 1 2, .cp 2 1 3 0, .cpG 2 1 3 0, .cpT 1 3 0, .cpMc 2 1 3 0, .cpStat 0 3,
    .put 2 1 3 0, .get 2 1 3 0, .putG 2 1 3 0, .getG 2 1 3 0, .tsend 2 1 3 0, .cntRd 3 1, .cntSet 2 1 3, .cntAdd 1 2, .cntwait 1 2 0,
    .qpost 1 2, .msend 2 1 3 0, .qpop 1 2 3, .peerStat 1 2, .peerClr 1, .spawn 0 1 2 0, .spawnv 8 0 0, .launch 1 2 0, .preemptPt 1 2,
    .evread 0 1, .evctl 0 1, .tmark 1] :
    List Instr).all (fun i => b0.issuing && decide (b0.verdict i = .go)) = true := rfl

theorem test_goes_sliHi : (limm 9).issuing = true ∧ (limm 9).verdict (.sliHi 3) = .go := ⟨rfl, rfl⟩

-- Witnesses of the hypotheses, statement by statement: each clause at a state and operands of its own --------------------------------

theorem wit_ScalarRegisterForms :
    b0.goes (.sclz 3 1) ∧ b0.sreg 1 = 0 ∧ (sr [(1, 1)]).goes (.sffs 3 1) ∧ (sr [(1, 1)]).sreg 1 ≠ 0 ∧ (sr [(1, 0x8000000000000000)]).sreg 1 ≠ 0 ∧
    b0.goes (.scmp 3 1 2 0) ∧ b0.goes (.scmp 3 1 2 9) ∧ (true = true ↔ b0.sreg 1 = b0.sB 2) ∧
    b0.issuing = true ∧ 9 < (10 : BitVec 4).toNat ∧ (limm 1).issuing = true ∧ (limm 1).me.hLimm.isSome = true ∧
    (0x60000018#32).toNat / 2 ^ 25 = 0x30 ∧ (0x60000018#32).toNat % 2 ^ 7 = 0x18 ∧ (0x6000001F#32).toNat % 2 ^ 7 < 0x20 ∧
    (0x60000030#32).toNat % 2 ^ 7 = 0x30 ∧ (0x60002013#32).toNat / 2 ^ 13 % 2 ^ 6 ≠ 0 ∧ (0x60000096#32).toNat / 2 ^ 7 % 2 ^ 6 ≠ 0 := by
  refine ⟨⟨rfl, rfl⟩, rfl, ⟨rfl, rfl⟩, by decide, by decide, ⟨rfl, rfl⟩, ⟨rfl, rfl⟩, ⟨fun _ => rfl, fun _ => rfl⟩,
    rfl, by decide, rfl, rfl, ?_⟩
  refine ⟨?_, ?_, ?_, ?_, ?_, ?_⟩ <;> decide

theorem wit_DivisionNeverTraps :
    b0.goes (.sdiv 3 1 2) ∧ b0.sB 2 = 0 ∧ b0.goes (.sremU 3 1 2) ∧
    (let s := sr [(1, BitVec.ofInt 64 (-2 ^ 63)), (2, BitVec.ofInt 64 (-1))]
     s.goes (.sdiv 3 1 2) ∧ s.goes (.srem 3 1 2) ∧ s.sreg 1 = BitVec.ofInt 64 (-2 ^ 63) ∧ s.sB 2 = BitVec.ofInt 64 (-1)) := by
  refine ⟨⟨rfl, rfl⟩, rfl, ⟨rfl, rfl⟩, ⟨rfl, rfl⟩, ⟨rfl, rfl⟩, rfl, rfl⟩

theorem wit_ScalarImmediateForms :
    (limm 9).goes (.sliHi 3) ∧ (limm 9).me.hLimm = some 9 ∧ b0.goes (.sbfx 3 1 0 63 0) ∧ b0.goes (.sbfx 3 1 63 0 1) ∧
    b0.goes (.sbfi 3 1 0 63) ∧ b0.issuing = true ∧ 64 ≤ (63 : BitVec 6).toNat + (1 : BitVec 6).toNat ∧ b0.me.hLimm = none ∧
    (limm 9).issuing = true ∧ (limm 9).me.hLimm.isSome = true ∧
    (0x6A000040#32).toNat / 2 ^ 25 = 0x35 ∧ (0x6A000040#32).toNat / 2 ^ 6 % 2 ^ 7 ≠ 0 ∧ (0x70002000#32).toNat / 2 ^ 25 = 0x38 ∧
    (0x72000001#32).toNat / 2 ^ 25 = 0x39 ∧ (0x72000001#32).toNat % 2 ^ 19 ≠ 0 ∧ (0x78000001#32).toNat / 2 ^ 25 = 0x3C := by
  refine ⟨⟨rfl, rfl⟩, rfl, ⟨rfl, rfl⟩, ⟨rfl, rfl⟩, ⟨rfl, rfl⟩, rfl, ?_, rfl, rfl, rfl, ?_⟩ <;> decide

theorem wit_PredicateOperations :
    b0.goes (.vvoteAny 3 1 2) ∧ (true = true ↔ (pr 2 1).preg 2 &&& (pr 2 1).me.mask ≠ 0) ∧
    (false = true ↔ b0.preg 2 &&& b0.me.mask ≠ 0) ∧ (pr 2 1).goes (.vvoteAll 3 1 2) ∧
    (true = true ↔ (pr 2 0xFFFF).preg 2 &&& (pr 2 0xFFFF).me.mask = (pr 2 0xFFFF).me.mask) := by
  refine ⟨⟨rfl, rfl⟩, by decide, by decide, ⟨rfl, rfl⟩, by decide⟩

theorem wit_UnitEndsAndHintWords :
    b0.me.clause = some clause2 ∧ b0.me.idx + 1 < clause2.words.length ∧ b0.goes .nop ∧ b0.issuing = true ∧
    wellFormed (.mod 4 2 4 6 6 7) = true ∧ b0.me.hMod = none ∧ b0.me.hLimm = none ∧
    wellFormed (.mod 5 0 0 0 0 0) = false ∧ (limm 1).issuing = true ∧ (limm 1).me.hLimm.isSome = true ∧
    (me fun f => { f with hMod := some 0 }).me.hMod.isSome = true := by
  refine ⟨rfl, by decide, ⟨rfl, rfl⟩, rfl, rfl, rfl, rfl, rfl, rfl, rfl, rfl⟩

theorem wit_BranchesAndCalls :
    b0.goes (.braZ 1 0) ∧ (b0.me.wordPc + 0).toNat % 4 = 0 ∧ b0.goes (.braNz 1 0) ∧ decide (b0.sreg 1 ≠ 0) = false ∧
    (let s := sr [(1, 2)]; s.goes (.brx 1 0) ∧ (s.sreg 1).toNat % 4 ≠ 0 ∧ s.goes (.ret 1)) := by
  refine ⟨⟨rfl, rfl⟩, rfl, ⟨rfl, rfl⟩, rfl, ⟨rfl, rfl⟩, by decide, ⟨rfl, rfl⟩⟩

/-- Every record 0 to 7 of the slot holds a fibre. -/
def full : State := { pr 1 1 with fibres := (pr 1 1).fibres ++ (List.range 7).map (fun k =>
  ({ r0 with idx := k + 1 }, { Fibre.absent with st := .blocked, blk := .ending, fid := 10 + k })) }

theorem wit_DivergenceSplitsLanes :
    (pr 1 0xFFFF).goes (.brp 0 1 8) ∧ (pr 1 0xFFFF).me.mask &&& (pr 1 0xFFFF).preg 1 = (pr 1 0xFFFF).me.mask ∧
    ((pr 1 0xFFFF).me.wordPc + (pr 1 0xFFFF).offset 8).toNat % 4 = 0 ∧
    b0.goes (.brp 0 1 8) ∧ b0.me.mask &&& b0.preg 1 = 0 ∧ (0 : DWord) ≠ b0.me.mask ∧
    (pr 1 1).goes (.brp 0 1 8) ∧ (pr 1 1).me.mask &&& (pr 1 1).preg 1 = 1 ∧ (1 : DWord) ≠ (pr 1 1).me.mask ∧
    (pr 1 1).freeRecord 0 0 = some 1 ∧
    full.goes (.brp 0 1 8) ∧ full.me.mask &&& full.preg 1 = 1 ∧ full.freeRecord full.actor.wg full.actor.slot = none := by
  refine ⟨⟨rfl, rfl⟩, by decide, by decide, ⟨rfl, rfl⟩, by decide, by decide, ⟨rfl, rfl⟩, by decide, by decide, rfl, ⟨rfl, rfl⟩,
    by decide, rfl⟩

theorem wit_ForkMakesAFibre :
    (let s := sr [(2, 0x20000), (3, 127)] (pr 1 1)
     s.goes (.fork 1 2 3 1) ∧ s.preg 1 ≠ 0 ∧ (s.sreg 3).toNat < s.myWg.regs ∧ (s.sreg 2).toNat % 4 = 0 ∧ s.freeRecord 0 0 = some 1) ∧
    b0.goes (.fork 1 2 3 1) ∧ b0.preg 1 = 0 ∧ (sr [(3, 128)]).goes (.fork 1 2 3 1) ∧ 128 ≤ ((sr [(3, 128)]).sreg 3).toNat ∧
    ((sr [(2, 2)]).sreg 2).toNat % 4 ≠ 0 ∧
    full.goes (.fork 1 2 3 1) ∧ full.preg 1 ≠ 0 ∧ (full.sreg 3).toNat < full.myWg.regs ∧ full.freeRecord 0 0 = none := by
  refine ⟨⟨⟨rfl, rfl⟩, by decide, by decide, by decide, rfl⟩, ⟨rfl, rfl⟩, rfl, ⟨rfl, rfl⟩, by decide, by decide, ⟨rfl, rfl⟩, by decide,
    by decide, rfl⟩

/-- Rejoin register 0 expects the fibre's lanes and some more. -/
def rj (e a : DWord) (w : Option Nat) : State :=
  b0.setRejoin 0 0 0 { Rejoin.idle with expected := e, arrived := a, waiter := w }
/-- Fibre 1 waits at rejoin register 0. -/
def rjw : State := fibAt 1 { Fibre.absent with st := .blocked, blk := .waitj 0, mask := 1, fid := 9 } (rj 3 3 (some 1))

theorem wit_RejoinGathersLanes :
    b0.goes (.jset 0) ∧ (b0.rejoin 0 0 0).arrived = 0 ∧ (b0.rejoin 0 0 0).waiter = none ∧
    (rj 0x1FFFF 0x10000 none).goes (.jset 0) ∧ ((rj 0x1FFFF 0x10000 none).rejoin 0 0 0).arrived ≠ 0 ∧
    (let s := rj 0x1FFFF 0x10000 none
     let x := s.rejoin 0 0 0
     s.goes (.join 0) ∧ s.me.base = x.base ∧ s.me.mask &&& ~~~(x.expected &&& ~~~x.arrived) = 0 ∧ s.goes (.waitj 0) ∧
     x.waiter = none ∧ s.me.doomed = false ∧ x.arrived ||| s.me.mask = x.expected) ∧
    (let s := rj 0x1FFFF 0 none
     let x := s.rejoin 0 0 0
     s.goes (.waitj 0) ∧ s.me.mask &&& ~~~(x.expected &&& ~~~x.arrived) = 0 ∧ x.arrived ||| s.me.mask ≠ x.expected) ∧
    b0.goes (.join 0) ∧ b0.me.mask &&& ~~~((b0.rejoin 0 0 0).expected &&& ~~~(b0.rejoin 0 0 0).arrived) ≠ 0 ∧
    rjw.isSaved 0 = false ∧ (rjw.rejoin 0 0 0).waiter = some 1 ∧ (rjw.rejoin 0 0 0).arrived = (rjw.rejoin 0 0 0).expected ∧
    (rjw.fib { r0 with idx := 1 }).blk = .waitj 0 := by
  refine ⟨⟨rfl, rfl⟩, rfl, rfl, ⟨rfl, rfl⟩, by decide, ⟨⟨rfl, rfl⟩, rfl, by decide, ⟨rfl, rfl⟩, rfl, rfl, by decide⟩,
    ⟨⟨rfl, rfl⟩, by decide, by decide⟩, ⟨rfl, rfl⟩, by decide, rfl, rfl, rfl, rfl⟩

/-- Fibre 0 ends and its flags are zero. -/
def ending : State := me fun f => { f with st := .blocked, blk := .ending }
/-- A fault record of cause 0x0A. -/
def fr0 : FaultRec := faultAt 0x20000 0x0A 0 0 0 none
/-- Record `k` holds a frozen fibre, in its clause or at a header. -/
def frz (k : Nat) (inside : Bool) (s : State := b0) : State := fibAt k { Fibre.absent with
  st := .frozen, fid := 9, pc := 0x20000, fault := some fr0, inside := inside, clause := if inside then some clause2 else none } s

theorem wit_FibresEndYieldAndAreRead :
    b0.goes .fend ∧ b0.me.pend = [] ∧ b0.goes .exit ∧ b0.goes .fyield ∧
    ending.isSaved 0 = false ∧ (ending.fib r0).st = .blocked ∧ (ending.fib r0).blk = .ending ∧ (ending.fib r0).pend = [] ∧
    (ending.fib r0).dbg ≠ .halted ∧ ending.flagsZero r0 = true ∧
    (sr [(2, 9)]).goes (.fstatMask 1 2) ∧ 8 < ((sr [(2, 9)]).sreg 2).toNat ∧
    (let s := sr [(2, 8)] (frz 8 true)
     s.goes (.fstatPc 1 2) ∧ (s.sreg 2).toNat ≤ 8 ∧ (s.fib { s.actor with idx := 8 }).st = .frozen ∧
     (s.fib { s.actor with idx := 8 }).fault = some fr0) ∧
    (b0.sreg 2).toNat ≤ 8 ∧ (b0.fib r0).st = .ready ∧ (b0.fib r0).dbg ≠ .halted ∧ b0.goes (.fstatInfo 1 2) ∧
    (let s := sr [(2, 1)] (fibAt 1 { Fibre.absent with st := .blocked, blk := .ending, fid := 9 })
     s.goes (.fstatInfo 1 2) ∧ (s.fib { s.actor with idx := 1 }).st = .blocked) := by
  refine ⟨⟨rfl, rfl⟩, rfl, ⟨rfl, rfl⟩, ⟨rfl, rfl⟩, rfl, rfl, rfl, rfl, by decide, rfl, ⟨rfl, rfl⟩, by decide,
    ⟨⟨rfl, rfl⟩, by decide, rfl, rfl⟩, by decide, rfl, by decide, ⟨rfl, rfl⟩, ⟨rfl, rfl⟩, rfl⟩

/-- Fibre 1 waits at `FSYNC` with set `{0, 1}` or another. -/
def syn (set : BitVec 8) : State := sr [(1, 3)] (fibAt 1 { Fibre.absent with st := .blocked, blk := .fsync set false 0, mask := 1, fid := 9 })
/-- Fibres 0 and 1 both wait at `FSYNC`. -/
def syn2 : State := (syn 3).setMe { (syn 3).me with st := .blocked, blk := .fsync 3 true 0 }

theorem wit_FibreSynchronisation :
    (syn 3).goes (.fsync 1) ∧ (syn 3).goes (.fsyncM 1) ∧ (syn 3).actor.idx < 8 ∧ ((syn 3).sreg 1).toNat < 256 ∧
    (((syn 3).sreg 1).setWidth 8 : BitVec 8).getLsbD 0 = true ∧ (syn 3).me.doomed = false ∧
    (∀ k, k < 8 → (3 : BitVec 8).getLsbD k = true → ∀ q m v, ((syn 3).fib { r0 with idx := k }).blk = .fsync q m v → q = 3) ∧
    b0.goes (.fsync 1) ∧ ((b0.sreg 1).setWidth 8 : BitVec 8).getLsbD 0 = false ∧
    (syn 7).goes (.fsync 1) ∧ ((syn 7).fib { r0 with idx := 1 }).blk = .fsync 7 false 0 ∧
    syn2.isSaved 0 = false ∧ (syn2.fib r0).st ≠ .absent ∧ (syn2.fib r0).blk = .fsync 3 true 0 ∧
    (syn2.fib { r0 with idx := 1 }).blk = .fsync 3 false 0 ∧ syn2.earlierDone r0 (syn2.fib r0).mark 0xFF .slot false = true := by
  refine ⟨⟨rfl, rfl⟩, ⟨rfl, rfl⟩, by decide, by decide, by decide, rfl, ?_, ⟨rfl, rfl⟩, by decide, ⟨rfl, rfl⟩, rfl, rfl, by decide, rfl, rfl, rfl⟩
  intro k hk hs q m v h
  have : k = 0 ∨ k = 1 ∨ k = 2 ∨ k = 3 ∨ k = 4 ∨ k = 5 ∨ k = 6 ∨ k = 7 := by omega
  rcases this with rfl | rfl | rfl | rfl | rfl | rfl | rfl | rfl <;> first | (injection h with h1; exact h1.symm) | cases h

theorem wit_FrozenFibresResume :
    (let s := sr [(1, 8), (2, 0x20000)] (frz 8 true)
     (s.sreg 1).toNat ≤ 8 ∧ (s.fib { r0 with idx := 8 }).st = .frozen ∧ s.earlierDone s.actor s.nextId 0xFF .slot false = true ∧
     s.goes (.fresume 1) ∧ (s.fib { r0 with idx := 8 }).inside = true ∧ (s.fib { r0 with idx := 8 }).clause.isSome = true ∧
     s.goes (.fresumePc 1 2) ∧ (s.sreg 2).toNat % 4 = 0 ∧ s.goes (.fresumeEnd 1)) ∧
    (let s := sr [(1, 1)] (frz 1 false)
     s.goes (.fresume 1) ∧ (s.fib { r0 with idx := 1 }).st = .frozen ∧ (s.fib { r0 with idx := 1 }).inside = false) ∧
    (sr [(1, 9)]).goes (.fresume 1) ∧ 8 < ((sr [(1, 9)]).sreg 1).toNat ∧ b0.goes (.fresume 1) ∧ (b0.fib r0).st ≠ .frozen := by
  refine ⟨⟨by decide, rfl, rfl, ⟨rfl, rfl⟩, rfl, rfl, ⟨rfl, rfl⟩, by decide, ⟨rfl, rfl⟩⟩, ⟨⟨rfl, rfl⟩, rfl, rfl⟩, ⟨rfl, rfl⟩, by decide,
    ⟨rfl, rfl⟩, by decide⟩

/-- The handler fibre, record 8, is the one that runs. -/
def hnd : State := ({ (slt (fun t => { t with cur := 8 })) with actor := { r0 with idx := 8 } } : State).setFib { r0 with idx := 8 } b0.me
/-- The grid of workgroup 0 with GRIDBAR. -/
def gbar (s : State := b0) : State := s.setGrid 0 { s.grid 0 with launch := { Launch.zero with gridbar := true } }
/-- The fibre has arrived at BAR.CA in phase `p`. -/
def caAt (p : Nat) : State := me fun f => { f with ca := some (p, 0) }

theorem wit_BarriersArriveAndRelease :
    b0.goes .barWg ∧ b0.actor.idx ≠ 8 ∧ b0.me.doomed = false ∧ gbar.goes .barGrid ∧ (gbar.launchOf 0).gridbar = true ∧
    b0.goes .barCa ∧ b0.me.ca = none ∧ (caAt 0).goes .barCw ∧ (caAt 0).me.ca = some (0, 0) ∧
    ((caAt 0).cluster (caAt 0).myWg.cluster).phase ≤ 0 ∧
    (let s := (caAt 0).setCluster 0 { (caAt 0).cluster 0 with phase := 1 }
     s.goes .barCw ∧ s.me.ca = some (0, 0) ∧ 0 < (s.cluster s.myWg.cluster).phase) ∧
    hnd.goes .barWg ∧ hnd.actor.idx = 8 ∧ hnd.goes .barGrid ∧ b0.goes .barGrid ∧ (b0.launchOf 0).gridbar = false ∧ hnd.goes .barCa ∧
    (caAt 0).goes .barCa ∧ (caAt 0).me.ca.isSome = true ∧ hnd.goes .barCw ∧ b0.goes .barCw ∧
    (let s := me fun f => { f with st := .blocked, blk := .barWg 0 }
     s.parties .workgroup 0 = [r0] ∧ s.isSaved 0 = false ∧ s.hasArrived .workgroup 0 r0 = true) ∧
    (let s := me (fun f => { f with st := .blocked, blk := .barGrid 0 }) gbar
     s.parties .grid 0 = [r0] ∧ s.hasArrived .grid 0 r0 = true ∧ (s.grid 0).clusters = [0] ∧ (s.cluster 0).place ≠ .pending) ∧
    (let s := me (fun f => { f with st := .blocked, blk := .barCw }) (caAt 0)
     s.parties .cluster 0 = [r0] ∧ s.hasArrived .cluster 0 r0 = true) := by
  refine ⟨⟨rfl, rfl⟩, by decide, rfl, ⟨rfl, rfl⟩, rfl, ⟨rfl, rfl⟩, rfl, ⟨rfl, rfl⟩, rfl, by decide, ⟨⟨rfl, rfl⟩, rfl, by decide⟩,
    ⟨rfl, rfl⟩, rfl, ⟨rfl, rfl⟩, ⟨rfl, rfl⟩, rfl, ⟨rfl, rfl⟩, ⟨rfl, rfl⟩, rfl, ⟨rfl, rfl⟩, ⟨rfl, rfl⟩, ⟨rfl, rfl, rfl⟩,
    ⟨rfl, rfl, rfl, by decide⟩, ⟨rfl, rfl⟩⟩

/-- A token counts in flag 0 of the fibre's lanes. -/
def tok : State := { b0 with ops := [{ (b0.newOp .token (some 0) 0xFFFF 0 .slot) with id := 1 }] }

theorem wit_CompletionFlags :
    b0.goes (.waitf 1) ∧ b0.me.pendOn 1 = false ∧ b0.flagval 0 0 0 b0.me.mask = 0 ∧
    tok.goes (.waitf 1) ∧ (1 : BitVec 12).getLsbD 0 = true ∧ tok.flagval 0 0 0 tok.me.mask ≠ 0 ∧
    b0.goes (.setf 0x800) ∧ b0.me.mask ≠ 0 ∧ b0.flagval 0 0 11 b0.me.mask < 63 ∧
    tok.goes (.clrf 1) ∧ tok.earlierDone tok.actor tok.nextId 0xFF .slot false = true ∧ tok.oldestToken 0 = some 1 := by
  refine ⟨⟨rfl, rfl⟩, rfl, rfl, ⟨rfl, rfl⟩, rfl, by decide, ⟨rfl, rfl⟩, by decide, by decide, ⟨rfl, rfl⟩, rfl, rfl⟩

theorem wit_TrapsAndBreaks :
    (0x12010000#32).toNat / 2 ^ 25 = 0x09 ∧ (0x12010000#32).toNat / 2 ^ 16 % 2 ^ 6 ≠ 0 ∧
    b0.goes (.trap 0xFFFF) ∧ b0.me.clause = some clause2 ∧ b0.me.idx + 1 < clause2.words.length ∧
    b0.goes (.brk 0) ∧ b0.myCtx.dbgctl.getLsbD 0 = false ∧
    (ctxr fun c => { c with dbgctl := 1 }).goes (.brk 0) ∧ (ctxr fun c => { c with dbgctl := 1 }).myCtx.dbgctl.getLsbD 0 = true := by
  refine ⟨by decide, by decide, ⟨rfl, rfl⟩, rfl, by decide, ⟨rfl, rfl⟩, rfl, ⟨rfl, rfl⟩, rfl⟩

/-- The context without privilege. -/
def plain (s : State := b0) : State := ctxr (fun c => { c with priv := false }) s

theorem wit_SystemRegisters :
    plain.goes (.sysr 1 0x0001) ∧ sysPriv 0x0001 false = false ∧ b0.goes (.sysw 1 0x0A00) ∧ b0.myCtx.priv = true ∧
    plain.goes (.sysw 1 0x0A00) ∧ sysPriv 0x0A00 true = true ∧ plain.myCtx.priv = false ∧
    b0.goes (.sysw 1 0x0801) ∧ b0.goes (.sysw 1 0x0000) ∧ b0.goes (.sysw 1 0x0A0B) ∧
    (let s := me (fun f => { f with fsel := 8 }) (frz 8 true)
     s.me.fsel.toNat ≤ 8 ∧ (s.fib { s.actor with idx := s.me.fsel.toNat }).fault = some fr0) := by
  refine ⟨⟨rfl, rfl⟩, rfl, ⟨rfl, rfl⟩, rfl, ⟨rfl, rfl⟩, rfl, rfl, ⟨rfl, rfl⟩, ⟨rfl, rfl⟩, ⟨rfl, rfl⟩, by decide, rfl⟩

theorem wit_CodeInvalidation :
    (sr [(1, 0x20000), (2, 4)]).goes (.icinv 1 2) ∧ ((sr [(1, 0x20000), (2, 4)]).sreg 2) ≠ 0 ∧ (sr [(1, 0x20000), (2, 4)]).goes (.icinvD 1 2) ∧
    (let s := sr [(1, 0x40000), (2, 4)]
     s.goes (.icinvD 1 2) ∧ s.allSlots.all (fun w => (s.slot w.1 w.2).cbuf.all (fun e => !s.codeHit (s.sreg 1) (s.sreg 2) e)) = true) := by
  refine ⟨⟨rfl, rfl⟩, by decide, ⟨rfl, rfl⟩, ⟨rfl, rfl⟩, rfl⟩

/-- A store of the fibre that is not performed. -/
def stq : State := { b0 with ops := [{ (b0.newOp .store none 0xFFFF clsW .slot) with
  id := 1, holders := [(b0.me.fid, 1)], parts := [mkPart 0 (.mem 0x10000) none] }] }

theorem wit_IsyncDropsItsSlotsClauses :
    b0.goes .isync ∧ b0.earlierDone b0.actor b0.nextId clsWrites .workgroup false = true ∧
    stq.goes .isync ∧ stq.earlierDone stq.actor stq.nextId clsWrites .workgroup false = false ∧
    (0x16400001#32).toNat / 2 ^ 25 = 0x0B ∧ (0x16400001#32).toNat / 2 ^ 21 % 2 ^ 4 = 2 ∧ (0x16400001#32).toNat % 2 ^ 21 ≠ 0 := by
  refine ⟨⟨rfl, rfl⟩, rfl, ⟨rfl, rfl⟩, rfl, by decide, by decide, by decide⟩

theorem wit_ChecksOfAnIssueUnit :
    encode .tlbsyncDev ≠ [] ∧ plain.issuing = true ∧ plain.me.hMod = none ∧ plain.me.hLimm = none ∧ privileged .tlbsyncDev = true ∧
    plain.myCtx.priv = false ∧ privileged (.waitf 0) = false ∧ wellFormed (.waitf 0) = false ∧ encode (.waitf 0) ≠ [] ∧
    (let s := me fun f => { f with fence := some { pred := 1, succ := 1, scope := .device, mark := 0, pc := 0 } }
     s.issuing = true ∧ s.verdict (.ld32 9 0 1 1 0) = .wait) := by
  refine ⟨by decide, rfl, rfl, rfl, rfl, rfl, rfl, rfl, by decide, rfl, rfl⟩

theorem wit_FaultsArePrecise :
    b0.actor.idx ≠ 8 ∧ hnd.actor.idx = 8 ∧ (b0.launchOf 0).handler = false ∧
    ((b0.setGrid 0 { b0.grid 0 with launch := { Launch.zero with handler := true } }).launchOf 0).handler = true := by
  refine ⟨by decide, rfl, rfl, rfl⟩

theorem wit_HandlerFibreStarts :
    (let s := slt (fun t => { t with hq := [1] }) (frz 1 true)
     s.isSaved 0 = false ∧ (s.slot 0 0).hq = [1] ∧ (s.fib { r0 with idx := 8 }).st = .absent ∧ (s.fib { r0 with idx := 1 }).st = .frozen) :=
  ⟨rfl, rfl, rfl, rfl⟩


/-- The source a vector operand gives, if it gives one. -/
def src (s : State) (pos : Nat) (r : VReg) (rt : Rt) (tb : Nat) : Src :=
  match s.vsrc pos r rt tb with | .ok A => A | _ => { tag := 0, uns := false, lanes := [], pend := true }
/-- The source of `v[r]` in the small machine. -/
abbrev sa (r : VReg) : Src := src b0 1 r 0 1
/-- The second source of `v[r]`. -/
def sb (A : Src) (r : VReg) : Src :=
  match b0.vsrc2 A r 0 with | .ok B => B | _ => { tag := 0, uns := false, lanes := [], pend := true }

/-- The machine with one operation in flight. -/
def opd (k : OpKind) (ps : List Part) (f : Op → Op := id) (s : State := b0) : State :=
  { s with ops := [f { s.newOp k none 0xFFFF clsR .workgroup with id := 1, holders := [(s.me.fid, 1)], parts := ps }] }
/-- A part at 0x10000 of lane 0, todo. -/
def pt0 : Part := { mkPart 0 (.mem 0x10000) (some leaf0) with lanes := [(0, 0)] }
/-- A load brings lane 0 of `v[13]` to the machine. -/
def ldp : State := opd (.load (.vec 13 4 0)) [pt0]
/-- More registers: an unsigned pair, a signalling NaN, and an integer that does not fit a float's element. -/
def b1 : State := slt fun t => { t with v := t.v ++ [(14, reg 0xE 9), (15, reg 2 0), (20, reg 3 0x7F800001), (21, reg 1 16)] }
/-- The source of `v[r]`, and as second source, in that machine. -/
abbrev ta (r : VReg) : Src := src b1 1 r 0 1
def tb (A : Src) (r : VReg) : Src :=
  match b1.vsrc2 A r 0 with | .ok B => B | _ => { tag := 0, uns := false, lanes := [], pend := true }
/-- Two sources that may be read. -/
def srcs (s : State) (a b : VReg) (A B : Src) : Prop :=
  s.vsrc 1 a 0 1 = .ok A ∧ A.pend = false ∧ s.vsrc2 A b 0 = .ok B ∧ B.pend = false

theorem wit_RoundingModes : (2 : Nat) * (1 % 2 ^ 1) = 2 ^ 1 ∧ 2 * (1 % 2 ^ 2) < 2 ^ 2 ∧ 2 ^ 2 < 2 * (3 % 2 ^ 2) ∧ 4 % 2 ^ 2 = 0 := by
  decide

theorem wit_RepresentableValuesAreExact : 0x38 < 2 ^ fmtE4M3.width ∧ FV.ofBits fmtE4M3 0x38 = .fin false 8 (-3) ∧
    1 < 2 ^ fmtF16.width ∧ FV.ofBits fmtF16 1 = .fin false 1 (-24) := by
  refine ⟨by simp [fmtE4M3, Fmt.width], rfl, by simp [fmtF16, Fmt.width], rfl⟩

theorem wit_IntegerElementsWrapOrSaturate : isInt 1 = true ∧ isInt 2 = true ∧ (0xFFFFFFFF : Nat) < 2 ^ widthOf 1 ∧
    intOf 32 false 0x7FFFFFFF + intOf 32 false 1 ≠ 0 ∧ intMax 32 false < intOf 32 false 0x7FFFFFFF + intOf 32 false 1 := by
  decide

theorem wit_VectorResultsReachActiveLanes : b0.tbit 2 = false ∧ (1 : Tag) ≠ 0xE ∧
    (let s := me fun f => { f with hMod := some 0x400 }
     s.tbit 2 = true ∧ s.me.clause = some clause2 ∧ s.me.idx + 1 < clause2.words.length ∧ 3 ≠ (9 : VReg).toNat % 4) ∧
    (12 : VReg).toNat % 2 = 0 ∧ b0.me.base.toNat + 12 + 1 < b0.myWg.regs ∧
    b0.pendingV b0.actor (b0.me.base.toNat + 13) &&& b0.me.mask = 0 ∧
    ldp.tbit 2 = false ∧ ldp.me.base.toNat + 12 + 1 < ldp.myWg.regs ∧
    ldp.pendingV ldp.actor (ldp.me.base.toNat + 13) &&& ldp.me.mask ≠ 0 := by
  refine ⟨rfl, by decide, ⟨rfl, rfl, by decide, by decide⟩, rfl, by decide, rfl, rfl, by decide, by decide +kernel⟩

theorem wit_VectorTwoSourceResults :
    srcs b0 0 1 (sa 0) (sb (sa 0) 1) ∧ (sb (sa 0) 1).tag = (sa 0).tag ∧ (sb (sa 0) 1).uns = (sa 0).uns ∧ b0.satBad 1 = false ∧
    isInt (sa 0).tag = true ∧ [VArith.add, .sub, .mul, .mulh, .madi, .min, .max].all (·.accepts (sa 0).tag) = true ∧
    b0.tagField 10 2 = (sa 0).tag ∧
    [Instr.vadd 10 0 0 1 0, .vsub 10 0 0 1 0, .vmul 10 0 0 1 0, .vmulh 10 0 0 1 0, .vmadi 10 0 0 1 0, .vmin 10 0 0 1 0,
      .vmax 10 0 0 1 0, .vand 10 0 0 1 0, .vor 10 0 0 1 0, .vxor 10 0 0 1 0, .vshl 10 0 0 1 0, .vshr 10 0 0 1 0,
      .vsra 10 0 0 1 0].all (fun i => b0.issuing && decide (b0.verdict i = .go)) = true ∧
    logicTag (sa 0) (sb (sa 0) 1) = some (1, false) ∧ srcs b0 4 4 (sa 4) (sb (sa 4) 4) ∧ b0.goes (.vfma 4 4 0 4 0) ∧
    b0.goes (.vfms 4 4 0 4 0) ∧ VArith.fma.accepts (sa 4).tag = true ∧ VArith.fms.accepts (sa 4).tag = true ∧
    (sb (sa 4) 4).tag = (sa 4).tag ∧ (sb (sa 4) 4).uns = (sa 4).uns ∧ b0.tagField 4 2 = (sa 4).tag ∧ b0.satBad 3 = false := by
  refine ⟨⟨rfl, rfl, rfl, rfl⟩, rfl, rfl, rfl, rfl, rfl, rfl, rfl, rfl, ⟨rfl, rfl, rfl, rfl⟩, ⟨rfl, rfl⟩, ⟨rfl, rfl⟩, rfl, rfl, rfl,
    rfl, rfl, rfl⟩

/-- The same of pairs, of counts in a lane's word, and of sources that disagree. -/
theorem wit_VectorTwoSourceResults_pairs :
    srcs b1 6 0 (ta 6) (tb (ta 6) 0) ∧ logicTag (ta 6) (tb (ta 6) 0) = some (0xE, false) ∧ (ta 6).tag = 0xE ∧
    (tb (ta 6) 0).tag = 1 ∧ srcs b1 6 6 (ta 6) (tb (ta 6) 6) ∧ (tb (ta 6) 6).tag = 0xE ∧ (tb (ta 6) 6).uns = (ta 6).uns ∧
    VArith.add.accepts 0xE = true ∧ srcs b1 6 14 (ta 6) (tb (ta 6) 14) ∧ (tb (ta 6) 14).uns ≠ (ta 6).uns ∧
    srcs b1 8 1 (ta 8) (tb (ta 8) 1) ∧ isInt (ta 8).tag = true ∧ (tb (ta 8) 1).tag ≠ (ta 8).tag ∧ (tb (ta 8) 1).tag = 1 ∧
    srcs b1 0 4 (ta 0) (tb (ta 0) 4) ∧ (tb (ta 0) 4).tag = 3 ∧ srcs b1 4 6 (ta 4) (tb (ta 4) 6) ∧
    logicTag (ta 4) (tb (ta 4) 6) = none ∧
    [Instr.vadd 12 6 0 6 0, .vadd 12 6 0 14 0, .vadd 10 0 0 4 0, .vand 12 6 0 0 0, .vand 12 4 0 6 0, .vshl 12 6 0 0 0, .vshl 12 6 0 6 0,
      .vshr 12 6 0 14 0, .vsra 10 8 0 1 0, .vsra 10 0 0 4 0].all (fun i => b1.issuing && decide (b1.verdict i = .go)) = true := by
  refine ⟨⟨rfl, rfl, rfl, rfl⟩, rfl, rfl, rfl, ⟨rfl, rfl, rfl, rfl⟩, rfl, rfl, rfl, ⟨rfl, rfl, rfl, rfl⟩, by decide,
    ⟨rfl, rfl, rfl, rfl⟩, rfl, by decide, rfl, ⟨rfl, rfl, rfl, rfl⟩, rfl, ⟨rfl, rfl, rfl, rfl⟩, rfl, rfl⟩

theorem wit_VectorScaleDotPackPermute :
    srcs b0 4 1 (sa 4) (sb (sa 4) 1) ∧ b0.goes (.vscale 9 4 0 1 0) ∧ fmtOf (sa 4).tag = some fmtF32 ∧ (sb (sa 4) 1).tag = 1 ∧
    b0.satBad (sa 4).tag = false ∧ srcs b0 0 1 (sa 0) (sb (sa 0) 1) ∧ b0.goes (.vscale 9 0 0 1 0) ∧ fmtOf (sa 0).tag = none ∧
    srcs b0 8 8 (sa 8) (sb (sa 8) 8) ∧ b0.goes (.vdot4 10 8 0 8 0) ∧ (sa 8).tag = 0xC ∧ (sb (sa 8) 8).tag = (sa 8).tag ∧
    b0.tagField 10 2 = 1 ∧ b0.goes (.vdot4 4 8 0 8 0) ∧ b0.tagField 4 2 ≠ 1 ∧ b0.goes (.vdot4 10 0 0 1 0) ∧
    (sa 0).tag.toNat < 4 ∧
    (limm 2).vsrc2 (src (limm 2) 1 8 0 1) 8 0 = .ok { tag := 0xC, uns := false, lanes := List.replicate 16 2, pend := false } ∧
    b0.accDest 8 = false ∧ b0.goes (.vpack 8 4 0 1 0) ∧ b0.tagField 8 2 = 0xC ∧ b0.satHint = 0 ∧ b0.satBad 0xC = false ∧
    elemsOf 0xC ≤ (sb (sa 4) 1).lanes.getD 0 0 % 16 ∧ b1.goes (.vpack 8 4 0 21 0) ∧ srcs b1 4 21 (ta 4) (tb (ta 4) 21) ∧
    (tb (ta 4) 21).lanes.getD 0 0 % 16 < elemsOf 0xC ∧ 0 ∈ b1.active ∧ b0.goes (.vpack 10 4 0 1 0) ∧
    (b0.tagField 10 2).toNat < 4 ∧ srcs b0 8 1 (sa 8) (sb (sa 8) 1) ∧ b0.goes (.vpack 8 8 0 1 0) ∧ b0.goes (.vperm 9 0 0 1 0) ∧
    b0.me.hLimm = none ∧ b0.vsingle 2 1 0 0 = .ok (sb (sa 0) 1) ∧ (sb (sa 0) 1).pend = false ∧ (sb (sa 0) 1).tag = 1 ∧
    b0.tagField 0 1 ≠ 0 ∧ b0.pendingAny 0 0 (b0.me.base.toNat + 0) = 0 ∧ (sb (sa 0) 1).lanes.getD 3 0 % 64 < b0.width ∧
    b0.routeSrc 0 ((sb (sa 0) 1).lanes.getD 3 0 % 64) = some 7 ∧ b1.goes (.vperm 9 0 0 21 0) ∧
    b1.vsingle 2 21 0 0 = .ok (tb (ta 0) 21) ∧ b1.width ≤ (tb (ta 0) 21).lanes.getD 0 0 % 64 ∧ b0.goes (.vperm 9 50 0 1 0) ∧
    b0.tagField 50 1 = 0 ∧ (limm 3).goes (.vperm 9 0 0 0 0) ∧ (limm 3).me.hLimm = some 3 ∧ b0.goes (.vperm 9 0 0 4 0) ∧
    b0.vsingle 2 4 0 0 = .ok (sb (sa 4) 4) ∧ (sb (sa 4) 4).tag = 3 := by
  refine ⟨⟨rfl, rfl, rfl, rfl⟩, ⟨rfl, rfl⟩, rfl, rfl, rfl, ⟨rfl, rfl, rfl, rfl⟩, ⟨rfl, rfl⟩, rfl, ⟨rfl, rfl, rfl, rfl⟩, ⟨rfl, rfl⟩,
    rfl, rfl, rfl, ⟨rfl, rfl⟩, by decide, ⟨rfl, rfl⟩, by decide, rfl, rfl, ⟨rfl, rfl⟩, rfl, rfl, rfl, ?_, ⟨rfl, rfl⟩,
    ⟨rfl, rfl, rfl, rfl⟩, ?_, by decide +kernel, ⟨rfl, rfl⟩, by decide, ⟨rfl, rfl, rfl, rfl⟩, ⟨rfl, rfl⟩, ⟨rfl, rfl⟩, rfl, rfl,
    rfl, rfl, by decide, rfl, ?_, rfl, ⟨rfl, rfl⟩, rfl, ?_, ⟨rfl, rfl⟩, rfl, ⟨rfl, rfl⟩, rfl, ⟨rfl, rfl⟩, rfl, rfl⟩
  · exact (by decide : 2 ≤ 7)
  · exact (by decide : 0 < 2)
  · exact (by decide : 7 < 16)
  · exact (by decide : 16 ≤ 16)

theorem wit_VectorCompares :
    b0.goes (.vcmp 1 5 0 0 1 0) ∧ srcs b0 0 1 (sa 0) (sb (sa 0) 1) ∧ (sb (sa 0) 1).tag = (sa 0).tag ∧
    (sb (sa 0) 1).uns = (sa 0).uns ∧ (sa 0).tag = 1 ∧ (5 : BitVec 3).toNat < 6 ∧ b0.goes (.vcmp 1 7 4 0 4 0) ∧ (sa 4).tag = 3 ∧
    srcs b0 4 4 (sa 4) (sb (sa 4) 4) ∧ b0.goes (.vcmp 1 0 6 0 6 0) ∧ srcs b0 6 6 (sa 6) (sb (sa 6) 6) ∧ (sa 6).tag = 0xE ∧
    b0.goes (.vcmp 1 6 0 0 1 0) ∧ ¬(6 : BitVec 3).toNat < 6 ∧ b0.goes (.vcmp 1 0 8 0 8 0) ∧ (sa 8).tag = 0xC ∧
    b0.goes (.vcmp 1 0 0 0 4 0) ∧ srcs b0 0 4 (sa 0) (sb (sa 0) 4) ∧ (sb (sa 0) 4).tag ≠ (sa 0).tag ∧ (1 : Tag) ≠ 3 ∧
    (0x7F800001 / 2 ^ 23 % 2 ^ 8 = 255 ∧ 0x7F800001 % 2 ^ 23 ≠ 0) ∧
    ¬(0x7F800000 / 2 ^ 23 % 2 ^ 8 = 255 ∧ 0x7F800000 % 2 ^ 23 ≠ 0) := by
  refine ⟨⟨rfl, rfl⟩, ⟨rfl, rfl, rfl, rfl⟩, rfl, rfl, rfl, by decide, ⟨rfl, rfl⟩, rfl, ⟨rfl, rfl, rfl, rfl⟩, ⟨rfl, rfl⟩,
    ⟨rfl, rfl, rfl, rfl⟩, rfl, ⟨rfl, rfl⟩, by decide, ⟨rfl, rfl⟩, rfl, ⟨rfl, rfl⟩, ⟨rfl, rfl, rfl, rfl⟩, by decide, by decide,
    by decide, by decide⟩

/-- The source of a register read alone. -/
def s1 (r : VReg) : Src :=
  match b0.vsingle 1 r 0 1 with | .ok A => A | _ => { tag := 0, uns := false, lanes := [], pend := true }

theorem wit_VectorMovesAndSelects :
    b0.goes (.vsel 10 0 0 1 0) ∧ b0.vsingle 1 0 0 1 = .ok (s1 0) ∧ (s1 0).pend = false ∧ b0.tagField 10 2 = (s1 0).tag ∧
    b0.tagField 9 2 = 0 ∧ b0.goes (.vsel 4 0 0 1 0) ∧ b0.tagField 4 2 = 3 ∧ b0.accDest 4 = false ∧
    b0.goes (.vmovi 9 1 0x1FF) ∧ (limm 5).goes (.vmovi 9 1 0) ∧ b0.goes (.vtag 9 0) ∧ b0.goes (.vlaneid 9) ∧
    b0.goes (.vretag 9 0 0 2) ∧ b0.routePend 0 0 = false ∧ b0.tbit 1 = false ∧
    (ldp.issuing = true ∧ ldp.routePend 13 0 = true ∧ ldp.tbit 1 = false) := by
  refine ⟨⟨rfl, rfl⟩, rfl, rfl, rfl, rfl, ⟨rfl, rfl⟩, rfl, rfl, ⟨rfl, rfl⟩, ⟨rfl, rfl⟩, ⟨rfl, rfl⟩, ⟨rfl, rfl⟩, ⟨rfl, rfl⟩, rfl, rfl,
    ⟨rfl, by decide +kernel, rfl⟩⟩

theorem wit_VectorOneSourceResults :
    b0.vsrc 1 0 0 1 = .ok (sa 0) ∧ (sa 0).pend = false ∧
    [Instr.vmov 9 0 0, .vnot 9 0 0, .vabs 9 0 0, .vneg 9 0 0, .vclz 9 0 0, .vffs 9 0 0, .vpopc 9 0 0, .vbrev 9 0 0, .vcvt 9 0 0 3].all
      (fun i => b0.issuing && decide (b0.verdict i = .go)) = true ∧
    (numTag (sa 0).tag && !b0.satBad (sa 0).tag) = true ∧ isInt (sa 0).tag = true ∧ b0.satBad 3 = false ∧ b0.satHint = 0 ∧
    b0.vsrc 1 4 0 1 = .ok (sa 4) ∧ (sa 4).pend = false ∧ (sa 4).tag = 3 ∧ fmtOf (sa 4).tag = some fmtF32 ∧
    [Instr.vclass 9 4 0, .vexp2 9 4 0, .vlog2 9 4 0, .vrcp 9 4 0, .vrsq 9 4 0, .vsin 9 4 0, .vcos 9 4 0].all
      (fun i => b0.issuing && decide (b0.verdict i = .go)) = true ∧
    b0.vsrc 1 8 0 1 = .ok (sa 8) ∧ (sa 8).pend = false ∧ b0.goes (.vunpk 9 8 0 1) ∧
    (decide (4 ≤ (sa 8).tag.toNat) && decide ((sa 8).tag.toNat ≤ 13) && decide ((1 : BitVec 4).toNat < elemsOf (sa 8).tag)) = true ∧
    b0.vsrc 1 6 0 1 = .ok (sa 6) ∧ (sa 6).tag = 0xE ∧ b0.goes (.vclz 12 6 0) ∧ b0.goes (.vexp2 9 0 0) ∧
    b0.goes (.vcvt 12 4 0 0xE) ∧
    (let s := slt (fun t => { t with v := [(0, reg 8 0)] }) (me fun f => { f with hMod := some 0x200000 })
     s.satBad 8 = true ∧ s.issuing = true ∧ s.verdict (.vabs 9 0 0) = .go ∧ s.verdict (.vneg 9 0 0) = .go ∧
     (src s 1 0 0 1).tag = 8 ∧ s.vsrc 1 0 0 1 = .ok (src s 1 0 0 1)) := by
  refine ⟨rfl, rfl, rfl, rfl, rfl, rfl, rfl, rfl, rfl, rfl, rfl, rfl, rfl, rfl, ⟨rfl, rfl⟩, rfl, rfl, rfl, ⟨rfl, rfl⟩, ⟨rfl, rfl⟩,
    ⟨rfl, rfl⟩, ⟨rfl, rfl, rfl, rfl, rfl, rfl⟩⟩

theorem wit_RoutesTablesReductions :
    b0.goes (.route 1 0 0) ∧ b0.goes (.routeS 1 0 2) ∧ b0.vsrc 1 0 0 1 = .ok (sa 0) ∧ (sa 0).pend = false ∧ (sa 0).tag = 1 ∧
    b0.goes (.ptld 0 0 0) ∧ b0.goes (.vreduce 0 0 3 0) ∧ b0.width ≤ 64 ∧ b0.goes (.vreduce 0 0 3 5) ∧
    b0.goes (.vscan 9 0 0 3 1) ∧ b0.tbit 2 = false ∧ b0.goes (.vscan 9 0 0 3 4) ∧ b0.vsrc 1 4 0 1 = .ok (sa 4) ∧
    (sa 4).tag = 3 ∧ b0.goes (.vreduce 4 0 3 2) ∧ b0.goes (.vreduce 4 0 3 3) ∧ b0.goes (.vscan 9 4 0 3 3) ∧
    b0.goes (.vscan 9 4 0 3 4) ∧ b0.goes (.ptld 0 4 0) ∧
    (∃ T : Nat → Nat → Option Red,
      (∀ l, T 0 l = if l < b0.width ∧ b0.me.mask.getLsbD l = true then some (Red.ofLane 1 ((sa 0).lanes.getD l 0)) else none) ∧
      (∀ h l, T (h + 1) l = match T h (2 * l), T h (2 * l + 1) with
        | some u, some v => some (Red.comb 0 1 b0.rm b0.satHint u v)
        | some u, none => some u
        | none, v => v)) ∧
    (∃ P : Nat → Red, P 0 = Red.ident 0 1 ∧ ∀ l, P (l + 1) =
      if b0.me.mask.getLsbD l then Red.comb 0 1 b0.rm b0.satHint (P l) (Red.ofLane 1 ((sa 0).lanes.getD l 0)) else P l) := by
  refine ⟨⟨rfl, rfl⟩, ⟨rfl, rfl⟩, rfl, rfl, rfl, ⟨rfl, rfl⟩, ⟨rfl, rfl⟩, by decide, ⟨rfl, rfl⟩, ⟨rfl, rfl⟩, rfl, ⟨rfl, rfl⟩, rfl,
    rfl, ⟨rfl, rfl⟩, ⟨rfl, rfl⟩, ⟨rfl, rfl⟩, ⟨rfl, rfl⟩, ⟨rfl, rfl⟩, ?_, ?_⟩
  · refine ⟨fun h => Nat.rec (fun l => if l < b0.width ∧ b0.me.mask.getLsbD l = true then
      some (Red.ofLane 1 ((sa 0).lanes.getD l 0)) else none)
      (fun _ T l => match T (2 * l), T (2 * l + 1) with
        | some u, some v => some (Red.comb 0 1 b0.rm b0.satHint u v)
        | some u, none => some u
        | none, v => v) h, fun _ => rfl, fun _ _ => rfl⟩
  · exact ⟨fun l => Nat.rec (Red.ident 0 1) (fun l P =>
      if b0.me.mask.getLsbD l then Red.comb 0 1 b0.rm b0.satHint P (Red.ofLane 1 ((sa 0).lanes.getD l 0)) else P) l, rfl, fun _ => rfl⟩

/-- No sector of the parts fills the entries of the CU, and the flag is free. -/
def room (s : State) (ps : List Part) : Bool :=
  decide (s.missUsed s.myWg.cu + (ps.filter Part.holdsMiss).length ≤ 4096) &&
  decide (s.writeUsed s.myWg.cu + (ps.filter Part.holdsWrite).length ≤ 1024)
/-- The lanes of a unit pass their checks. -/
def lanesOk (s : State) (size b a : Nat) (n : Need) : Bool :=
  match s.laneOffs a with
  | .ok off => (match s.checkLanes size (s.laneAddrs off b) (fun va => s.accessMe va n) with
    | .ok ls => room s ((s.sectorParts s.hint ls).map (s.lookup s.myWg.cu)) && room s (s.sectorParts s.hint ls)
    | _ => false)
  | _ => false
/-- A lane alone passes its check. -/
def laneOk (s : State) (size : Nat) (va : DWord) (n : Need) : Bool :=
  match s.checkLanes size [(0, va)] (fun a => s.accessMe a n) with | .ok _ => true | _ => false

/-- Lanes at 4 (lane 0) and at 7 are aligned and not aligned; every byte is mapped. -/
theorem wit_LoadsIssue :
    [Instr.ld32 9 0 1 1 0, .ld64 12 0 1 0xE 0, .ld128 12 0 1 1 0, .ldN 9 0 1 0 0, .lds 3 1 6 0 0, .ldb 9 1 1 0, .pref 0 1 0].all
      (fun i => b0.issuing && decide (b0.verdict i = .go)) = true ∧
    lanesOk b0 4 1 0 .read = true ∧ lanesOk b0 8 1 0 .read = true ∧ lanesOk b0 16 1 0 .read = true ∧ lanesOk b0 1 1 1 .read = true ∧
    laneOk b0 8 (b0.scalAddr 1 0) .read = true ∧ laneOk b0 4 (b0.sreg 1 + b0.limmDisp) .read = true ∧ b0.flagSel 0 = some 0 ∧ b0.flagval 0 0 0 b0.me.mask < 63 ∧
    (sr [(1, 0x00E2000000000040)]).goes (.ldw 9 1 0) ∧
    (sr [(1, 0x00E2000000000040)]).windowReg ((sr [(1, 0x00E2000000000040)]).sreg 1 + (sr [(1, 0x00E2000000000040)]).limmDisp) = .ok (0, 1) ∧
    (sr [(1, 0x00E2000000000040)]).pendingV r0 1 &&& 0xFFFF = 0 := by
  refine ⟨rfl, rfl, rfl, rfl, rfl, rfl, rfl, rfl, by decide, ⟨rfl, rfl⟩, rfl, rfl⟩

theorem wit_StoresIssue :
    [Instr.st32 0 0 1 0, .st64 10 0 1 0, .stN 0 0 1 0 0, .sts 3 1 3 0 0].all
      (fun i => b0.issuing && decide (b0.verdict i = .go)) = true ∧
    lanesOk b0 4 1 0 .write = true ∧ lanesOk b0 8 1 0 .write = true ∧ lanesOk b0 16 1 0 .write = true ∧
    b0.invalidData 0 1 = none ∧ b0.invalidData 10 2 = none ∧
    (let s := slt fun t => { t with v := t.v ++ [(12, reg 1 0), (13, reg 1 0), (14, reg 1 0), (15, reg 1 0)] }
     s.goes (.st128 12 0 1 0) ∧ s.invalidData 12 4 = none) ∧
    laneOk b0 8 (b0.scalAddr 1 0) .write = true ∧
    (let s := sr [(1, 0x00E2000000000040)]
     s.goes (.stw 0 1 0) ∧ s.windowReg (s.sreg 1 + s.limmDisp) = .ok (0, 1) ∧ s.vtagOf 0 ≠ 0 ∧
     s.pendingV s.actor 1 &&& s.me.mask = 0) ∧
    (let s := sr [(1, 0x100000000)]
     s.goes (.clst 0 0 1 0 0) ∧ fld (s.sreg 1) 48 16 = 0 ∧ fld (s.sreg 1) 21 11 = 0 ∧
     (List.range 16).filter (fun r => (s.sreg 1).getLsbD (32 + r)) = [0] ∧
     0 < (s.cluster s.myWg.cluster).cw * (s.cluster s.myWg.cluster).ch ∧ s.myWg.ssize = 0x10000 ∧ s.active ≠ []) := by
  refine ⟨rfl, rfl, rfl, rfl, rfl, rfl, ⟨⟨rfl, rfl⟩, rfl⟩, rfl, ⟨⟨rfl, rfl⟩, rfl, by decide, rfl⟩,
    ⟨⟨rfl, rfl⟩, rfl, rfl, rfl, by decide, rfl, by decide⟩⟩

/-- A store's part. -/
def pw0 : Part := { pt0 with wr := [(0, 0xAA), (31, 0xBB)] }

theorem wit_LoadsAndStoresArePerformed :
    (let s := opd (.load (.vec 9 4 0)) [pt0]
     ∃ o, s.op 1 = some o ∧ o.parts[0]? = some pt0 ∧ o.kind = .load (.vec 9 4 0) ∧ pt0.st = .todo ∧ inHbm 0x10000 = true ∧
       s.poisoned 0x10000 = false ∧ s.mustFollow o pt0 false = false) ∧
    (let s := opd (.load (.vec 9 4 0)) [{ pt0 with st := .bound }]
     ∃ o, s.op 1 = some o ∧ o.parts[0]? = some { pt0 with st := .bound } ∧ (pt0.lanes.map (·.1)).Nodup) ∧
    (∃ o, (opd (.load (.scal 3 8 false)) [{ pt0 with st := .bound }]).op 1 = some o ∧ o.kind = .load (.scal 3 8 false)) ∧
    (let s := opd .store [pw0]
     ∃ o, s.op 1 = some o ∧ o.kind = .store ∧ o.parts[0]? = some pw0 ∧ pw0.st = .todo ∧ s.mustFollow o pw0 true = false ∧
       0x10000 + 32 ≤ hbmEnd ∧ (∀ w, w ∈ pw0.wr → w.1 < 32) ∧ s.memOk) ∧
    (let s := opd .store [{ pw0 with st := .performed }, pw0]
     ∃ o, s.op 1 = some o ∧ o.parts[0]? = some { pw0 with st := .performed } ∧ o.parts[1]? = some pw0 ∧ pw0.st ≠ .done) ∧
    (let s := opd .store [{ pw0 with st := .performed }]
     ∃ o, s.op 1 = some o ∧ (∀ j q, j ≠ 0 → o.parts[j]? = some q → q.st = .done) ∧ o.scope.code ≤ 3 ∧ o.sticky = 0 ∧ o.fault = none) ∧
    (let s := opd .store [{ pw0 with st := .done }] (fun o => { o with st := .settling })
     ∃ o, s.op 1 = some o ∧ o.st = .settling ∧ o.gwct ≤ s.lease o.cu) ∧
    (let s := opd .store [{ pw0 with st := .done }] (fun o => { o with st := .settling, gwct := 2 ^ 40, cls := clsW, scope := .device })
     ∃ o, s.op 1 = some o ∧ s.lease o.cu < o.gwct ∧ 4 ≤ o.scope.code ∧ (o.cls &&& clsWrites) ≠ 0) := by
  refine ⟨⟨_, rfl, rfl, rfl, rfl, rfl, rfl, rfl⟩, ⟨_, rfl, rfl, by decide⟩, ⟨_, rfl, rfl⟩,
    ⟨_, rfl, rfl, rfl, rfl, rfl, by decide, by decide, rfl⟩, ⟨_, rfl, rfl, rfl, by decide⟩, ⟨_, rfl, ?_, by decide, rfl, rfl⟩,
    ⟨_, rfl, rfl, by decide⟩, ⟨_, rfl, by decide, by decide, by decide⟩⟩
  intro j q h1 h2
  cases j with
  | zero => exact absurd rfl h1
  | succ j => cases h2

/-- A monitor's condition: equal to 0, 8 bytes. -/
def mc0 : MonCond := { op := 0, size := 8, v := 0 }

theorem wit_FencesAndMonitors :
    b0.goes (.fence 1 2 6) ∧ scopeOf (6 : BitVec 3).toNat = some .system ∧
    (let fe : FenceSt := { pred := 1, succ := 1, scope := .workgroup, mark := 0, pc := 0 }
     let s := me fun f => { f with fence := some fe }
     (s.fib r0).fence = some fe ∧ (s.fib r0).st ≠ .absent ∧ s.earlierDone r0 0 1 .workgroup fe.waitsOt = true) ∧
    (let s := sr [(1, 0x10000)]
     s.goes (.waitc 1 2 0 1 0) ∧ (s.sreg 1).toNat % 8 = 0 ∧ s.accessMe (s.sreg 1) .read = .at (.mem 0x10000) (some leaf0) ∧
     cacheable (.mem 0x10000) (some leaf0) = true ∧ s.recordFull = false ∧ s.flagSel 0 = some 0) ∧
    (let s := opd (.monitor mc0 3) [pt0]
     ∃ o, s.op 1 = some o ∧ o.kind = .monitor mc0 3 ∧ o.parts = [pt0] ∧ pt0.loc = .mem 0x10000 ∧ s.mons = [] ∧
       (s.mons.filter (fun m => m.slice == homeOf 0x10000 && m.armed)).length < 256 ∧
       mc0.holds (BitVec.ofNat 64 (leNat (s.hbmBytes 0x10000 8))) = true) ∧
    (let s := opd (.monitor mc0 3) [{ pt0 with st := .bound }]
     ∃ o, s.op 1 = some o ∧ o.parts = [{ pt0 with st := .bound }] ∧ s.isSaved o.who.wg = false) := by
  refine ⟨⟨rfl, rfl⟩, rfl, ⟨rfl, by decide, rfl⟩, ⟨⟨rfl, rfl⟩, rfl, rfl, rfl, rfl, rfl⟩, ⟨_, rfl, rfl, rfl, rfl, rfl, by decide, rfl⟩,
    ⟨_, rfl, rfl, rfl⟩⟩

/-- The lanes of an atomic pass their checks. -/
def atomOk (s : State) (size b a : Nat) (n : Need) (custom : Bool) : Bool :=
  match s.laneOffs a with
  | .ok off => (match s.checkLanes size (s.laneAddrs off b) (s.atomAccess n custom) with
    | .ok ls => room s (splitPeers 8 (s.atomParts s.hint custom ls))
    | _ => false)
  | _ => false
/-- A custom handler of one `FEND` in a clause of its own. -/
def hndl : List Word := [0xFE001FE0, 0x0C200000]
/-- The machine with a handler installed, or with one in memory at 0x10000. -/
def hins : State := ctxr fun c => { c with handlers := [(0, hndl)] }
def hmem : State := { sr [(1, 0x10000), (2, 8)] with
  mem := b0.mem ++ [(0x10000, 0xE0), (0x10001, 0x1F), (0x10003, 0xFE), (0x10006, 0x20), (0x10007, 0x0C)] }

theorem wit_AtomicsIssue :
    b0.goes (.amo 0 0 1 0 0 0) ∧ b0.goes (.amor 0 0 1 0 0 0) ∧ b0.goes (.cas 10 0 1 0 0 0) ∧ b0.goes (.acust 10 0 1 0 0 0) ∧
    hins.goes (.acust 10 0 1 0 0 0) ∧ hins.myCtx.handlers.find? (fun e => e.1 == 0) = some (0, hndl) ∧
    (∃ ty, b0.atomType 0 0 = .ok ty ∧ ty.wide = false) ∧ atomOk b0 4 1 0 .amo false = true ∧ b0.casType 10 = .ok false ∧
    atomOk b0 4 1 0 .cas false = true ∧ b0.pendingV r0 10 &&& 0xFFFF = 0 ∧ b0.pendingV r0 11 &&& 0xFFFF = 0 ∧
    atomOk hins 4 1 0 .amo true = true ∧ b0.vtagOf 10 ≠ 0 ∧ b0.vtagOf 11 ≠ 0 ∧
    b0.goes (.asinst 0 1 2) ∧ (b0.sreg 2).toNat = 0 ∧ b0.handlerBusy 0 b0.nextId = false ∧ b0.me.wait = false ∧
    hmem.goes (.asinst 0 1 2) ∧ (hmem.sreg 2).toNat = 8 ∧ (hmem.sreg 1).toNat % 4 = 0 ∧
    (∃ s1 bs w, hmem.readMe (hmem.sreg 1) 8 = .ok s1 bs w ∧
      (List.range 2).map (fun i => BitVec.ofNat 32 (leNat ((bs.drop (4 * i)).take 4))) = hndl ∧
      (s1.ctxs.map (fun e => e.2.handlers.length)).sum < 64) ∧ handlerBad hndl = none := by
  refine ⟨⟨rfl, rfl⟩, ⟨rfl, rfl⟩, ⟨rfl, rfl⟩, ⟨rfl, rfl⟩, ⟨rfl, rfl⟩, rfl, ⟨_, rfl, rfl⟩, rfl, rfl, rfl, rfl, rfl, rfl, by decide, by decide,
    ⟨rfl, rfl⟩, rfl, rfl, rfl, ⟨rfl, rfl⟩, rfl, rfl, ⟨_, _, _, rfl, rfl, by decide⟩, rfl⟩

/-- An atomic add of 32 bits with its old value wanted, in the queue of service fibre 0. -/
def amoq (st : PSt) (data : List Byte) : State :=
  { opd (.atomic { op := 0, wide := false, tag := 1, tagHi := 0 } true 9) [{ pt0 with st := st, data := data }] with
    ase := [(0, .slot 0 0, .op 1 0)] }

theorem wit_AtomicsArePerformed :
    (let s := amoq .todo []
     ∃ o, s.op 1 = some o ∧ o.parts[0]? = some pt0 ∧ pt0.loc = .mem 0x10000 ∧ o.kind = .atomic { op := 0, wide := false, tag := 1, tagHi := 0 } true 9 ∧
       nextSource (Tbl.get s.ring 0 0) ((heads 0 [] s.ase).filter (fun e => s.mayServe e.2)) = some (.slot 0 0, .op 1 0) ∧
       0x10000 + 32 ≤ hbmEnd ∧ pt0.lanes ≠ [] ∧ (∀ l, l ∈ pt0.lanes → l.2 + 4 ≤ 32) ∧ s.memOk) ∧
    (let p := { pt0 with st := .performed, data := [1, 2, 3, 4] }
     ∃ o, (amoq .performed [1, 2, 3, 4]).op 1 = some o ∧ o.parts[0]? = some p ∧ p.data ≠ [] ∧ (p.lanes.map (·.1)).Nodup) := by
  refine ⟨⟨_, rfl, rfl, rfl, rfl, rfl, by decide, by decide, by decide, rfl⟩, ⟨_, rfl, rfl, by decide, by decide⟩⟩

/-- The coalescer has an entry of page 0x10000 that the fibre waits for. -/
def coal0 : State := cur fun c => { c with leaves := [], coal := [{ asid := 1, page := 0x10000, waiters := [(r0, b0.me.fid)], prefs := [], fail := none }] }
/-- A window with its number 0. -/
def dec0 : Decant := { base := 0x50000000, size := 64, idxbase := 0x10000, srcbase := 0x20000, count := 1, bound := 1, esize := 4,
                       errIndex := false, errXlate := false }
def dwin : State := ctxr fun c => { c with decants := [(0, dec0)] }
/-- The walk of the page finds its leaf. -/
def walks : Bool := decide (coal0.walkCached 0 (coal0.ctx 1) 0x10000 = .leaf leaf0)
/-- An invalidation is posted. -/
def inv0 : Inv := { id := 1, fid := 0, range := .all, sys := false, applied := false, mark := 0, waiting := [], reply := none }
/-- A window record of 64 bytes stands in memory at 0x10000: it is refused, since it is zero. -/
def dbind : State := sr [(1, 0x10000), (2, 0)]
def refusesBind : Bool := match dbind.readMe (dbind.sreg 1) 64 with
  | .ok s1 bs _ => (match s1.myCtx.bindResult bs (dbind.sreg 2) with | .error _ => true | .ok _ => false)
  | _ => false

theorem wit_TranslationAndDecantWindows :
    b0.writesHome = true ∧ canonical (b0.sreg 1) = true ∧ fld (b0.sB 2) 28 36 = 0 ∧ fld (b0.sreg 1) 16 48 = 0 ∧
    [Instr.tlbinvVaDev 1 2, .tlbinvVaSys 1 2, .tlbinvAsidDev 1, .tlbinvAsidSys 1, .tlbinvAllDev, .tlbinvAllSys, .tlbsyncDev, .tlbsyncSys].all
      (fun i => b0.issuing && decide (b0.verdict i = .go)) = true ∧ b0.invs = [] ∧
    b0.goes (.atrans 3 1 0) ∧ b0.accessMe (b0.sreg 1) .read = .at (.mem 0) (some leaf0) ∧
    (let s := sr [(1, 0x0100000000000000)]
     s.goes (.atrans 3 1 1) ∧ s.accessMe (s.sreg 1) .amo = .fail 0x20 (xDetail 0 0)) ∧
    (∃ e, (coal0.cu 0).coal.find? (fun e => e.asid == 1 && e.page == 0x10000 && e.fail.isNone) = some e) ∧
    (∃ k c, coal0.ctxs.find? (fun e => e.2.live && e.2.asid == 1) = some (k, c)) ∧ walks = true ∧
    ({ b0 with invs := [inv0] } : State).invs.find? (fun v => v.id == 1) = some inv0 ∧
    dbind.goes (.decantBind 3 1 2) ∧ (dbind.sreg 1).toNat % 64 = 0 ∧
    refusesBind = true ∧
    b0.goes (.decantUnbind 3 1) ∧ b0.myCtx.decants.find? (fun e => e.1 == 0) = none ∧
    dwin.myCtx.decants.find? (fun e => e.1 == 0) = some (0, dec0) ∧ dwin.goes (.decantUnbind 3 1) ∧ dwin.ops = [] := by
  refine ⟨rfl, rfl, rfl, rfl, rfl, rfl, ⟨rfl, rfl⟩, rfl, ⟨⟨rfl, rfl⟩, rfl⟩, ⟨_, rfl⟩, ⟨_, _, rfl⟩, by decide +kernel, rfl, ⟨rfl, rfl⟩, rfl,
    by decide +kernel, ⟨rfl, rfl⟩, rfl, rfl, ⟨rfl, rfl⟩, rfl⟩

/-- The fibre has signed gang 0 alone, or gang 0 has a posted operation. -/
def sg0 : Signer := { bit := 0, who := r0, fid := b0.me.fid, mask := 0xFFFF, base := 0, flag := none, ipc := 0, since := 0 }
/-- The step word: zero the accumulators, one step from step 0. -/
def mp0 : MxPost := { MxPost.none with op := 1, acc := 4, word := 0x2000000, a := 0x10000, b := 0x20000, e := 0x30000 }
def gg (x : Gang) (s : State := b0) : State := s.setGang 0 0 x

theorem wit_GangRegisters :
    b0.goes (.mbind 1 0 0) ∧ b0.goes (.mbind 1 0 2) ∧ (b0.sreg 1).toNat % 64 = 0 ∧ b0.goes .mready ∧
    (∀ r, r < 128 → b0.pendingV b0.actor (b0.me.base.toNat + r) &&& b0.me.mask = 0) ∧
    b0.earlierDone b0.actor b0.nextId 0xFF (b0.scopeOr .workgroup) false = true ∧
    (let s := sr [(1, 1)]
     s.goes (.msign 1 0 0) ∧ s.actor.idx ≠ 8 ∧ (s.sreg 1).getLsbD (memberBit s.actor) = true ∧ (s.gang 0 0).st ≠ .issued ∧
     (s.gang 0 0).signed.getLsbD (memberBit s.actor) = false ∧ s.flagSel 0 = some 0 ∧ s.flagval 0 0 0 s.me.mask < 63) ∧
    b0.goes (.mma 4 1 0) ∧ b0.goes (.mtile 4 1 0) ∧ b0.goes (.mepi 4 0 3) ∧ (b0.gang 0 0).st ≠ .issued ∧ (b0.gang 0 0).post = none ∧
    b0.recordFull = false ∧ b0.goes (.mstat 0 3 0) ∧ b0.goes (.mstat 2 3 0) ∧ b0.goes .mrfence ∧ b0.writesHome = true := by
  refine ⟨⟨rfl, rfl⟩, ⟨rfl, rfl⟩, rfl, ⟨rfl, rfl⟩, ?_, rfl, ⟨⟨rfl, rfl⟩, by decide, by decide, by decide, by decide, rfl, by decide⟩, ⟨rfl, rfl⟩,
    ⟨rfl, rfl⟩, ⟨rfl, rfl⟩, by decide, rfl, rfl, ⟨rfl, rfl⟩, ⟨rfl, rfl⟩, ⟨rfl, rfl⟩, rfl⟩
  intro r _
  have h : ∀ n, b0.pendingV b0.actor n = 0 := fun n => rfl
  rw [h]
  decide

/-- Record of 1 and of 16 rows of 32 BF16 elements, and of an epilogue of one row of 16 BF16 elements. -/
def recA : ShapeRec := { recOf 0x10000 [] with base := 0x11000, dim0 := 32, dim1 := 1, stride1 := 64, fmt := 1 }
def recB : ShapeRec := { recA with addr := 0x20000, base := 0x21000, dim1 := 16 }
def recE : ShapeRec := { recA with addr := 0x30000, base := 0x31000, dim0 := 16 }
/-- The machine with the operation of gang 0 in the queue of the matrix engine, its records read before. -/
def mx (k : OpKind) (f : Cu → Cu := id) : State :=
  { (opd k [] id (gg { Gang.idle with st := .issued, e := 1, signers := [sg0], post := some mp0, opId := some 1 }
      (cur fun c => f { c with recs := [(1, 0x10000, recA, 0), (1, 0x20000, recB, 0), (1, 0x30000, recE, 0)], mxq := [1] }))) with agenda := [] }
/-- Did the entry of the queue go, fail or wait? -/
def goes? : MxTry → Nat
  | .go .. => 0
  | .fail .. => 1
  | .wait => 2
def run0 (t e : Nat) : MxRun := { op := 1, recA := recA, recB := recB, t := t, tEnd := e, acc := [List.replicate 16 0], img := none }
def img0 : List (Loc × DWord × List Byte) := [(.mem 0x11000, 0x11000, [1, 2]), (.mem 0x11002, 0x11002, [3])]

theorem wit_MatrixOperations :
    b0.goes (.splitEnc 1 1 0) ∧ b0.goes (.splitDec 1 1 0) ∧ (b0.sreg 1).toNat % 64 = 0 ∧ b0.recordFull = false ∧ b0.flagSel 0 = some 0 ∧
    (let s := mx (.gang 0 mp0 [sg0])
     ∃ o, (s.cu 0).mxq = [1] ∧ (s.cu 0).mxRuns.length < 16 ∧ s.op 1 = some o ∧ o.kind = .gang 0 mp0 [sg0] ∧ mp0.op ≠ 3 ∧
       goes? (s.mmEntry o 0 mp0 [sg0]) = 0 ∧ o.cu = 0 ∧ goes? (s.mmEntry o 0 { mp0 with word := 0 } [sg0]) = 0 ∧
       goes? (s.mmEntry o 0 { mp0 with b := 0x10000 } [sg0]) = 1 ∧ goes? (s.epiEntry o 0 { mp0 with op := 3, minor := 2 } [sg0]) = 1) ∧
    (∃ o, (mx (.split true 0x10000 0x20000 0)).op 1 = some o ∧
      goes? ((mx (.split true 0x10000 0x20000 0)).splitEntry o true 0x10000 0x20000) = 1) ∧
    (let s := mx (.gang 0 mp0 [sg0]) (fun c => { c with mxRuns := [run0 0 1] })
     ∃ o s1 s2 ra rb w1 w2, s.op 1 = some o ∧ (s.cu 0).mxRuns = [run0 0 1] ∧ (0 : Nat) ≠ 1 ∧
       s.fetchStep o recA 0 0 1 = .ok s1 ra w1 ∧ s1.fetchStep o recB 0 1 16 = .ok s2 rb w2) ∧
    (let s := mx (.split true 0x10000 0x20000 0) (fun c => { c with mxRuns := [{ run0 0 2 with img := some img0 }] })
     ∃ o, s.op 1 = some o ∧ img0[0]? = some (.mem 0x11000, 0x11000, [1, 2]) ∧ 0 + 1 < img0.length ∧ inHbm 0x11000 = true ∧ s.memOk) ∧
    (let s := mx (.gang 0 mp0 [sg0]) (fun c => { c with mxRuns := [run0 1 1] })
     ∃ o, s.op 1 = some o ∧ (s.cu 0).mxRuns = [run0 1 1] ∧ o.scope.code ≤ 3) := by
  refine ⟨⟨rfl, rfl⟩, ⟨rfl, rfl⟩, rfl, rfl, rfl, ⟨_, rfl, by decide, rfl, rfl, by decide, rfl, rfl, rfl, rfl, rfl⟩, ⟨_, rfl, rfl⟩,
    ⟨_, _, _, _, _, _, _, rfl, rfl, by decide, rfl, rfl⟩, ⟨_, rfl, rfl, by decide, rfl, rfl⟩, ⟨_, rfl, rfl, by decide⟩⟩

/-- Two descriptors of one row and column without entries, at 0x10000. -/
def spm : List Host.Cell := [(0x10018, 1), (0x1001C, 1), (0x10058, 1), (0x1005C, 1)]
/-- A row product in the queue of the sparse engine. -/
def spq (f : Op → Op) : State :=
  { (opd (.spgRow 0x10000 0 0) [] f (cur fun c => { c with gseq := [1] })) with mem := b0.mem ++ spm }

theorem wit_SparseOperations :
    (let s := sr [(1, 0), (2, 0)]
     s.goes (.spgRow 1 2 0) ∧ s.goes (.spgFlush 1 2 0) ∧ s.spaOk (fld (s.sreg 2) 32 21) = true ∧ fld (s.sreg 2) 53 11 = 0 ∧
     (s.cu 0).gseq.length < 16 ∧ s.recordFull = false ∧ s.flagSel 0 = some 0 ∧ fld (s.sreg 2) 21 11 = 0 ∧ fld (s.sreg 2) 50 14 = 0 ∧
     fld (s.sreg 2) 32 16 ≤ 4096) ∧
    b0.goes (.rackHint 1 2) ∧ b0.goes (.rackInv 1 2) ∧
    (let s := spq fun o => { o with st := .queued }
     ∃ o, (s.cu 0).gseq = [1] ∧ s.op 1 = some o ∧ o.kind = .spgRow 0x10000 0 0 ∧ o.st = .queued ∧
       (match s.rowProduct o 0x10000 0 0 with | .ok .. => true | _ => false) = true) ∧
    (∃ o, (spq fun o => { o with st := .running, argv := [(0, [3]), (1, [5])] }).op 1 = some o ∧ o.st = .running ∧
      o.argv = [(0, [3]), (1, [5])]) := by
  refine ⟨⟨⟨rfl, rfl⟩, ⟨rfl, rfl⟩, by decide +kernel, rfl, by decide, rfl, rfl, rfl, rfl, by decide⟩, ⟨rfl, rfl⟩, ⟨rfl, rfl⟩,
    ⟨_, rfl, rfl, rfl, rfl, by decide +kernel⟩, ⟨_, rfl, rfl, rfl⟩⟩

/-- A linear copy of one block from 0x10000 to 0x20000. -/
def cp0 : CopyArgs := .start 0 0x20000 0x10000 128 0 0
/-- The machine with a copy in flight. -/
def cpy (c : CopyArgs) (st : OpSt) (f : Cu → Cu := id) : State := opd (.copy c) [] (fun o => { o with st := st }) (cur f)

theorem wit_CopyOperations :
    b0.goes (.cp 2 1 3 0) ∧ b0.goes (.cpG 2 1 3 0) ∧ b0.goes (.cpMc 2 1 3 0) ∧ (b0.sreg 2).toNat = 0 ∧
    (let s := sr [(1, 0x20000), (2, 0x10000), (4, 128), (5, 0x12)]
     s.goes (.cp 4 1 2 0) ∧ s.goes (.cpG 4 1 2 0) ∧ (s.sreg 4).toNat ≠ 0 ∧ (s.sreg 4).toNat < 2 ^ 36 ∧
     overlaps (s.sreg 2) (s.sreg 1) 128 = false ∧ (s.sreg 5).getLsbD 3 = false ∧ fld (s.sreg 5) 16 48 = 0 ∧ gMode (s.sreg 5) = 2 ∧
     gSeg (s.sreg 5) = false ∧ (s.cu 0).ceCount < 64 ∧ s.recordFull = false) ∧
    (let s := sr [(1, 0x100000000), (2, 0x10000), (4, 128)]
     s.goes (.cpMc 4 1 2 0) ∧ targetRanks (s.sreg 1) = [0] ∧ fld (s.sreg 1) 21 11 = 0 ∧ fld (s.sreg 1) 48 16 = 0 ∧
     0 < (s.cluster s.myWg.cluster).cw * (s.cluster s.myWg.cluster).ch ∧ fld (s.sreg 1) 0 21 + 128 ≤ s.myWg.ssize ∧
     (s.cluster s.myWg.cluster).place ≠ .stopping) ∧
    b0.goes (.cpT 1 3 0) ∧ b0.goes (.cpStat 0 3) ∧
    (∃ o, (cpy cp0 .queued fun c => { c with ceq := [1] }).op 1 = some o ∧
      ((cpy cp0 .queued fun c => { c with ceq := [1] }).cu 0).ceq = [1] ∧ o.kind = .copy cp0 ∧
      Tbl.has ((cpy cp0 .queued fun c => { c with ceq := [1] }).cu 0).chans 3 = false ∧ cp0.kind ≠ 2) ∧
    (let s := cpy cp0 .running
     ∃ o s1 bs w e, s.op 1 = some o ∧ o.st = .running ∧ cp0.kind = 0 ∧ cp0.off < cp0.units ∧ cp0.dst.toNat + cp0.len < 2 ^ 64 ∧
       unitOf cp0.dst.toNat cp0.len cp0.off = (0, 128) ∧ s.engRead o.who.wg o.cu o.ctx 0x10000 128 refuseCe = .ok s1 bs w ∧
       s1.accessOp o.who.wg o.cu o.ctx 0x20000 .write = .at (.mem 0x20000) e ∧ refuseCe (.mem 0x20000) e = none ∧ s.memOk) ∧
    (∃ o, (cpy { cp0 with off := 1 } .running).op 1 = some o ∧ ({ cp0 with off := 1 } : CopyArgs).units ≤ 1 ∧ cp0.first = none ∧
      o.scope.code ≤ 3) := by
  refine ⟨⟨rfl, rfl⟩, ⟨rfl, rfl⟩, ⟨rfl, rfl⟩, rfl, ⟨⟨rfl, rfl⟩, ⟨rfl, rfl⟩, by decide, ?_, rfl, rfl, rfl, rfl, rfl, by decide, rfl⟩,
    ⟨⟨rfl, rfl⟩, rfl, rfl, rfl, by decide, by decide, by decide⟩, ⟨rfl, rfl⟩, ⟨rfl, rfl⟩, ⟨_, rfl, rfl, rfl, rfl, by decide⟩,
    ⟨_, _, _, _, _, rfl, rfl, rfl, by decide, ?_, rfl, rfl, rfl, rfl, rfl⟩, ⟨_, rfl, by decide, rfl, by decide⟩⟩
  · exact Nat.lt_trans (show 128 < 256 by omega) (by omega)
  · show 0x20000 + 128 < 2 ^ 64
    omega

/-- The second GiB of addresses is memory of peer device 7. -/
def leaf7 : TLeaf := { asid := 1, base := 0x40000000, size := 3, pte := 0x89D, frame := 0, dev := 7 }
/-- The machine with a way to device 7. -/
def fab (s : State := b0) : State :=
  cur (fun c => { c with leaves := [leaf0, leaf7] }) { s with fe := { s.fe with members := 0x81 } }
/-- A plan exists. -/
def planned (s : State) (get : Bool) (g : Option DWord) (d a : DWord) (n : Nat) : Bool :=
  match s.plan (fun need va => s.accessMe va need) get g d a n with | .ok _ => true | _ => false
/-- The machine with message queue 0 posted, its slots as given. -/
def mq (m : MsgQ) (s : State := fab) : State := { s with fe := { s.fe with queues := [(0, m)] } }
def mq0 : MsgQ := { ctx := 1, base := 0x10000, pages := [0x10000, 0x11000, 0x12000, 0x13000], nslots := 16, cnt := none, wg := 0,
                    slots := [(3, .filled)], order := [3], waiting := [], lastGrant := 0xFFFF, reserved := [] }
/-- `QPOST` of 16 slots at 0x20000, its record at 0x10000. -/
def qp : State := { sr [(1, 0), (2, 0x10000)] with mem := b0.mem ++ [(0x10002, 2), (0x10008, 4)] }
def qpOk : Bool := match qp.readMe 0x10000 64 with
  | .ok s1 bs _ => leNat ((bs.drop 8).take 8) == 4 && !(bs.drop 16).any (· != 0) && s1.msgQ 0 == none &&
      leNat (bs.take 8) == 0x20000 && (match s1.queueArea 0x20000 16 with | .ok _ => true | _ => false)
  | _ => false
def regionOk : Bool := match (sr [(1, 0x10000)]).regionCheck 0x10000 128 with | (.ok _ _, _) => true | _ => false

theorem wit_FabricInstructions :
    b0.goes (.put 2 1 3 0) ∧ b0.goes (.get 2 1 3 0) ∧ (b0.sreg 2).toNat = 0 ∧
    (let s := sr [(1, 0x40000000), (2, 0x10000), (4, 128), (5, 0x10)] fab
     s.goes (.put 4 1 2 0) ∧ planned s false none (s.sreg 1) (s.sreg 2) 128 = true ∧ s.goes (.get 4 2 1 0) ∧
     planned s true none (s.sreg 2) (s.sreg 1) 128 = true ∧ s.goes (.putG 4 1 2 0) ∧ badGuard false (s.sreg 5) = false ∧
     planned s false (some (s.sreg 5)) (s.sreg 1) (s.sreg 2) 128 = true ∧ s.flagSel 0 = some 0 ∧ s.flagval 0 0 0 s.me.mask < 63) ∧
    (let s := sr [(1, 0x10000), (2, 0x40000000), (4, 128), (5, 0x11)] fab
     s.goes (.getG 4 1 2 0) ∧ badGuard true (s.sreg 5) = false ∧ planned s true (some (s.sreg 5)) (s.sreg 1) (s.sreg 2) 128 = true) ∧
    (let s := sr [(1, 0x40000000), (2, 0x10000), (4, 128), (5, 3)] fab
     s.goes (.tsend 4 1 2 0) ∧ fld (s.sreg 4) 36 4 = 0 ∧ fld (s.sreg 4) 48 16 = 0 ∧ fld (s.sreg 5) 32 32 = 0 ∧ fld (s.sreg 4) 0 36 = 128 ∧
     planned s false none (s.sreg 1) (s.sreg 2) 128 = true) ∧
    b0.goes (.cntRd 3 1) ∧ (b0.sreg 1).toNat < 256 ∧ (sr [(3, 255)]).goes (.cntAdd 1 3) ∧
    b0.goes (.cntSet 2 1 3) ∧ b0.ops = [] ∧ fld (b0.sreg 3) 8 24 = 0 ∧ (sr [(1, 0x10000), (2, 128)]).goes (.cntSet 2 1 3) ∧ regionOk = true ∧
    b0.goes (.cntAdd 1 2) ∧ b0.earlierDone b0.actor b0.nextId clsW .device false = true ∧ b0.myWg.live = true ∧ b0.goes (.cntwait 1 2 0) ∧
    (mq mq0).goes (.qpost 1 2) ∧ (mq mq0).msgQ 0 = some mq0 ∧ mq0.ctx = (mq mq0).myWg.ctx ∧ (mq mq0).fe.owed = [] ∧
    qp.goes (.qpost 1 2) ∧ (qp.sreg 2).toNat % 64 = 0 ∧ qp.memOk ∧ qpOk = true ∧
    (let s := sr [(3, 7)] fab
     s.goes (.msend 2 3 1 0) ∧ fld (s.sreg 3) 26 38 = 0 ∧ (s.sreg 2).toNat ≤ 256 ∧ s.fe.dead.contains 7 = false ∧ s.hasRoute 7 = true) ∧
    (mq mq0).goes (.qpop 1 4 3) ∧ mq0.order.find? (fun e => mq0.slot e == .filled) = some 3 ∧
    (let m := { mq0 with slots := [], order := [] }
     (mq m).goes (.qpop 1 4 3) ∧ m.order.find? (fun e => m.slot e == .filled) = none) ∧
    (let m := { mq0 with slots := [(3, .held)], order := [] }
     let s := sr [(1, 0x103C0)] (mq m)
     s.goes (.qpop 1 4 3) ∧ s.sreg 1 = m.base + BitVec.ofNat 64 (320 * 3) ∧ m.slot 3 = .held ∧ m.waiting = []) ∧
    (let s := sr [(1, 0x103C1)] (mq mq0)
     s.goes (.qpop 1 4 3) ∧ s.sreg 1 ≠ 0 ∧ ∀ j, j < 16 → s.sreg 1 ≠ mq0.base + BitVec.ofNat 64 (320 * j)) ∧
    b0.goes (.peerStat 3 1) ∧ b0.goes (.peerClr 1) ∧ b0.fe.dead.contains 0 = false ∧
    ({ b0 with fe := { b0.fe with dead := [0] } } : State).goes (.peerClr 1) ∧
    ({ b0 with fe := { b0.fe with resync := [(0, r0, b0.me.fid)] } } : State).goes (.peerClr 1) := by
  refine ⟨⟨rfl, rfl⟩, ⟨rfl, rfl⟩, rfl, ⟨⟨rfl, rfl⟩, rfl, ⟨rfl, rfl⟩, rfl, ⟨rfl, rfl⟩, rfl, rfl, rfl, by decide⟩, ⟨⟨rfl, rfl⟩, rfl, rfl⟩,
    ⟨⟨rfl, rfl⟩, rfl, rfl, rfl, rfl, rfl⟩, ⟨rfl, rfl⟩, by decide, ⟨rfl, rfl⟩, ⟨rfl, rfl⟩, rfl, rfl, ⟨rfl, rfl⟩, by decide +kernel,
    ⟨rfl, rfl⟩, rfl, rfl, ⟨rfl, rfl⟩, ⟨rfl, rfl⟩, rfl, rfl, rfl, ⟨rfl, rfl⟩, rfl, rfl, by decide +kernel,
    ⟨⟨rfl, rfl⟩, rfl, by decide, rfl, rfl⟩, ⟨rfl, rfl⟩, rfl, ⟨⟨rfl, rfl⟩, rfl⟩, ⟨⟨rfl, rfl⟩, rfl, rfl, rfl⟩,
    ⟨⟨rfl, rfl⟩, by decide, by decide⟩, ⟨rfl, rfl⟩, ⟨rfl, rfl⟩, rfl, ⟨rfl, rfl⟩, ⟨rfl, rfl⟩⟩

/-- A packet of device 7. -/
def pk (ty : BitVec 8) (tc : BitVec 2) : Packet :=
  { dst := 0, src := 7, ty := ty, tc := tc, route := 1, val := false, dup := false, seq := 0, mid := 0, viam := 0, sctx := 1, len := 32,
    addr := 0x10000, aux := 0, tag := 0, rsv := 0, payload := List.replicate 32 5, trailer := [] }
/-- A packet for device 7 in the retry buffer. -/
def tx (st : TxSt) (ty : BitVec 8) (tc : BitVec 2) : TxPkt :=
  { id := 5, pkt := { pk ty tc with dst := 7, src := 0 }, st := st, deadline := 0, backoff := 1, replayed := false, op := 1, part := 0, got := [] }
def txd (x : TxPkt) (s : State := fab) : State := { s with fe := { s.fe with tx := [x] } }
/-- A put of 32 bytes from 0x10000. -/
def xf0 : XferArgs := { get := false, guard := none, len := 32, dva := 0x40000000, sva := 0x10000, dst := [{ off := 0, loc := .peer 7 0 }],
                        src := [{ off := 0, loc := .mem 0x10000 }], sent := 0, acked := 0, hold := [], wrote := [] }
def xfRead : Bool := match (txd (tx .waiting 4 2) (opd (.xfer xf0) [] id fab)).xferRead 1 xf0 0 32 with | some _ => true | none => false
/-- A reservation of slot 2 that lapsed, and a source that waits. -/
def mq1 : MsgQ := { mq0 with reserved := [(2, 7, 0)] }

theorem wit_FabricSteps :
    (let s := txd { tx .waiting 9 0 with op := 0 }
     ∃ x, s.fe.tx.find? (fun z => z.id == 5) = some x ∧ x.st = .waiting ∧ s.op x.op = none ∧ s.mayHold x.pkt = true) ∧
    (let s := txd (tx .waiting 2 0) (opd .store [pw0] id fab)
     ∃ o, s.op 1 = some o ∧ o.kind = .store ∧ s.mayHold (tx .waiting 2 0).pkt = true ∧ s.gateOpen o = true) ∧
    (let s := txd (tx .waiting 2 0) { (opd .store [pw0] (fun o => { o with gate := some { mark := 2, ot := 0, gwct := 0 } }) fab) with
       ops := (opd .store [pw0] (fun o => { o with gate := some { mark := 2, ot := 0, gwct := 0 }, id := 2 }) fab).ops ++ stq.ops }
     ∃ o, s.op 2 = some o ∧ s.gateOpen o = false) ∧
    (let s := txd (tx .waiting 4 2) (opd (.xfer xf0) [] id fab)
     ∃ o, s.op 1 = some o ∧ o.kind = .xfer xf0 ∧ xf0.get = false ∧ xf0.guard = none ∧ xfRead = true ∧
       s.mayHold { (tx .waiting 4 2).pkt with payload := List.replicate 32 0, trailer := [0, 0] } = true) ∧
    (let s := txd (tx .sent 2 0)
     (tx .sent 2 0).deadline ≤ s.feTime ∧ (tx .sent 2 0).pkt.route ≠ 3 ∧ ({ (tx .sent 2 0).pkt with route := 3 } : Packet).route = 3 ∧
     (tx .busy 8 3).deadline ≤ s.feTime) ∧
    (let p := { pk 2 0 with dst := 7, src := 9 }
     p.dst ≠ fab.fe.devid ∧ fab.nextHop p = some (false, 14) ∧ fab.hopUp (false, 14) = false ∧
     (let s : State := { fab with locals := [(14, { LocalPort.down with up := true })] }
      s.nextHop p = some (false, 14) ∧ (s.localPort 14).up = true ∧ (s.localPort 14).fails = 0)) ∧
    (let s := mq mq1
     s.msgQ 0 = some mq1 ∧ mq1.reserved.find? (fun e => decide (e.2.2 ≤ s.feTime)) = some (2, 7, 0) ∧
     ({ mq1 with reserved := [] } : MsgQ).nextWaiting = none ∧
     ({ mq1 with reserved := [], waiting := [(7, pk 8 3)] } : MsgQ).nextWaiting = some (7, pk 8 3)) ∧
    (let s := opd (.tsend xf0 0 1) [] id fab
     ∃ o, s.op 1 = some o ∧ o.kind = .tsend xf0 0 1 ∧ (s.counter o.who.wg 0).value.toNat < (1 : Word).toNat) ∧
    (let s := opd (.tsend xf0 0 0) [] id fab
     ∃ o, s.op 1 = some o ∧ (0 : Word).toNat ≤ (s.counter o.who.wg 0).value.toNat ∧ (∀ p, p ∈ s.ops → 1 ≤ p.id)) ∧
    (let s := opd (.cntwait 0 1) []
     ∃ o, s.op 1 = some o ∧ o.sticky = 0 ∧ o.fault = none ∧ (s.counter o.who.wg 0).value.toNat < (1 : DWord).toNat) := by
  refine ⟨⟨_, rfl, rfl, rfl, by decide +kernel⟩, ⟨_, rfl, rfl, by decide +kernel, rfl⟩, ⟨_, rfl, rfl⟩,
    ⟨_, rfl, rfl, rfl, rfl, by decide +kernel, by decide +kernel⟩, ⟨by decide, by decide, rfl, by decide⟩,
    ⟨by decide, rfl, rfl, rfl, rfl, rfl⟩, ⟨rfl, rfl, rfl, rfl⟩, ⟨_, rfl, rfl, by decide⟩, ⟨_, rfl, by decide, by decide⟩,
    ⟨_, rfl, rfl, rfl, by decide⟩⟩

/-- A packet is taken for the first time. -/
def fresh (s : State) (p : Packet) (tys : List Nat) : Bool := match s.receive p tys with | .fresh => true | _ => false

theorem wit_FabricTargets :
    fresh fab (pk 1 0) [1] = true ∧ fab.readPoisoned (pk 1 0) = false ∧ fresh fab { pk 6 2 with aux := 64 } [6] = true ∧
    fresh fab { pk 7 2 with aux := 128 } [7] = true ∧ fresh fab (pk 2 0) [2] = true ∧ fab.memOk ∧ fresh fab (pk 4 2) [4] = true ∧
    fresh fab { pk 5 2 with len := 128, aux := 0x100000, payload := List.replicate 128 1, trailer := [0] } [5] = true ∧
    fresh fab (pk 3 0) [3] = true ∧ fresh fab (pk 8 3) [8] = true ∧ fab.msgQ 0 = none ∧
    fresh (mq mq0) (pk 8 3) [8] = true ∧ (mq mq0).msgQ 0 = some mq0 ∧ mq0.slotFor 7 = some 0 ∧
    ({ mq0 with slots := (List.range 16).map (fun j => (j, MSlot.held)) } : MsgQ).slotFor 7 = none ∧
    fresh fab { pk 9 0 with aux := 1, payload := List.replicate 24 0, len := 24 } [9] = true ∧
    formed { pk 9 0 with aux := 3 } = true ∧ fab.shunned 7 = false ∧ (pk 9 0).dst = fab.fe.devid := by
  refine ⟨?_, ?_, ?_, ?_, ?_, rfl, ?_, ?_, ?_, ?_, rfl, ?_, rfl, rfl, rfl, ?_, rfl, rfl, rfl⟩ <;> decide +kernel

theorem wit_FabricAnswers :
    (let s := txd (tx .sent 1 0) (opd (.load (.vec 9 4 0)) [{ pt0 with st := .sent }] id fab)
     ∃ o, s.hears (pk 0x10 1) 0x10 = true ∧ s.txFor (pk 0x10 1) [0] = some (tx .sent 1 0) ∧ (tx .sent 1 0).pkt.ty = 1 ∧
       (tx .sent 1 0).pkt.aux ≠ 3 ∧ s.op 1 = some o ∧ o.parts[0]? = some { pt0 with st := .sent }) ∧
    (let x := { tx .sent 9 0 with op := 0, pkt := { (tx .sent 9 0).pkt with aux := 3 } }
     (txd x).hears (pk 0x11 1) 0x11 = true ∧ (txd x).txFor (pk 0x11 1) [0] = some x ∧ x.pkt.aux = 3 ∧ (txd x).op 0 = none) ∧
    (let s := txd (tx .sent 2 0) (opd .store [pw0, pw0] id fab)
     ∃ o, s.txFor (pk 0x11 1) [0] = some (tx .sent 2 0) ∧ s.op 1 = some o ∧ o.parts[0]? = some pw0 ∧ o.parts[1]? = some pw0 ∧
       pw0.st ≠ .done) ∧
    (let s := txd (tx .sent 3 0) (opd (.atomic { op := 0, wide := false, tag := 1, tagHi := 0 } true 9) [pt0] id fab)
     ∃ o, s.hears (pk 0x12 1) 0x12 = true ∧ s.txFor (pk 0x12 1) [0] = some (tx .sent 3 0) ∧ s.op 1 = some o ∧
       o.parts[0]? = some pt0 ∧ (pk 0x12 1).payload ≠ [] ∧ (pt0.lanes.map (·.1)).Nodup) ∧
    (let v := { xf0 with get := true, dst := xf0.src, src := xf0.dst }
     let s := txd (tx .sent 6 2) (opd (.xfer v) [] id fab)
     ∃ o, s.hears (pk 0x13 1) 0x13 = true ∧ s.txFor (pk 0x13 1) [2] = some (tx .sent 6 2) ∧ s.op 1 = some o ∧ o.kind = .xfer v ∧
       v.guard = none ∧ s.memOk ∧ (tx .sent 6 2).got = [] ∧
       (∀ k, k < 32 → placeAt v.dst (0 + 0 + k) = some (.mem (0x10000 + k)))) ∧
    (txd (tx .sent 8 3)).hears (pk 0x14 1) 0x14 = true ∧ (txd (tx .sent 8 3)).txFor (pk 0x14 1) [3] = some (tx .sent 8 3) ∧
    (txd (tx .busy 8 3)).hears (pk 0x15 1) 0x15 = true ∧ (txd (tx .busy 8 3)).txFor (pk 0x15 1) [3] = some (tx .busy 8 3) ∧
    (let s := txd (tx .sent 2 0) (opd .store [pw0] id fab)
     ∃ o, s.hears (pk 0x16 1) 0x16 = true ∧ s.txFor (pk 0x16 1) [0] = some (tx .sent 2 0) ∧ s.op 1 = some o ∧ o.kind = .store ∧
       (s.fib o.who).st = .ready ∧ (s.fib o.who).fid = o.fid ∧ (s.fib o.who).doomed = false) := by
  refine ⟨⟨_, rfl, rfl, rfl, by decide, rfl, rfl⟩, ⟨rfl, rfl, rfl, rfl⟩, ⟨_, rfl, rfl, rfl, rfl, by decide⟩, ⟨_, rfl, rfl, rfl, rfl, by decide, by decide⟩,
    ⟨_, rfl, rfl, rfl, rfl, rfl, rfl, rfl, by decide⟩, rfl, rfl, rfl, rfl, ⟨_, rfl, rfl, rfl, rfl, rfl, rfl, rfl⟩⟩

/-- A flit with its CRC. -/
def fl (f : Flit) : Flit := { f with crc := crc64 f.body }
theorem fl_good (f : Flit) : (fl f).good = true := by simp [fl, Flit.good, Flit.body]
def fl0 : Flit := { ftype := 1, seq := 0, ack := 0, ackv := false, nak := false, crvc := 0, crn := 0, pvc := 0, first := 0, rsv := 0,
                    payload := List.replicate 240 0, crc := 0 }
/-- The machine with EOL port 0. -/
def prt (p : Port) (n : Nat := 0) : State := { b0 with ports := [(n, p)], now := 20000 }
def lit : Tbl Nat Wave := (List.range 8).map (fun w => (w, { Wave.dark with locked := true }))
def up0 : Port := { Port.down with st := .up, held := [fl { fl0 with seq := 1 }], waves := lit }
/-- The control flit of the partner of a port of eight wavelengths. -/
def ts1f : Flit := fl { fl0 with ftype := 2, payload := [0, 1, 8, 0, 5, 0, 0] ++ List.replicate 233 0 }

theorem wit_Links :
    (prt up0).port 0 = up0 ∧ up0.st = .up ∧ up0.queue = [] ∧ (fl fl0).good = true ∧ (fl fl0).ftype = 1 ∧ (fl fl0).seq = up0.rxNext ∧
    up0.lastNak = none ∧ (fl { fl0 with seq := 5 }).seq ≠ up0.rxNext ∧ (fl ts1f).ftype ≠ 1 ∧
    (let f := fl { fl0 with ack := 1, ackv := true, nak := true }
     f.good = true ∧ f.ackv = true ∧ f.nak = true ∧ up0.held.findIdx? (fun h => h.seq == f.ack) = some 0) ∧
    up0.held ≠ [] ∧ up0.ackAt + 4000 ≤ (prt up0).now ∧ up0.replays < 7 ∧ ({ up0 with replays := 7 } : Port).replays ≥ 7 ∧
    ts1f.good = true ∧ ts1f.ctl 9 = 1 ∧ (ts1f.ctl 0x0A).toNat = portWaves 0 ∧ ({ Port.down with waves := lit } : Port).lockedAll 0 = true ∧
    Port.down.st = .down ∧ Port.down.lastTs1 + 1000 ≤ (prt Port.down).now ∧
    ({ Port.down with st := .credit } : Port).queue = [] ∧ ({ Port.down with st := .retrain, ts2 := true } : Port).queue = [] ∧
    Port.down.since + 10000 ≤ (prt Port.down).now ∧ Port.down.retrains < 2 ∧ 2 ≤ ({ Port.down with retrains := 2 } : Port).retrains ∧
    ({ up0 with waves := [] } : Port).lockedAll 0 = false ∧ up0.since + 1000 ≤ (prt up0).now ∧
    (7 : Nat) < portWaves 0 ∧ (0x1A7 : BitVec 20).toNat % 16 = 7 ∧ (0x1A7 : BitVec 20).toNat / 16 % 16 = 0xA ∧
    (0x1A7 : BitVec 20).toNat / 256 = (Wave.dark.count + 1) % 4096 ∧ (Tbl.get lit 7 Wave.dark).locked = true := by
  refine ⟨rfl, rfl, rfl, fl_good _, rfl, rfl, rfl, by decide, by decide, ⟨fl_good _, rfl, rfl, rfl⟩, by decide, by decide, by decide, by decide,
    fl_good _, rfl, rfl, rfl,
    rfl, by decide, rfl, rfl, by decide, by decide, by decide, rfl, by decide, by decide, by decide, by decide, by decide, rfl⟩

/-- The grid is a pipeline of one stage whose queue lies at 0x10000; the queue of the cluster holds `l`. -/
def pip (q : StageQ) (s : State := b0) : State :=
  let st : Stage := { entry := 0x20000, qbase := 0x10000, depth := 16, stealable := true }
  let s1 := s.setGrid 0 { s.grid 0 with launch := { Launch.zero with pipe := true, args := 77 }, stages := [st] }
  s1.setCluster 0 { s1.cluster 0 with stages := [(0, q)] }
def q3 : StageQ := { StageQ.empty 0 with items := [1, 2, 3] }
/-- Registers 12 to 15 hold items. -/
def its (s : State) : State := slt (fun t => { t with v := t.v ++ [(12, reg 1 0), (13, reg 1 0), (14, reg 1 0), (15, reg 1 0)] }) s
/-- Launch queue 0. -/
def lq (q : LQueue) (s : State := b0) : State := { s with queues := [(0, q)] }
def lq0 : LQueue := { LQueue.unbound with ctx := some 1, deviceFed := true }
/-- Event counter 0 belongs to the context. -/
def own : State := cur (fun c => { c with ev := [(0, { EvCnt.zero with owner := 0x1001, count := 9 })] })
/-- Trace on, into sixteen records from 0x10000. -/
def trc : State := ctxr fun c => { c with trbase := 0x10000, trctl := 9 }

theorem wit_WorkInstructions :
    (let s := its (pip q3)
     s.goes (.spawn 0 1 2 0) ∧ s.goes (.spawnv 12 0 0) ∧ (s.grid s.myWg.grid).launch.pipe = true ∧ s.recordFull = false ∧
     s.flagSel 0 = some 0 ∧ s.active ≠ [] ∧ (∀ i, i < 4 → s.vtagOf (12 + i) ≠ 0)) ∧
    b0.goes (.spawn 0 1 2 0) ∧ b0.goes (.spawnv 8 0 0) ∧ (b0.grid b0.myWg.grid).launch.pipe = false ∧
    (let s := slt (fun t => { t with runs := some 0, items := 7 }) (pip { q3 with claimed := 3 })
     s.goes .itemdone ∧ s.mySlot.runs = some 0) ∧
    (lq lq0).goes (.launch 1 2 0) ∧ ((lq lq0).sreg 1).toNat % 256 = 0 ∧ ((lq lq0).queue ((lq lq0).sreg 2).toNat).deviceFed = true ∧
    ((lq lq0).queue 0).ctx = some (lq lq0).myWg.ctx ∧ b0.goes (.preemptPt 1 2) ∧
    own.goes (.evread 0 1) ∧ own.ownsCounter 0 = true ∧ own.goes (.evctl 0 1) ∧ fld (own.sreg 1) 0 8 ≤ 0x12 ∧
    fld (own.sreg 1) 11 53 = 0 ∧ own.myCtx.priv = true ∧ b0.ownsCounter 0 = false ∧ b0.goes (.evread 0 1) ∧ b0.goes (.evctl 0 1) ∧
    b0.goes (.tmark 1) ∧ b0.myCtx.trctl.getLsbD 0 = false ∧ trc.goes (.tmark 1) ∧ trc.myCtx.trctl.getLsbD 0 = true ∧
    fld trc.myCtx.trctl 1 5 = 4 ∧ trc.memOk ∧ trc.tracePa trc.myCtx.trbase = some 0x10000 ∧
    trc.tracePa (trc.myCtx.trbase + 64) = some 0x10040 := by
  refine ⟨⟨⟨rfl, rfl⟩, ⟨rfl, rfl⟩, rfl, rfl, rfl, by decide, by decide⟩, ⟨rfl, rfl⟩, ⟨rfl, rfl⟩, rfl, ⟨⟨rfl, rfl⟩, rfl⟩, ⟨rfl, rfl⟩, rfl, rfl, rfl,
    ⟨rfl, rfl⟩, ⟨rfl, rfl⟩, rfl, ⟨rfl, rfl⟩, by decide, rfl, rfl, rfl, ⟨rfl, rfl⟩, ⟨rfl, rfl⟩, ⟨rfl, rfl⟩, rfl, ⟨rfl, rfl⟩, rfl, rfl, rfl, rfl, rfl⟩

/-- A queue whose block stands at 0x10000, and bytes of that block. -/
def qrun : LQueue := { lq0 with st := .run, block := 0x10000 }
def blk (l : List Host.Cell) : State := ctxr (fun c => { c with save := 0x100000, size := 0x400000 }) { lq qrun with mem := b0.mem ++ l }
/-- A launch of one workgroup of 16 registers in context 1, its save area at 0x100000; and one in context 0. -/
def good : State := blk [(0x10010, 0x20), (0x10054, 16), (0x10056, 1), (0x10062, 0x10)]
def bad : State := blk [(0x10010, 0x20)]
def place (s : State) (va : DWord) (n : Need) (pa : Nat) : Bool :=
  match s.frontPlace 1 va n with | .ok (.mem p) => p == pa | _ => false
def valid (s : State) : Nat := s.validate 1 none (recordOf (s.hbmBytes 0x10000 256))
/-- A grid whose one cluster is pending. -/
def pend : State :=
  let l := { Launch.zero with regs := 16, entry := 0x20000 }
  let x : Grid := { b0.grid 0 with launch := l, done := false, clusters := [0] }
  { (b0.setCluster 0 { Cluster.blank with place := .pending }) with grids := [(0, x)], wgs := [], slots := [], fibres := [] }
/-- A grid whose clusters have ended. -/
def ended (sig : Option (DWord × DWord)) : State :=
  (b0.setGrid 0 { b0.grid 0 with block := 0x10000, signal := sig, done := false }).setCluster 0 { b0.cluster 0 with place := .ended }

theorem wit_WorkSteps :
    (let s := opd (.spawn 0 [9]) [] id (pip q3)
     ∃ o, s.op 1 = some o ∧ o.sticky = 0 ∧ o.fault = none ∧ s.isSaved o.who.wg = false ∧ s.gateOpen o = true ∧ o.kind = .spawn 0 [9] ∧
       (∀ x, x ∈ s.ops → 1 ≤ x.id) ∧ ((s.cluster (s.wg o.who.wg).cluster).stageQ 0).occ + 1 ≤ (s.stageOf (s.wg o.who.wg).cluster 0).depth) ∧
    (∃ o, (opd (.launch 0x10000 0 3) [] id (lq lq0)).op 1 = some o ∧ o.kind = .launch 0x10000 0 3 ∧ ((lq lq0).queue 0).fifo.length < 256) ∧
    (let s := lq { lq0 with st := .run }
     (s.queue 0).ctx = some 1 ∧ (s.queue 0).gwct ≤ s.frontTime ∧ (s.queue 0).st = .run ∧ (s.queue 0).block = 0 ∧
     (s.queue 0).fifo = [] ∧ ((lq { lq0 with st := .run, fifo := [(0x10000, 3)] }).queue 0).fifo = [(0x10000, 3)]) ∧
    place (blk []) 0x10000 .read 0x10000 = true ∧ place (blk []) 0x10038 .write 0x10038 = true ∧ good.memOk ∧ good.poisoned 0x10000 = false ∧
    good.poisoned 0x10080 = false ∧ headerBad (good.hbmBytes 0x10000 256) = false ∧ headerMisaligned (good.hbmBytes 0x10000 256) = false ∧
    blkBits (good.hbmBytes 0x10000 256) 0x10 0 4 = 0 ∧ blkBits ((blk []).hbmBytes 0x10000 256) 0x10 5 1 = 0 ∧
    blkBits (good.hbmBytes 0x10000 256) 0x10 5 1 = 1 ∧ blkBits (good.hbmBytes 0x10000 256) 0x10 6 1 = 0 ∧
    place good 0x10000 .read 0x10000 = true ∧ place good 0x10038 .write 0x10038 = true ∧ valid good = 0 ∧ valid bad ≠ 0 ∧
    (let q := { qrun with st := .hit, held := List.replicate 256 (0 : Byte) }
     ((lq q).queue 0).st = .hit ∧ blkBits q.held 0x10 1 3 ≠ 5 ∧ blkBits q.held 0x10 5 1 = 0 ∧ place (lq q) 0x10038 .write 0x10038 = true) ∧
    (∃ x, pend.grids = [(0, x)] ∧ x.done = false ∧ x.launch.prio < 8 ∧ x.clusters = [0] ∧ (pend.cluster 0).place = .pending ∧
      (pend.cluster 0).inst = 0 ∧ (pend.cluster 0).grid = 0 ∧ x.launch.gridbar = false ∧ x.launch.pipe = false ∧
      pend.fits [pend.ownPlace 0] [] = true ∧ 0 < x.launch.slots ∧ 0 < x.launch.fibres ∧ 0 < (pend.cluster 0).cw) ∧
    (ended none).gridEnded 0 = true ∧ (ended none).gridPerformed 0 = true ∧ ((ended none).grid 0).done = false ∧ ((ended none).grid 0).signal = none ∧
    place (ended none) 0x10038 .write 0x10038 = true ∧ ((ended (some (0x10040, 1))).grid 0).signal = some (0x10040, 1) ∧
    place (ended (some (0x10040, 1))) 0x10040 .write 0x10040 = true ∧ (ended none).memOk := by
  refine ⟨⟨_, rfl, rfl, rfl, rfl, rfl, rfl, by decide, by decide⟩, ⟨_, rfl, rfl, by decide⟩, ⟨rfl, by decide, rfl, rfl, rfl, rfl⟩, ?_, ?_, rfl, rfl, rfl,
    ?_, ?_, ?_, ?_, ?_, ?_, ?_, ?_, ?_, ?_, ⟨rfl, ?_, ?_, ?_⟩,
    ⟨_, rfl, rfl, by decide, rfl, rfl, rfl, rfl, rfl, rfl, by decide +kernel, by decide, by decide, by decide⟩,
    rfl, rfl, rfl, rfl, ?_, rfl, ?_, rfl⟩ <;> decide +kernel

/-- The slot of the pipeline is free and assigned to stage 0. -/
def psl (q : StageQ) : State :=
  { (slt (fun t => { t with stage := some 0 }) (pip q)) with fibres := [] }
/-- Two clusters of the pipeline. -/
def two (q x : StageQ) : State :=
  let s := psl q
  (s.setGrid 0 { s.grid 0 with clusters := [0, 1] }).setCluster 1 { s.cluster 0 with c := 1, wgs := [], stages := [(0, x)] }
/-- The cluster as given, with no fibre of its workgroup. -/
def clu (f : Cluster → Cluster) (s : State := b0) : State := { (s.setCluster 0 (f (s.cluster 0))) with fibres := [], agenda := [] }
/-- A cluster of higher priority waits for the place. -/
def vict : State :=
  let s := b0.setGrid 5 { b0.grid 0 with launch := { Launch.zero with regs := 1024, slots := 8, prio := 7, x0 := 0, y0 := 0 }, clusters := [5], done := false }
  let s1 := s.setGrid 0 { s.grid 0 with launch := { Launch.zero with regs := 1024, slots := 8 }, done := false }
  (s1.setWg 0 { s1.wg 0 with banks := List.range 90 }).setCluster 5 { Cluster.blank with place := .pending, grid := 5 }

theorem wit_PipelineAndPlacementSteps :
    (let s := psl { q3 with headDue := true }
     (s.slot 0 0).stage = some 0 ∧ s.slotFree 0 0 = true ∧ ((s.cluster (s.wg 0).cluster).stageQ 0).items ≠ [] ∧
     ((s.cluster (s.wg 0).cluster).stageQ 0).headDue = true) ∧
    ((psl q3).cluster 0).place = .resident ∧ q3.items ≠ [] ∧
    (let s := two (StageQ.empty 0) q3
     (s.cluster 0).place = .resident ∧ (s.stageOf 0 0).stealable = true ∧ 1 < (s.grid (s.cluster 0).grid).clusters.length ∧
     ((s.cluster 0).stageQ 0).items = [] ∧ ((s.cluster 0).stageQ 0).victim = none ∧ ((s.cluster 0).stageQ 0).backoff = false ∧
     0 ∈ (s.cluster 0).wgs ∧ 0 < (s.wg 0).nslots ∧ s.slotFree 0 0 = true ∧ (s.slot 0 0).stage = some 0) ∧
    (let s := two { StageQ.empty 0 with victim := some 1 } q3
     ((s.cluster 0).stageQ 0).victim = some 1 ∧ s.clusterNo (s.cluster 0).grid 1 = some 1 ∧
     min 64 (((s.cluster 1).stageQ 0).items.length / 2) = 1) ∧
    (((two { StageQ.empty 0 with backoff := true } q3).cluster 0).stageQ 0).backoff = true ∧ (psl q3).openStages ((psl q3).wg 0).cluster = [0] ∧
    (let s := psl (StageQ.empty 0)
     (s.grid 0).launch.pipe = true ∧ (s.grid 0).clusters = [0] ∧ (s.cluster 0).place = .resident ∧ ((s.cluster 0).stageQ 0).occ = 0 ∧
     (s.cluster 0).stages = [(0, StageQ.empty 0)] ∧ s.ops = [] ∧ (s.cluster 0).wgs = [0] ∧ (s.wg 0).live = true ∧
     (∀ r, r ∈ s.wgRefs 0 → (s.fib r).st = .absent)) ∧
    (let s := clu fun c => { c with place := .stopping, moveTo := some (1, 0) }
     (s.cluster 0).place = .stopping ∧ (s.cluster 0).moveTo = some (1, 0) ∧ s.settled 0 = true ∧ s.fits [(0, 1, 0)] [] = true) ∧
    (let s := clu fun c => { c with place := .stopping }
     (s.cluster 0).moveTo = none ∧ s.group 0 = [0] ∧ s.settled 0 = true) ∧
    (vict.cluster 0).place = .resident ∧ (vict.wg 0).preempt = none ∧ vict.chosen 0 7 = true ∧
    (let s := clu fun c => { c with place := .saved }
     (s.cluster 0).place = .saved ∧ (3, 2) ∈ rectsOf (s.cluster 0).cw (s.cluster 0).ch ∧ s.wholeGrid (s.cluster 0).grid = false ∧
     s.fits [(0, 3, 2)] [] = true ∧ notReserved s.reserved (s.levelOf 0) (cusOf 3 2 1 1) = true) := by
  refine ⟨⟨rfl, rfl, by decide, rfl⟩, rfl, by decide, ⟨rfl, rfl, by decide, rfl, rfl, rfl, by decide, by decide, rfl, rfl⟩, ⟨rfl, rfl, rfl⟩, rfl, rfl,
    ⟨rfl, rfl, rfl, rfl, rfl, rfl, rfl, rfl, by decide⟩, ⟨rfl, rfl, rfl, ?_⟩, ⟨rfl, rfl, rfl⟩, rfl, rfl, ?_, ⟨rfl, by decide, rfl, ?_, rfl⟩⟩ <;> decide +kernel

/-- The fibre stands at its header, with or without its clause. -/
def hdr (c : Option Clause) (f : Fibre → Fibre := id) (s : State := b0) : State :=
  me (fun x => f { x with st := .blocked, blk := .header, clause := c, pc := 0x20000, inside := false }) s
/-- Nothing of the fibre's clause is in the buffer; memory holds `l`. -/
def nobuf (l : List Host.Cell) (f : Fibre → Fibre := id) : State :=
  { (slt (fun t => { t with cbuf := [] }) (hdr none f)) with mem := b0.mem ++ l }
/-- A header of one word, a NOP, and the next header; the same with no header after it. -/
def code1 : List Host.Cell := [(0x20003, 0xFE), (0x20007, 0x1A), (0x2000B, 0xFE)]
def code2 : List Host.Cell := [(0x20003, 0xFE), (0x20007, 0x1A)]
/-- How a clause loads. -/
def loads (s : State) : Nat := match s.loadClause 0 0x20000 with
  | .ok _ => 0 | .bad .. => 1 | .fault .. => 2 | .notHeader => 3 | _ => 4
/-- A clause that waits for flag 0. -/
def cw0 : Clause := { clause2 with header := 0xFE002002 }
/-- An asynchronous fault of no flag. -/
def af0 : AsyncFault := { rec' := fr0', flag := none, at' := 0 } where fr0' := faultAt 0x20000 0x50 0 0 0 none
/-- A load of two lanes, of which one is not served. -/
def half : State := hdr (some cw0) id (opd (.load (.vec 9 4 0)) [{ pt0 with lanes := [(0, 0)], st := .done }, { pt0 with lanes := [(1, 4)] }]
  (fun o => { o with split := true, counts := [{ wg := 0, slot := 0, flag := some 0, lanes := 0xFFFF, fid := b0.me.fid }] }))

theorem wit_FibreHardware :
    (let s := slt (fun t => { t with cbuf := [{ asid := 1, clause := clause2, used := 0, dead := false }] }) (hdr none)
     (s.fib r0).st = .blocked ∧ (s.fib r0).blk = .header ∧ (s.fib r0).clause = none ∧ (s.fib r0).dbg ≠ .halted ∧ (s.fib r0).inside = false ∧
     s.isSaved 0 = false ∧ (s.slot 0 0).cbuf.find? (fun e => e.asid == (s.ctx (s.wg 0).ctx).asid && e.clause.addr == (s.fib r0).pc && !e.dead) =
       some { asid := 1, clause := clause2, used := 0, dead := false }) ∧
    ((nobuf []).slot 0 0).cbuf = [] ∧ ((nobuf []).fib r0).via = none ∧ loads (nobuf code1) = 0 ∧ loads (nobuf code2) = 1 ∧ loads (nobuf []) = 3 ∧
    loads (ctxr (fun c => { c with priv := false }) { (nobuf []) with mem := [], cus := [(0, { Cu.empty with leaves := [{ leaf0 with pte := 0xBD }] })] }) = 2 ∧
    ((hdr (some clause2)).fib r0).clause = some clause2 ∧ ((hdr (some clause2)).fib r0).fence = none ∧
    ((hdr (some clause2)).fib r0).freezesAt clause2 = false ∧
    (∀ n, n < 12 → clause2.waitMask.getLsbD n = true → (hdr (some clause2)).flagval 0 0 n ((hdr (some clause2)).fib r0).mask = 0) ∧
    cw0.waitMask.getLsbD 0 = true ∧ half.flagval 0 0 0 (half.fib r0).mask ≠ 0 ∧
    ((hdr (some clause2) fun f => { f with pend := [af0] }).fib r0).freezesAt clause2 = true ∧
    half.freeRecord 0 0 = some 1 ∧ (List.range 12).filter (fun n => cw0.waitMask.getLsbD n && half.ops.any (fun o => o.split)) = [0] ∧
    (half.fib r0).mask &&& ~~~(2 : DWord) ≠ 0 ∧ (half.fib r0).mask &&& ~~~(2 : DWord) ≠ (half.fib r0).mask ∧
    (let s := me (fun f => { f with inside := false })
     s.wgRuns 0 = true ∧ s.nextFibre 0 0 = some r0) := by
  refine ⟨⟨rfl, rfl, rfl, by decide, rfl, rfl, rfl⟩, rfl, rfl, ?_, ?_, ?_, ?_, rfl, rfl, rfl, ?_, ?_, ?_, rfl, rfl, ?_, ?_, ?_, rfl, rfl⟩ <;> decide +kernel

/-- The fibre is blocked, or halted. -/
def halted : State := hdr (some clause2) fun f => { f with dbg := .halted }

theorem wit_ControlCommands :
    b0.portUp = true ∧ b0.hasCtx 2 = false ∧ b0.hasCtx 1 = true ∧ (∀ e, e ∈ b0.ctxs → e.2.asid ≠ 5) ∧
    (b0.recordSave { Ctx.absent with live := true, asid := 5, root := 0x1000, save := 0x100000, size := 0x1000 }).isSome = true ∧
    b0.gridsRemain 1 = true ∧ (clu id { b0 with grids := [] }).gridsRemain 1 = false ∧ (b0.ctx 1).live = true ∧ (b0.queue 3).ctx = none ∧
    ((lq lq0).queue 0).ctx ≠ none ∧ ((lq lq0).queue 0).block = 0 ∧ b0.poison = [] ∧ b0.memOk ∧ inMmio mmioBase = true ∧
    ((hdr none).fib r0).st = .blocked ∧ ((hdr none).fib r0).dbg ≠ .halted ∧ ((hdr none).ctx ((hdr none).wg 0).ctx).dbgctl.getLsbD 1 = false ∧
    (halted.fib r0).dbg = .halted ∧ (halted.fib r0).st ≠ .absent ∧ halted.isSaved 0 = false ∧ r0.slot < (halted.wg 0).nslots ∧
    (let s := lq { lq0 with deviceFed := false }
     (s.queue 0).ctx ≠ none ∧ (s.queue 0).deviceFed = false ∧ (s.queue 0).via = none ∧ (s.queue 0).block = 0 ∧ (s.queue 0).st = .parked) := by
  refine ⟨rfl, rfl, rfl, by decide, ?_, rfl, rfl, rfl, rfl, by decide, rfl, rfl, rfl, rfl, rfl, by decide, rfl, rfl, by decide, rfl, by decide,
    by decide, rfl, rfl, rfl, rfl⟩ <;> decide +kernel

/-- The machine after a power-on, with a flash image. -/
def booting (i : Image) : State := { State.reset with ctl := { State.reset.ctl with flash := some i } }

theorem wit_ResetErrorsAndManagement :
    State.reset.ctl.phase = .boot ∧ State.reset.ctl.flash = none ∧ (∀ i, (booting i).ctl.flash = some i ∧ (booting i).ctl.phase = .boot) ∧
    State.reset.agenda = [] ∧ State.reset.lineOwner 0 = 0 ∧
    (let s := { b0 with owners := [(0, 1)] }
     s.lineOwner 0 = 1 ∧ (s.ctx 1).live = true ∧ s.agenda = []) ∧
    ({ b0 with poison := [(0, 1)] } : State).poisoned 0 = true ∧ b0.memOk ∧
    (∃ x, (cpy cp0 .running fun c => { c with chans := [(0, 1)] }).ctxs = [(1, x)] ∧ x.live = true) ∧
    (cpy cp0 .running fun c => { c with chans := [(0, 1)] }).usesPart 0 .ce 1 = true ∧
    (let s := { b0 with ctl := { b0.ctl with spdmVersion := true, spdmCaps := true, spdmAlgs := true } }
     s.ctl.spdmVersion = true ∧ s.ctl.spdmCaps = true ∧ s.ctl.spdmAlgs = true) ∧
    State.reset.ctl.capw * 1000 * 1 < ([5000000] : List Nat).sum := by
  refine ⟨rfl, rfl, fun i => ⟨rfl, rfl⟩, rfl, rfl, ⟨rfl, rfl, rfl⟩, rfl, rfl, ⟨_, rfl, rfl⟩, rfl, ⟨rfl, rfl, rfl⟩, by decide⟩

theorem wit_DecodeOfEncode : wellFormed (.sbfx 4 1 8 11 1) = true ∧ encode (.sbfx 4 1 8 11 1) ≠ [] ∧ wellFormed (.limm 7) = true ∧
    encode (.limm 7) ≠ [] := by decide

/-- The machine whose agenda names the warp slot, or a hardware event. -/
def agd (t : Turn) : State := { b0 with agenda := [t] }

theorem wit_StepRunsDecodedInstruction :
    (let s := agd (.fibre 0 0)
     let s1 : State := { s with agenda := [], actor := { wg := 0, slot := 0, idx := (s.slot 0 0).cur } }
     s.isSaved 0 = false ∧ (s.wg 0).live = true ∧ s1.issuing = true ∧ s1.breakpoint = none ∧ s1.me.clause = some clause2 ∧
     decode (clause2.words.drop s1.me.idx) = .ok (.nop, 1) ∧ clause2.words.drop s1.me.idx = encode .nop ++ [0x1A000000]) ∧
    (decode [0x7E000000]).isOk = false ∧ (agd (.event .placement)).admits .placement = true := by
  refine ⟨⟨rfl, rfl, rfl, rfl, rfl, rfl, rfl⟩, rfl, rfl⟩

theorem wit_StepKeepsMemoryCanonical : (agd (.fibre 0 0)).memOk ∧ after (step (agd (.fibre 0 0))) (fun _ => true) = true := ⟨rfl, rfl⟩

-- Decoding: for every row of the opcode table a word put together from its encoding there decodes to its instruction -----------

theorem test_decode_control :
    decode [0x000052E7] = .ok (.bra 21223, 1) ∧ decode [0x007D269F] = .ok (.braZ 61 9887, 1) ∧
    decode [0x009AA6A4] = .ok (.braNz 26 42660, 1) ∧ decode [0x00C4128C] = .ok (.braLt 4 4748, 1) ∧
    decode [0x01358930] = .ok (.braGe 53 35120, 1) ∧ decode [0x01415D9E] = .ok (.braAll 1 23966, 1) ∧
    decode [0x01850EDA] = .ok (.braAny 5 3802, 1) ∧ decode [0x02411601] = .ok (.brp 1 1 5633, 1) ∧
    decode [0x041C6B0E] = .ok (.call 28 27406, 1) ∧ decode [0x06053D9D] = .ok (.brx 5 15773, 1) ∧
    decode [0x08060000] = .ok (.ret 6, 1) ∧ decode [0x0A240000] = .ok (.jset 9, 1) ∧ decode [0x0A5C0000] = .ok (.join 7, 1) ∧
    decode [0x0A840000] = .ok (.waitj 1, 1) ∧ decode [0x0C1ACA42] = .ok (.fork 53 37 8 2, 1) ∧
    decode [0x0C200000] = .ok (.fend, 1) ∧ decode [0x0C400000] = .ok (.fyield, 1) ∧ decode [0x0C605200] = .ok (.fsync 41, 1) ∧
    decode [0x0C605201] = .ok (.fsyncM 41, 1) ∧ decode [0x0C804C00] = .ok (.fresume 38, 1) ∧
    decode [0x0C807A21] = .ok (.fresumePc 61 4, 1) ∧ decode [0x0C804A02] = .ok (.fresumeEnd 37, 1) ∧
    decode [0x0CB33400] = .ok (.fstatMask 38 26, 1) ∧ decode [0x0CA27E01] = .ok (.fstatPc 4 63, 1) ∧
    decode [0x0CA78602] = .ok (.fstatInfo 15 3, 1) ∧ decode [0x0E000000] = .ok (.barWg, 1) := by
  refine ⟨?_, ?_, ?_, ?_, ?_, ?_, ?_, ?_, ?_, ?_, ?_, ?_, ?_, ?_, ?_, ?_, ?_, ?_, ?_, ?_, ?_, ?_, ?_, ?_, ?_, ?_⟩ <;> rfl

theorem test_decode_control_2 :
    decode [0x0E200000] = .ok (.barCa, 1) ∧ decode [0x0E400000] = .ok (.barCw, 1) ∧ decode [0x0E600000] = .ok (.barGrid, 1) ∧
    decode [0x1023A400] = .ok (.waitf 2281, 1) ∧ decode [0x1076F400] = .ok (.setf 3517, 1) ∧
    decode [0x10888800] = .ok (.clrf 546, 1) ∧ decode [0x12004A24] = .ok (.trap 18980, 1) ∧
    decode [0x12406B4D] = .ok (.brk 27469, 1) ∧ decode [0x140A8A6B] = .ok (.sysr 10 35435, 1) ∧
    decode [0x14489228] = .ok (.sysw 8 37416, 1) ∧ decode [0x16002920] = .ok (.icinv 20 36, 1) ∧
    decode [0x16206B60] = .ok (.icinvD 53 44, 1) ∧ decode [0x16400000] = .ok (.isync, 1) ∧
    decode [0x1811A000] = .ok (.pand 2 1 5, 1) ∧ decode [0x186E4000] = .ok (.por 5 6 2, 1) ∧
    decode [0x1899A000] = .ok (.pxor 3 1 5, 1) ∧ decode [0x18F10000] = .ok (.pnot 6 1, 1) ∧
    decode [0x19290000] = .ok (.pmov 5 1, 1) ∧ decode [0x19680700] = .ok (.pmovFs 5 14, 1) ∧
    decode [0x19841600] = .ok (.pmovTs 4 44, 1) ∧ decode [0x1A000000] = .ok (.nop, 1) ∧ decode [0x1A200000] = .ok (.exit, 1) := by
  refine ⟨?_, ?_, ?_, ?_, ?_, ?_, ?_, ?_, ?_, ?_, ?_, ?_, ?_, ?_, ?_, ?_, ?_, ?_, ?_, ?_, ?_, ?_⟩ <;> rfl

theorem test_decode_vector :
    decode [0x2115BCF3] = .ok (.vadd 69 55 2 60 3, 1) ∧ decode [0x23DDDC9D] = .ok (.vsub 119 59 2 39 1, 1) ∧
    decode [0x2598C791] = .ok (.vmul 102 24 3 100 1, 1) ∧ decode [0x262E5512] = .ok (.vmulh 11 74 2 68 2, 1) ∧
    decode [0x29C566EA] = .ok (.vfma 113 44 3 58 2, 1) ∧ decode [0x2B3BF243] = .ok (.vfms 78 126 1 16 3, 1) ∧
    decode [0x2CD8B452] = .ok (.vmadi 54 22 2 20 2, 1) ∧ decode [0x2ED8362B] = .ok (.vmin 54 6 3 10 3, 1) ∧
    decode [0x312B34B3] = .ok (.vmax 74 102 2 44 3, 1) ∧ decode [0x32B66D2E] = .ok (.vand 45 77 2 75 2, 1) ∧
    decode [0x342763E6] = .ok (.vor 9 108 1 121 2, 1) ∧ decode [0x36F6D625] = .ok (.vxor 61 90 3 9 1, 1) ∧
    decode [0x397AD54F] = .ok (.vshl 94 90 2 83 3, 1) ∧ decode [0x3B635497] = .ok (.vshr 88 106 2 37 3, 1) ∧
    decode [0x3CCB96B5] = .ok (.vsra 50 114 3 45 1, 1) ∧ decode [0x3FE5E45B] = .ok (.vscale 121 60 2 22 3, 1) ∧
    decode [0x403E0272] = .ok (.vdot4 15 64 1 28 2, 1) ∧ decode [0x4246FACE] = .ok (.vpack 17 95 1 51 2, 1) ∧
    decode [0x45DB842D] = .ok (.vperm 118 112 2 11 1, 1) ∧ decode [0x47123DC9] = .ok (.vcmp 4 4 71 2 114 1, 1) ∧
    decode [0x49A5C6E0] = .ok (.vsel 105 56 3 3 1, 1) ∧ decode [0x4BFD815E] = .ok (.vmovi 127 6 350, 1) ∧
    decode [0x4DC98A00] = .ok (.vmov 114 49 1, 1) ∧ decode [0x4C505A04] = .ok (.vabs 20 11 1, 1) ∧
    decode [0x4C50F608] = .ok (.vneg 20 30 3, 1) ∧ decode [0x4C78140C] = .ok (.vnot 30 2 2, 1) := by
  refine ⟨?_, ?_, ?_, ?_, ?_, ?_, ?_, ?_, ?_, ?_, ?_, ?_, ?_, ?_, ?_, ?_, ?_, ?_, ?_, ?_, ?_, ?_, ?_, ?_, ?_, ?_⟩ <;> rfl

theorem test_decode_vector_2 :
    decode [0x4DAE6210] = .ok (.vclass 107 76 1, 1) ∧ decode [0x4C892A14] = .ok (.vclz 34 37 1, 1) ∧
    decode [0x4C4DB618] = .ok (.vffs 19 54 3, 1) ∧ decode [0x4CC27E1C] = .ok (.vpopc 48 79 3, 1) ∧
    decode [0x4CA7D220] = .ok (.vbrev 41 122 1, 1) ∧ decode [0x4D677024] = .ok (.vtag 89 110, 1) ∧
    decode [0x4D080028] = .ok (.vlaneid 66, 1) ∧ decode [0x4DEA8640] = .ok (.vexp2 122 80 3, 1) ∧
    decode [0x4D5EFA44] = .ok (.vlog2 87 95 1, 1) ∧ decode [0x4CEFA648] = .ok (.vrcp 59 116 3, 1) ∧
    decode [0x4D9E444C] = .ok (.vrsq 103 72 2, 1) ∧ decode [0x4CCDA450] = .ok (.vsin 51 52 2, 1) ∧
    decode [0x4C39F654] = .ok (.vcos 14 62 3, 1) ∧ decode [0x4CD04308] = .ok (.vunpk 52 8 1 2, 1) ∧
    decode [0x4FFCDC60] = .ok (.vcvt 127 27 2 3, 1) ∧ decode [0x503D6620] = .ok (.vretag 15 44 3 1, 1) ∧
    decode [0x5200732A] = .ok (.vreduce 14 1 37 2, 1) ∧ decode [0x55146D41] = .ok (.vscan 69 13 2 40 1, 1) ∧
    decode [0x561E7000] = .ok (.route 1 7 14, 1) ∧ decode [0x56780140] = .ok (.routeS 3 4 10, 1) ∧
    decode [0x56AD0C00] = .ok (.ptld 11 33 2, 1) ∧ decode [0x58270C00] = .ok (.vballot 39 3, 1) ∧
    decode [0x585F2400] = .ok (.vvoteAny 31 1 1, 1) ∧ decode [0x58B79000] = .ok (.vvoteAll 55 4 4, 1) ∧
    decode [0x58DF8C00] = .ok (.vvoteEq 31 4 3, 1) := by
  refine ⟨?_, ?_, ?_, ?_, ?_, ?_, ?_, ?_, ?_, ?_, ?_, ?_, ?_, ?_, ?_, ?_, ?_, ?_, ?_, ?_, ?_, ?_, ?_, ?_, ?_⟩ <;> rfl

theorem test_decode_scalar :
    decode [0x60314380] = .ok (.sadd 6 10 7, 1) ∧ decode [0x6182D801] = .ok (.ssub 48 22 48, 1) ∧
    decode [0x608BFB02] = .ok (.smul 17 31 54, 1) ∧ decode [0x61697103] = .ok (.smulh 45 11 34, 1) ∧
    decode [0x6011DE84] = .ok (.smulhU 2 14 61, 1) ∧ decode [0x61EC4C05] = .ok (.sdiv 61 34 24, 1) ∧
    decode [0x6055B186] = .ok (.sdivU 10 45 35, 1) ∧ decode [0x61D85887] = .ok (.srem 59 2 49, 1) ∧
    decode [0x61129F88] = .ok (.sremU 34 20 63, 1) ∧ decode [0x61570309] = .ok (.sand 42 56 6, 1) ∧
    decode [0x616EE88A] = .ok (.sor 45 55 17, 1) ∧ decode [0x61131D8B] = .ok (.sxor 34 24 59, 1) ∧
    decode [0x605AF90C] = .ok (.sshl 11 23 50, 1) ∧ decode [0x607C718D] = .ok (.sshr 15 35 35, 1) ∧
    decode [0x61942B0E] = .ok (.ssra 50 33 22, 1) ∧ decode [0x6149F40F] = .ok (.smin 41 15 40, 1) ∧
    decode [0x61A67890] = .ok (.sminU 52 51 49, 1) ∧ decode [0x61B9BA11] = .ok (.smax 55 13 52, 1) ∧
    decode [0x6086AD12] = .ok (.smaxU 16 53 26, 1) ∧ decode [0x61801A13] = .ok (.smov 48 52, 1) ∧
    decode [0x6079A014] = .ok (.sclz 15 13, 1) ∧ decode [0x61140015] = .ok (.sffs 34 32, 1) ∧
    decode [0x60BDE016] = .ok (.spopc 23 47, 1) ∧ decode [0x60105997] = .ok (.ssel 2 2 51, 1) ∧
    decode [0x6093E8A4] = .ok (.scmp 18 31 17 4, 1) ∧ decode [0x636CFE9C] = .ok (.saddImm 45 39 7836, 1) := by
  refine ⟨?_, ?_, ?_, ?_, ?_, ?_, ?_, ?_, ?_, ?_, ?_, ?_, ?_, ?_, ?_, ?_, ?_, ?_, ?_, ?_, ?_, ?_, ?_, ?_, ?_, ?_⟩ <;> rfl

theorem test_decode_scalar_2 :
    decode [0x64BBB9E0] = .ok (.sandImm 23 29 6624, 1) ∧ decode [0x67E5FF9F] = .ok (.sorImm 60 47 8095, 1) ∧
    decode [0x68BFDF30] = .ok (.sxorImm 23 62 7984, 1) ∧ decode [0x6AC0C00F] = .ok (.sshlImm 24 6 15, 1) ∧
    decode [0x6C39E01F] = .ok (.sshrImm 7 15 31, 1) ∧ decode [0x6E6AC00E] = .ok (.ssraImm 13 22 14, 1) ∧
    decode [0x70F813F9] = .ok (.sli 31 5113, 1) ∧ decode [0x73D00000] = .ok (.sliHi 58, 1) ∧
    decode [0x7546C0BE] = .ok (.smadd 40 54 1 31, 1) ∧ decode [0x77DD4BE9] = .ok (.sbfx 59 42 23 52 1, 1) ∧
    decode [0x79B56476] = .ok (.sbfi 54 43 8 59, 1) := by
  refine ⟨?_, ?_, ?_, ?_, ?_, ?_, ?_, ?_, ?_, ?_, ?_⟩ <;> rfl

theorem test_decode_memory :
    decode [0x80CB2DDB] = .ok (.ld32 50 101 46 13 1, 1) ∧ decode [0x82FB918F] = .ok (.ld64 62 114 12 7 1, 1) ∧
    decode [0x84333FB9] = .ok (.ld128 12 103 61 12 1, 1) ∧ decode [0x86F1A603] = .ok (.ldN 60 52 48 1 1, 1) ∧
    decode [0x88588841] = .ok (.st32 22 17 2 1, 1) ∧ decode [0x8B33A3C1] = .ok (.st64 76 116 30 1, 1) ∧
    decode [0x8D3F54E1] = .ok (.st128 79 106 39 1, 1) ∧ decode [0x8F57C2E3] = .ok (.stN 85 120 23 1 1, 1) ∧
    decode [0x90102F87] = .ok (.lds 2 1 7 1 135, 1) ∧ decode [0x918793FD] = .ok (.sts 48 60 1 1 253, 1) ∧
    decode [0x93C001BD] = .ok (.ldb 112 13 14 1, 1) ∧ decode [0x94002222] = .ok (.pref 4 17 1, 1) ∧
    decode [0x96970280] = .ok (.fence 75 129 2, 1) ∧ decode [0x998CCD80] = .ok (.waitc 49 38 6 1 1, 1) ∧
    decode [0x9BB12200] = .ok (.decantBind 54 9 4, 1) ∧ decode [0x9BDE0001] = .ok (.decantUnbind 59 48, 1) ∧
    decode [0x9CB80741] = .ok (.ldw 46 58 1, 1) ∧ decode [0x9D5404C3] = .ok (.stw 85 38 1, 1) ∧
    decode [0x9FABB727] = .ok (.clst 106 118 57 3 1, 1) ∧ decode [0xA114A4D3] = .ok (.amo 69 20 9 5 1 1, 1) ∧
    decode [0xA390C51F] = .ok (.amor 100 24 10 1 7 1, 1) ∧ decode [0xA45C9C5D] = .ok (.cas 23 19 8 5 6 1, 1) ∧
    decode [0xA69021DF] = .ok (.acust 72 8 3 11 3 1, 1) ∧ decode [0xA7DC8700] = .ok (.asinst 13 50 7, 1) ∧
    decode [0xA8073200] = .ok (.tlbinvVaDev 57 36, 1) ∧ decode [0xA8008801] = .ok (.tlbinvVaSys 4 16, 1) := by
  refine ⟨?_, ?_, ?_, ?_, ?_, ?_, ?_, ?_, ?_, ?_, ?_, ?_, ?_, ?_, ?_, ?_, ?_, ?_, ?_, ?_, ?_, ?_, ?_, ?_, ?_, ?_⟩ <;> rfl

theorem test_decode_memory_2 :
    decode [0xA801A002] = .ok (.tlbinvAsidDev 13, 1) ∧ decode [0xA8024003] = .ok (.tlbinvAsidSys 18, 1) ∧
    decode [0xA8000004] = .ok (.tlbinvAllDev, 1) ∧ decode [0xA8000005] = .ok (.tlbinvAllSys, 1) ∧
    decode [0xA8000008] = .ok (.tlbsyncDev, 1) ∧ decode [0xA8000009] = .ok (.tlbsyncSys, 1) ∧
    decode [0xAA1E4001] = .ok (.atrans 3 50 1, 1) := by
  refine ⟨?_, ?_, ?_, ?_, ?_, ?_, ?_⟩ <;> rfl

theorem test_decode_engines :
    decode [0xAC021106] = .ok (.mbind 33 4 3, 1) ∧ decode [0xAE000000] = .ok (.mready, 1) ∧
    decode [0xB000200F] = .ok (.msign 2 7 1, 1) ∧ decode [0xB2E55140] = .ok (.mma 57 21 5, 1) ∧
    decode [0xB5F61140] = .ok (.mtile 125 33 5, 1) ∧ decode [0xB708008C] = .ok (.mepi 66 2 6, 1) ∧
    decode [0xB8012741] = .ok (.splitEnc 18 29 1, 1) ∧ decode [0xB8021F43] = .ok (.splitDec 33 61 1, 1) ∧
    decode [0xBA1A20C0] = .ok (.mstat 6 34 3, 1) ∧ decode [0xBC000000] = .ok (.mrfence, 1) ∧
    decode [0xC003C901] = .ok (.spgRow 60 36 1, 1) ∧ decode [0xC2036741] = .ok (.spgFlush 54 29 1, 1) ∧
    decode [0xC401B200] = .ok (.rackHint 27 8, 1) ∧ decode [0xC401A742] = .ok (.rackInv 26 29, 1) ∧
    decode [0xC8545AC1] = .ok (.cp 21 5 43 1, 1) ∧ decode [0xC8705383] = .ok (.cpG 28 5 14 1, 1) ∧
    decode [0xCA033201] = .ok (.cpT 51 8 1, 1) ∧ decode [0xCCF6EA81] = .ok (.cpMc 61 46 42 1, 1) ∧
    decode [0xCE051000] = .ok (.cpStat 1 17, 1) := by
  refine ⟨?_, ?_, ?_, ?_, ?_, ?_, ?_, ?_, ?_, ?_, ?_, ?_, ?_, ?_, ?_, ?_, ?_, ?_, ?_⟩ <;> rfl

theorem test_decode_fabric_and_work :
    decode [0xD0E49F81] = .ok (.put 57 9 62 1, 1) ∧ decode [0xD03F0F43] = .ok (.putG 15 48 61 1, 1) ∧
    decode [0xD26B9801] = .ok (.get 26 57 32 1, 1) ∧ decode [0xD2AF63C3] = .ok (.getG 43 54 15 1, 1) ∧
    decode [0xD4B9C841] = .ok (.tsend 46 28 33 1, 1) ∧ decode [0xD60166C0] = .ok (.cntRd 22 27, 1) ∧
    decode [0xD6357542] = .ok (.cntSet 13 23 21, 1) ∧ decode [0xD6006BC4] = .ok (.cntAdd 6 47, 1) ∧
    decode [0xD6018091] = .ok (.cntwait 24 2 1, 1) ∧ decode [0xD8024780] = .ok (.qpost 36 30, 1) ∧
    decode [0xDA76E081] = .ok (.msend 29 46 2 1, 1) ∧ decode [0xDC5A2A00] = .ok (.qpop 22 34 40, 1) ∧
    decode [0xDE013840] = .ok (.peerStat 19 33, 1) ∧ decode [0xDE000F82] = .ok (.peerClr 62, 1) ∧
    decode [0xE0048EC1] = .ok (.spawn 1 8 59 1, 1) ∧ decode [0xE3F41001] = .ok (.spawnv 125 1 1, 1) ∧
    decode [0xE4000000] = .ok (.itemdone, 1) ∧ decode [0xE6011481] = .ok (.launch 17 18 1, 1) ∧
    decode [0xE7D32002] = .ok (.preemptPt 116 50, 1) ∧ decode [0xE80D2000] = .ok (.evread 3 18, 1) ∧
    decode [0xE8349002] = .ok (.evctl 13 9, 1) ∧ decode [0xEA035000] = .ok (.tmark 53, 1) ∧
    decode [0xFB3EE200] = .ok (.mod 4 3 7 3 4 2, 1) := by
  refine ⟨?_, ?_, ?_, ?_, ?_, ?_, ?_, ?_, ?_, ?_, ?_, ?_, ?_, ?_, ?_, ?_, ?_, ?_, ?_, ?_, ?_, ?_, ?_⟩ <;> rfl

-- Words that the spec writes out beside an instruction ---------------------------------------------------------------------------

theorem test_words_control :
    decode [0x0083FFF8] = .ok (.braNz 3 0xFFF8, 1) ∧ decode [0x083C0000] = .ok (.ret 60, 1) ∧ decode [0x0A080000] = .ok (.jset 2, 1) ∧
    decode [0x0A480000] = .ok (.join 2, 1) ∧ decode [0x0A880000] = .ok (.waitj 2, 1) ∧ decode [0x0C028C3A] = .ok (.fork 5 6 7 2, 1) ∧
    decode [0x0C600601] = .ok (.fsyncM 3, 1) ∧ decode [0x0C800200] = .ok (.fresume 1, 1) ∧
    decode [0x0CA20200] = .ok (.fstatMask 4 1, 1) ∧ decode [0x14010800] = .ok (.sysr 1 0x0800, 1) ∧
    decode [0x10808000] = .ok (.clrf 0x020, 1) ∧ decode [0x58060400] = .ok (.vballot 6 1, 1) ∧
    decode [0x58826400] = .ok (.vvoteAll 2 3 1, 1) := by
  refine ⟨?_, ?_, ?_, ?_, ?_, ?_, ?_, ?_, ?_, ?_, ?_, ?_, ?_⟩ <;> rfl

theorem test_words_vector :
    decode [0x4654000C] = .ok (.vcmp 1 5 0 0 3 0, 1) ∧ decode [0x440C2014] = .ok (.vperm 3 4 0 5 0, 1) ∧
    decode [0x4A044003] = .ok (.vmovi 1 1 3, 1) ∧ decode [0x4C18390C] = .ok (.vunpk 6 7 0 3, 1) ∧
    decode [0x4C000028] = .ok (.vlaneid 0, 1) ∧ decode [0x4C041048] = .ok (.vrcp 1 2 0, 1) ∧
    decode [0x4E281080] = .ok (.vcvt 10 2 0 4, 1) ∧ decode [0x502C1040] = .ok (.vretag 11 2 0 2, 1) ∧
    decode [0x52004028] = .ok (.vreduce 8 0 5 0, 1) ∧ decode [0x54244029] = .ok (.vscan 9 8 0 5 1, 1) ∧
    decode [0x48102CA0] = .ok (.vsel 4 5 2 2 1, 1) ∧ decode [0x40306838] = .ok (.vdot4 12 13 0 14 0, 1) ∧
    decode [0x56100800] = .ok (.route 1 0 1, 1) ∧ decode [0x56281800] = .ok (.route 2 4 3, 1) ∧
    decode [0x568C2800] = .ok (.ptld 3 5 0, 1) := by
  refine ⟨?_, ?_, ?_, ?_, ?_, ?_, ?_, ?_, ?_, ?_, ?_, ?_, ?_, ?_, ?_⟩ <;> rfl

theorem test_words_memory :
    decode [0x84100946] = .ok (.ld128 4 1 10 3 0, 1) ∧ decode [0x86080026] = .ok (.ldN 2 0 1 3 0, 1) ∧
    decode [0x90182C08] = .ok (.lds 3 1 6 0 8, 1) ∧ decode [0x901834FC] = .ok (.sts 3 1 2 0 0xFC, 1) ∧
    decode [0x9C180060] = .ok (.ldw 6 3 0, 1) ∧ decode [0x9C180062] = .ok (.stw 6 3 0, 1) ∧ decode [0x94000942] = .ok (.pref 1 10 1, 1) ∧
    decode [0x8C1008E0] = .ok (.st128 4 1 7 0, 1) ∧ decode [0x8E080020] = .ok (.stN 2 0 1 0 0, 1) ∧
    decode [0x97040580] = .ok (.fence 0x82 0x02 6, 1) ∧ decode [0x96040340] = .ok (.fence 2 1 5, 1) ∧
    decode [0x9820A000] = .ok (.waitc 4 5 0 0 0, 1) ∧ decode [0x9820A900] = .ok (.waitc 4 5 4 1 0, 1) ∧
    decode [0x9A188280] = .ok (.decantBind 3 4 5, 1) ∧ decode [0x9A188001] = .ok (.decantUnbind 3 4, 1) ∧
    decode [0x9E201920] = .ok (.clst 8 3 9 0 0, 1) ∧ decode [0xA04C1D00] = .ok (.amo 19 3 10 0 0 0, 1) ∧
    decode [0xA0488340] = .ok (.amo 18 16 6 4 0 0, 1) ∧ decode [0xA2080A04] = .ok (.amor 2 1 4 0 2 0, 1) ∧
    decode [0xA42011B2] = .ok (.cas 8 2 3 3 1 0, 1) ∧ decode [0xA60C051C] = .ok (.acust 6 1 2 3 2 0, 1) ∧
    decode [0xA7310500] = .ok (.asinst 3 4 5, 1) ∧ decode [0xA8004003] = .ok (.tlbinvAsidSys 2, 1) ∧
    decode [0xA8008280] = .ok (.tlbinvVaDev 4 5, 1) ∧ decode [0xA8000009] = .ok (.tlbsyncSys, 1) := by
  refine ⟨?_, ?_, ?_, ?_, ?_, ?_, ?_, ?_, ?_, ?_, ?_, ?_, ?_, ?_, ?_, ?_, ?_, ?_, ?_, ?_, ?_, ?_, ?_, ?_, ?_⟩ <;> rfl

theorem test_words_engines :
    decode [0xAC015002] = .ok (.mbind 21 0 1, 1) ∧ decode [0xB0017000] = .ok (.msign 23 0 0, 1) ∧
    decode [0xB5018080] = .ok (.mtile 64 24 2, 1) ∧ decode [0xB2018040] = .ok (.mma 0 24 1, 1) ∧
    decode [0xB7000042] = .ok (.mepi 64 1 1, 1) ∧ decode [0xBA085000] = .ok (.mstat 2 5 0, 1) ∧
    decode [0xB800C343] = .ok (.splitDec 12 13 1, 1) ∧ decode [0xC000A2C0] = .ok (.spgRow 10 11 0, 1) ∧
    decode [0xC200C340] = .ok (.spgFlush 12 13 0, 1) ∧ decode [0xC4004140] = .ok (.rackHint 4 5, 1) ∧
    decode [0xC8184140] = .ok (.cp 6 4 5 0, 1) ∧ decode [0xC8188102] = .ok (.cpG 6 8 4 0, 1) ∧ decode [0xCC30A2C0] = .ok (.cpMc 12 10 11 0, 1) ∧
    decode [0xD2184142] = .ok (.getG 6 4 5 0, 1) ∧ decode [0xD4309280] = .ok (.tsend 12 9 10 0, 1) ∧
    decode [0xD61C6142] = .ok (.cntSet 7 6 5, 1) ∧ decode [0xD6006144] = .ok (.cntAdd 6 5, 1) ∧ decode [0xD6003140] = .ok (.cntRd 3 5, 1) ∧
    decode [0xD8003100] = .ok (.qpost 3 4, 1) ∧ decode [0xDA183100] = .ok (.msend 6 3 4 0, 1) ∧ decode [0xDC1C50C0] = .ok (.qpop 7 5 3, 1) ∧
    decode [0xE0084140] = .ok (.spawn 2 4 5 0, 1) ∧ decode [0xE2201000] = .ok (.spawnv 8 1 0, 1) ∧ decode [0xE60061C0] = .ok (.launch 6 7 0, 1) ∧
    decode [0xE63C4002] = .ok (.preemptPt 15 4, 1) ∧ decode [0xE80C6002] = .ok (.evctl 3 6, 1) ∧ decode [0xFA014000] = .ok (.mod 0 0 0 5 0 0, 1) := by
  refine ⟨?_, ?_, ?_, ?_, ?_, ?_, ?_, ?_, ?_, ?_, ?_, ?_, ?_, ?_, ?_, ?_, ?_, ?_, ?_, ?_, ?_, ?_, ?_, ?_, ?_, ?_, ?_⟩ <;> rfl

/-- R165's remark: the three words of an addition with a `LIMM`. -/
theorem test_words_limm : decode [0xF8000000, 0x000186A0, 0x62186000] = .ok (.limm 0x186A0, 2) ∧
    decode [0x62186000] = .ok (.saddImm 3 3 0, 1) := ⟨rfl, rfl⟩

theorem test_words_refused : (decode [0x7E000000]).isOk = false ∧ (decode [0x60000018]).isOk = false ∧ (decode [0x60002013]).isOk = false ∧
    (decode [0x083C0001]).isOk = false ∧ (decode [0x01C00000]).isOk = false ∧ (decode [0x47E0000C]).isOk = false ∧
    (decode [0xF8000000]).isOk = false ∧ (decode []).isOk = false := ⟨rfl, rfl, rfl, rfl, rfl, rfl, rfl, rfl⟩

-- Ill-formed terms, one for each check ----------------------------------------------------------------------------------------------

theorem test_ill_formed : [wellFormed (.waitf 0), wellFormed (.setf 0), wellFormed (.clrf 0), wellFormed (.sysr 1 6), wellFormed (.sysw 1 0x0900),
    wellFormed (.vmovi 1 0 0), wellFormed (.vmovi 1 14 0), wellFormed (.vunpk 1 2 0 10), wellFormed (.vcvt 1 2 0 0), wellFormed (.vcvt 1 2 0 14),
    wellFormed (.vretag 1 2 0 0), wellFormed (.vreduce 1 0 2 6), wellFormed (.vscan 1 2 0 3 5), wellFormed (.route 0 0 0), wellFormed (.route 1 5 0),
    wellFormed (.route 1 4 16), wellFormed (.routeS 0 0 1), wellFormed (.routeS 1 5 1), wellFormed (.scmp 1 2 3 10), wellFormed (.sbfx 1 2 60 4 0),
    wellFormed (.sbfi 1 2 63 1), wellFormed (.ld32 1 2 3 0 0), wellFormed (.ld64 1 2 3 1 0), wellFormed (.ld64 2 2 3 15 0), wellFormed (.ld128 2 2 3 1 0),
    wellFormed (.ldN 1 2 3 6 0), wellFormed (.st64 1 2 3 0), wellFormed (.st128 2 2 3 0), wellFormed (.lds 1 2 7 0 0), wellFormed (.ldb 1 2 15 0),
    wellFormed (.fence 0 1 1), wellFormed (.fence 1 0 1), wellFormed (.fence 1 1 0), wellFormed (.fence 1 1 7), wellFormed (.waitc 1 2 8 0 0),
    wellFormed (.clst 1 2 3 3 0), wellFormed (.clst 2 2 3 2 0), wellFormed (.amo 1 2 3 7 0 0), wellFormed (.amo 1 2 3 0 5 0), wellFormed (.amor 1 2 3 6 0 0),
    wellFormed (.amor 1 2 3 0 1 0), wellFormed (.cas 1 2 3 0 0 0), wellFormed (.cas 2 2 3 5 0 0), wellFormed (.cas 2 2 3 0 2 0), wellFormed (.acust 1 2 3 0 0 0),
    wellFormed (.atrans 1 2 3), wellFormed (.mbind 1 2 3), wellFormed (.mepi 1 2 6), wellFormed (.mstat 3 1 2), wellFormed (.cpG 1 2 3 0),
    wellFormed (.putG 1 2 3 0), wellFormed (.getG 1 2 3 0), wellFormed (.tsend 1 2 3 0), wellFormed (.msend 1 2 3 0), wellFormed (.cpStat 3 1),
    wellFormed (.spawnv 2 1 0), wellFormed (.mod 5 0 0 0 0 0), wellFormed (.mod 0 3 0 0 0 0), wellFormed (.mod 0 0 5 0 0 0), wellFormed (.mod 0 0 0 7 0 0),
    wellFormed (.mod 0 0 0 0 7 0)] = List.replicate 61 false := rfl

/-- An ill-formed instruction raises illegal instruction when it issues (R47). -/
theorem test_ill_formed_faults : after (exec (.scmp 3 1 2 10) b0) (fun t => t.me.st == .frozen && (t.me.fault.map (·.cause)) == some 0x01) = true := rfl

-- Single steps ----------------------------------------------------------------------------------------------------------------------

/-- The scalar register after an instruction. -/
def sOf (n : Nat) (i : Instr) (s : State) : Option DWord := match exec i s with | .next t => some (t.sreg n) | _ => none
/-- The bits of a predicate after an instruction. -/
def pOf (n : Nat) (i : Instr) (s : State) : Option DWord := match exec i s with | .next t => some (t.preg n) | _ => none
/-- Tag and one lane of a vector register after an instruction. -/
def vOf (n l : Nat) (i : Instr) (s : State) : Option (Tag × Word) :=
  match exec i s with | .next t => some ((t.vreg 0 0 n).tag, (t.vreg 0 0 n).lane l) | _ => none
/-- Two scalar operands. -/
def ab (a b : DWord) : State := sr [(1, a), (2, b), (3, 0x1234567800000000), (4, 4)]

theorem test_sadd_wraps : sOf 3 (.sadd 3 1 2) (ab 0xFFFFFFFFFFFFFFFF 1) = some 0 := rfl
theorem test_sadd_limm : sOf 3 (.sadd 3 1 0) (me (fun f => { f with hLimm := some 0xFFFFFFFF }) (ab 5 0)) = some 4 := rfl
theorem test_ssub_order : sOf 1 (.ssub 1 1 2) (ab 0 1) = some 0xFFFFFFFFFFFFFFFF := rfl
theorem test_smul_low : sOf 3 (.smul 3 1 2) (ab 0x8000000000000001 2) = some 2 := rfl
theorem test_smulh_signed : sOf 3 (.smulh 3 1 2) (ab 0xFFFFFFFFFFFFFFFF 1) = some 0xFFFFFFFFFFFFFFFF := rfl
theorem test_smulh_unsigned : sOf 3 (.smulhU 3 1 2) (ab 0xFFFFFFFFFFFFFFFF 1) = some 0 := rfl
theorem test_sdiv_rounds_to_zero : sOf 3 (.sdiv 3 1 2) (ab 0xFFFFFFFFFFFFFFF9 2) = some 0xFFFFFFFFFFFFFFFD := rfl
theorem test_sdiv_unsigned : sOf 3 (.sdivU 3 1 2) (ab 0xFFFFFFFFFFFFFFF9 2) = some 0x7FFFFFFFFFFFFFFC := rfl
theorem test_srem_sign : sOf 3 (.srem 3 1 2) (ab 0xFFFFFFFFFFFFFFF9 2) = some 0xFFFFFFFFFFFFFFFF := rfl
theorem test_srem_unsigned : sOf 3 (.sremU 3 1 2) (ab 0xFFFFFFFFFFFFFFF9 4) = some 1 := rfl
theorem test_logic : sOf 3 (.sand 3 1 2) (ab 6 3) = some 2 ∧ sOf 3 (.sor 3 1 2) (ab 6 3) = some 7 ∧ sOf 3 (.sxor 3 1 2) (ab 6 3) = some 5 := ⟨rfl, rfl, rfl⟩
theorem test_shifts_take_six_bits : sOf 3 (.sshl 3 1 2) (ab 3 65) = some 6 ∧ sOf 3 (.sshr 3 1 2) (ab 0xFFFFFFFFFFFFFFF8 65) = some 0x7FFFFFFFFFFFFFFC ∧
    sOf 3 (.ssra 3 1 2) (ab 0xFFFFFFFFFFFFFFF8 65) = some 0xFFFFFFFFFFFFFFFC := ⟨rfl, rfl, rfl⟩
theorem test_smin_smax : sOf 3 (.smin 3 1 2) (ab 0xFFFFFFFFFFFFFFFF 1) = some 0xFFFFFFFFFFFFFFFF ∧ sOf 3 (.sminU 3 1 2) (ab 0xFFFFFFFFFFFFFFFF 1) = some 1 ∧
    sOf 3 (.smax 3 1 2) (ab 0xFFFFFFFFFFFFFFFF 1) = some 1 ∧ sOf 3 (.smaxU 3 1 2) (ab 0xFFFFFFFFFFFFFFFF 1) = some 0xFFFFFFFFFFFFFFFF := ⟨rfl, rfl, rfl, rfl⟩
theorem test_counts : sOf 3 (.sclz 3 1) (ab 1 0) = some 63 ∧ sOf 3 (.sclz 3 2) (ab 1 0) = some 64 ∧ sOf 3 (.sffs 3 1) (ab 8 0) = some 4 ∧
    sOf 3 (.sffs 3 2) (ab 8 0) = some 0 ∧ sOf 3 (.spopc 3 1) (ab 0xFF0F 0) = some 12 := by
  refine ⟨?_, ?_, ?_, ?_, ?_⟩ <;> decide +kernel
theorem test_ssel_smov : sOf 3 (.ssel 3 1 2) (ab 8 9) = some 8 ∧ sOf 5 (.ssel 5 1 2) (ab 8 9) = some 9 ∧ sOf 3 (.smov 3 2) (ab 8 9) = some 9 := ⟨rfl, rfl, rfl⟩
theorem test_scmp_signs : sOf 3 (.scmp 3 1 2 2) (ab 0xFFFFFFFFFFFFFFFF 1) = some 1 ∧ sOf 3 (.scmp 3 1 2 6) (ab 0xFFFFFFFFFFFFFFFF 1) = some 0 := ⟨rfl, rfl⟩
theorem test_immediates : sOf 3 (.saddImm 3 1 0x1FFF) (ab 5 0) = some 4 ∧ sOf 3 (.sandImm 3 1 0x1FFE) (ab 7 0) = some 6 ∧
    sOf 3 (.sshlImm 3 1 63) (ab 3 0) = some 0x8000000000000000 ∧ sOf 3 (.sli 3 0x1FFF) (ab 0 0) = some 0xFFFFFFFFFFFFFFFF := ⟨rfl, rfl, rfl, rfl⟩
theorem test_sli_hi : sOf 1 (.sliHi 1) (me (fun f => { f with hLimm := some 0x80000001 }) (ab 0xFFFFFFFF77777777 0)) = some 0x8000000177777777 := rfl
theorem test_smadd : sOf 3 (.smadd 3 1 2 4) (ab 2 3) = some 10 := rfl
theorem test_sbfx_sign : sOf 3 (.sbfx 3 1 4 3 1) (ab 0x80 0) = some 0xFFFFFFFFFFFFFFF8 ∧ sOf 3 (.sbfx 3 1 4 3 0) (ab 0x80 0) = some 8 := ⟨rfl, rfl⟩
theorem test_sbfi_keeps : sOf 2 (.sbfi 2 1 4 3) (ab 0xFA 0xFFFF) = some 0xFFAF := rfl

theorem test_predicates : pOf 1 (.pnot 1 2) (pr 2 0xF0) = some 0xFF0F ∧ pOf 1 (.pmov 1 2) (pr 2 0xF0) = some 0xF0 ∧
    pOf 1 (.pmovFs 1 2) (sr [(2, 0x123456)]) = some 0x3456 ∧ sOf 3 (.pmovTs 2 3) (pr 2 0xF0) = some 0xF0 := ⟨rfl, rfl, rfl, rfl⟩
theorem test_votes : sOf 3 (.vvoteAny 3 1 2) (pr 2 0x10) = some 1 ∧ sOf 3 (.vvoteAll 3 1 2) (pr 2 0x10) = some 0 ∧
    sOf 3 (.vvoteEq 3 1 2) (pr 2 0) = some 1 ∧ sOf 3 (.vballot 3 2) (me (fun f => { f with mask := 0x18 }) (pr 2 0x30)) = some 0x10 := ⟨rfl, rfl, rfl, rfl⟩

/-- The fibre's second half of lanes is not active. -/
def low (s : State := b0) : State := me (fun f => { f with mask := 0xFF }) s

theorem test_vsub_order : vOf 10 0 (.vsub 10 0 0 1 0) low = some (1, 0xFFFFFFF9) ∧ vOf 1 8 (.vsub 1 0 0 1 0) low = some (1, 7) := by decide +kernel
theorem test_vadd_f32 : vOf 9 0 (.vadd 9 4 0 4 0) b0 = some (3, 0x40000000) := by decide +kernel
theorem test_vfma_fused : vOf 4 0 (.vfma 4 4 0 4 0) b0 = some (3, 0x40000000) := by decide +kernel
theorem test_vmul_wraps : vOf 9 0 (.vmul 9 0 0 1 0) (slt fun t => { t with v := [(0, reg 1 0x80000000), (1, reg 1 3)] }) = some (1, 0x80000000) := by decide +kernel
theorem test_vshl_by_width : vOf 9 0 (.vshl 9 1 0 1 0) b0 = some (1, 0x380) := by decide +kernel
theorem test_vcvt_to_float : vOf 9 0 (.vcvt 9 1 0 3) b0 = some (3, 0x40E00000) := by decide +kernel
/-- R198's remark: 5.0 is halfway between 4 and 6 of E2M1; RNE takes 4, RNA takes 6. -/
theorem test_vcvt_ties : vOf 9 0 (.vcvt 9 1 0 10) (slt fun t => { t with v := [(1, reg 3 0x40A00000)] }) = some (10, 0x00000006) ∧
    vOf 9 0 (.vcvt 9 1 0 10) (me (fun f => { f with hMod := some 0x01000000 }) (slt fun t => { t with v := [(1, reg 3 0x40A00000)] })) =
      some (10, 0x00000007) := by decide +kernel
theorem test_vlaneid : vOf 9 5 (.vlaneid 9) b0 = some (1, 5) := by decide +kernel
theorem test_vmovi_sign : vOf 9 0 (.vmovi 9 1 0x1FF) b0 = some (1, 0xFFFFFFFF) := by decide +kernel
theorem test_vperm : vOf 9 3 (.vperm 9 8 0 1 0) (slt fun t => { t with v := [(1, reg 1 7), (8, { tag := 2, lanes := (List.range 16).map (BitVec.ofNat 32) })] }) =
    some (2, 7) := by decide +kernel
theorem test_vdot4 : vOf 10 0 (.vdot4 10 8 0 8 0) (slt fun t => { t with v := [(8, reg 0xD 0x01FF0203), (10, reg 1 100)] }) = some (1, 115) := by decide +kernel
theorem test_vcmp_keeps_inactive : pOf 1 (.vcmp 1 2 0 0 1 0) (low (pr 1 0xFF00)) = some 0xFFFF := by decide +kernel
theorem test_vreduce : sOf 3 (.vreduce 1 0 3 0) low = some 56 := by decide +kernel
theorem test_vscan_exclusive : vOf 9 2 (.vscan 9 1 0 3 1) b0 = some (1, 14) ∧ sOf 3 (.vscan 9 1 0 3 1) b0 = some 112 := by decide +kernel
theorem test_route_rotates : vOf 9 15 (.vmov 9 8 1) (me (fun f => { f with q := [(1, { kind := 0, param := 1 })] })
    (slt fun t => { t with v := [(8, { tag := 2, lanes := (List.range 16).map (BitVec.ofNat 32) })] })) = some (2, 0) := by decide +kernel

theorem test_branch_target : after (exec (.braNz 1 0xFFF8) (sr [(1, 1)])) (fun t => t.me.pc == 0x1FFE4 && t.me.clause == none) = true := rfl
theorem test_branch_not_taken : after (exec (.braNz 1 0xFFF8) b0) (fun t => t.me.pc == 0x2000C) = true := rfl
theorem test_call_links : after (exec (.call 60 4) b0) (fun t => t.me.pc == 0x20014 && t.sreg 60 == 0x20008) = true := rfl
theorem test_brp_splits : after (exec (.brp 0 1 8) (pr 1 0x00F0)) (fun t => t.me.mask == 0xFF0F &&
    (t.fib { r0 with idx := 1 }).mask == 0x00F0 && (t.fib { r0 with idx := 1 }).pc == 0x20024 && t.me.pc == 0x2000C) = true := rfl
theorem test_trap_freezes : after (exec (.trap 0x55) b0) (fun t => t.me.st == .frozen && (t.me.fault.map (fun f => (f.cause, f.detail))) ==
    some (0x0A, 0x55)) = true := rfl
theorem test_privilege : after (exec .tlbsyncDev plain) (fun t => t.me.st == .frozen && (t.me.fault.map (·.cause)) == some 0x04) = true := rfl
theorem test_sysr_warp : sOf 3 (.sysr 3 0x0800) { b0 with fe := { b0.fe with devid := 0x1234 } } = some 0x1234 := rfl
theorem test_fend_blocks : after (exec .fend b0) (fun t => t.me.st == .blocked && t.me.blk == .ending) = true := rfl
theorem test_setf_counts : after (exec (.setf 4) b0) (fun t => t.flagval 0 0 2 0xFFFF == 1 && t.flagval 0 0 1 0xFFFF == 0) = true := rfl

theorem test_load_tags_at_issue : vOf 9 0 (.ld32 9 0 1 3 0) b0 = some (3, 0) := by decide +kernel
theorem test_load_misaligned : after (exec (.ld32 9 0 1 3 0) (sr [(1, 2)])) (fun t => (t.me.fault.map (·.cause)) == some 0x22) = true := by decide +kernel
theorem test_store_reaches_memory : after (exec (.writeThrough 1 0) (opd .store [pw0])) (fun t => t.hbm 0x10000 == 0xAA && t.hbm 0x1001F == 0xBB &&
    t.hbm 0x10001 == 0) = true := by decide +kernel
theorem test_amo_adds : after (exec (.atomicServiceSlot 0) { (opd (.atomic { op := 0, wide := false, tag := 1, tagHi := 0 } true 9) [pt0]
    (fun o => { o with argv := [(0, [5])] })) with ase := [(0, .slot 0 0, .op 1 0)], mem := b0.mem ++ [(0x10000, 0xFE)] })
    (fun t => t.hbm 0x10000 == 3 && t.hbm 0x10001 == 1) = true := by decide +kernel
theorem test_cas_tag_checked : after (exec (.cas 2 0 1 0 0 0) b0) (fun t => (t.me.fault.map (·.cause)) == some 0x10) = true := by decide +kernel

theorem test_counter_saturates : after (exec (.cntAdd 1 2) (sr [(1, 0x100000000)])) (fun t => (t.counter 0 0).value == 0xFFFFFFFF) = true := rfl
theorem test_mbind : after (exec (.mbind 1 2 1) (sr [(1, 0x40)])) (fun t => (t.gang 0 2).bindB == 0x40 && (t.gang 0 2).bindA == 0) = true := rfl
theorem test_mbind_misaligned : after (exec (.mbind 1 2 1) (sr [(1, 0x20)])) (fun t => t.me.st == .frozen) = true := rfl
theorem test_copy_unit : after (exec (.copyComplete 1) { (cpy cp0 .running) with mem := b0.mem ++ [(0x10005, 0x77)] }) (fun t => t.hbm 0x20005 == 0x77) = true := by
  decide +kernel
theorem test_read_packet : after (exec (.readPacket (pk 1 0)) { fab with locals := (List.range 64).map (fun k => (k, { LocalPort.down with up := true })) })
    (fun t => t.out.any (fun m => match m with
      | .frame _ q _ _ => q.ty == 0x10 && q.dst == 7 && q.src == 0 && q.payload == List.replicate 32 0 | _ => false)) = true := by decide +kernel
theorem test_devid : after (exec (.setDevid 0x123) b0) (fun t => t.fe.devid == 0x123) = true := rfl
theorem test_module_reset : after (exec (.moduleReset 10000) b0) (fun t => t.fibres == [] && t.ctl.phase == .boot && t.hbm 0x1000 == 3) = true := rfl
theorem test_power_step : after (exec (.powerControl 5000000) b0) (fun t => t.ctl.aclk == 935 && t.ctl.capped) = true := by decide +kernel
theorem test_queue_bind_refused : after (exec (.queueBind 0 1 false) (lq lq0)) (fun t => t.out == [.reply 6 []]) = true := rfl

-- Machine as a whole ------------------------------------------------------------------------------------------------------------------

theorem reset_memOk : State.reset.memOk := rfl
theorem test_reset_bytes : State.reset.hbm 0x12345 = 0 ∧ State.reset.ctl.aclk = 940 ∧ core.reset = State.reset := ⟨rfl, rfl, rfl⟩
theorem test_step_runs_first : after (step (State.reset.withFetchWord 32 0x0E000000)) (fun t => (t.fib r0).blk == .barWg 0) = true := rfl
theorem test_table_word : decodeTableWord 32 0x60182100 = some (.sadd 3 1 2) := rfl

-- More witnesses: a state for each clause of the statements that have several ---------------------------------------------------

set_option maxRecDepth 100000

-- Witnesses of single clauses: where a form faults, waits or takes the other branch ---------------------------------------------------

/-- How a set of lanes passes its checks: 0 all mapped, 1 a miss, else the cause. -/
def lk : Lanes → Nat
  | .ok _ => 0
  | .miss _ => 1
  | .fault c .. => c.toNat
/-- The same of the lanes of a unit; 1000 and the cause where the address register is refused. -/
def lanesAre (s : State) (size b a : Nat) (chk : DWord → Access) : Nat :=
  match s.laneOffs a with
  | .ok off => lk (s.checkLanes size (s.laneAddrs off b) chk)
  | .error e => 1000 + e.1.toNat
/-- 63 operations count in flag 0 of the fibre's lanes. -/
def fl63 (s : State := b0) : State :=
  opd .store [] (fun o => { o with id := 0, counts := List.replicate 63 { wg := 0, slot := 0, flag := some 0, lanes := 0xFFFF, fid := s.me.fid } }) s
/-- No leaf is cached; the last register is the low half of a pair; `v[12]` to `v[15]` and the pair `v[16]`, `v[17]` are written. -/
def cold (s : State := b0) : State := cur (fun c => { c with leaves := [] }) s
def edge : State := wgr (fun w => { w with regs := 127 }) (slt fun t => { t with v := (126, reg 0xE 0) :: t.v })
def more (s : State := b0) : State := slt (fun t => { t with v := t.v ++ [(12, reg 1 0), (13, reg 1 0), (14, reg 1 0), (15, reg 1 0),
  (16, reg 0xE 8), (17, reg 0xF 0), (18, reg 0xE 8), (19, reg 2 0), (22, reg 0xE 0), (23, reg 1 0), (25, reg 0xE 0),
  (28, reg 0xE 0), (29, reg 0xF 0), (30, reg 0xE 0), (31, reg 0xF 0)] }) s
/-- The unit issues: its checks pass and no interlock holds it. -/
def gos (s : State) (i : Instr) : Bool := s.issuing && decide (s.verdict i = .go)
/-- The flag that F = 0 names cannot take another operation. -/
def stuck (s : State) : Bool := decide (s.flagSel 0 = some 0) && decide (63 ≤ s.flagval s.actor.wg s.actor.slot 0 s.me.mask)
/-- `s[1]` addresses that register of the fibre's slot in the register window. -/
def wreg (s : State) (n : Nat) : Bool := match s.windowReg (s.sreg 1 + s.limmDisp) with | .ok x => x == (0, n) | _ => false
def wr (s : State) : DWord → Access := fun va => s.accessMe va .write
def rd (s : State) : DWord → Access := fun va => s.accessMe va .read

theorem wit_StoresIssue_stops :
    (gos (sr [(1, 1)]) (.st32 0 0 1 0) && lanesAre (sr [(1, 1)]) 4 1 0 (wr (sr [(1, 1)])) == 0x22) = true ∧
    (gos (sr [(1, 1)]) (.st64 10 0 1 0) && lanesAre (sr [(1, 1)]) 8 1 0 (wr (sr [(1, 1)])) == 0x22) = true ∧
    (gos (sr [(1, 1)]) (.stN 0 0 1 1 0) && lanesAre (sr [(1, 1)]) 2 1 0 (wr (sr [(1, 1)])) == 0x22) = true ∧
    (gos (more (sr [(1, 1)])) (.st128 12 0 1 0) && lanesAre (more (sr [(1, 1)])) 16 1 0 (wr (sr [(1, 1)])) == 0x22) = true ∧
    (gos more (.st128 12 4 1 0) && lanesAre more 16 1 4 (wr more) == 1016) = true ∧
    (gos (more cold) (.st128 12 0 1 0) && lanesAre (more cold) 16 1 0 (wr cold) == 1) = true ∧
    (gos (more fl63) (.st128 12 0 1 0) && stuck (more fl63)) = true ∧
    (gos fl63 (.st32 0 0 1 0) && stuck fl63) = true ∧ (gos fl63 (.st64 10 0 1 0) && stuck fl63) = true ∧
    (gos fl63 (.stN 0 0 1 0 0) && stuck fl63) = true ∧ (gos fl63 (.sts 3 1 3 0 0) && stuck fl63) = true ∧
    (gos (sr [(1, 1)]) (.sts 3 1 3 0 0) && lk ((sr [(1, 1)]).checkLanes 8 [(0, (sr [(1, 1)]).scalAddr 1 0)] (wr (sr [(1, 1)]))) == 0x22) = true ∧
    (let s := sr [(1, 0x00E2000000000340)] ldp
     gos s (.stw 0 1 0) && wreg s 13 && s.pendingV s.actor 13 &&& s.me.mask != 0) = true ∧
    (gos (sr [(1, 0x100000001)]) (.clst 0 0 1 0 0) && lanesAre (sr [(1, 0x100000001)]) 4 1 0 (wr (sr [(1, 0x100000001)])) == 0x22) = true ∧
    (gos (sr [(1, 0x100010000)]) (.clst 0 0 1 0 0) && (sr [(1, 0x100010000)]).myWg.ssize == 0x10000) = true ∧
    (gos (sr [(1, 0x100000000)]) (.clst 3 0 1 0 0) && (sr [(1, 0x100000000)]).vtagOf 3 == 0) = true ∧
    (gos (sr [(1, 0x100000000)] fl63) (.clst 0 0 1 0 0) && stuck (sr [(1, 0x100000000)] fl63)) = true := by decide +kernel

/-- A check that misses at 8, fails at 16 and 24 with two causes, and passes elsewhere. -/
def chk0 : DWord → Access := fun va =>
  if va = 8 then .miss else if va = 16 then .fail 0x20 1 else if va = 24 then .fail 0x21 2 else .at (.mem 0) none

theorem wit_LoadsIssue_stops :
    (lk (b0.checkLanes 4 [(0, 1), (1, 4)] chk0) == 0x22) = true ∧ (lk (b0.checkLanes 4 [(0, 4), (1, 8)] chk0) == 1) = true ∧
    (lk (b0.checkLanes 4 [(0, 4), (2, 16), (3, 16), (5, 24)] chk0) == 0x20) = true ∧
    (lk (b0.checkLanes 4 [(0, 4), (2, 24), (3, 16)] chk0) == 0x21) = true ∧ (lk (b0.checkLanes 4 [(0, 4), (1, 12)] chk0) == 0) = true ∧
    (lanesAre more 4 1 16 (rd more) == 0 && gos more (.ld32 9 16 1 1 0)) = true ∧
    (lanesAre more 4 1 18 (rd more) == 1016 && gos more (.ld32 9 18 1 1 0)) = true ∧
    (lanesAre more 4 1 25 (rd more) == 1016 && gos more (.ld32 9 25 1 1 0)) = true ∧
    (lanesAre b0 1 1 2 (rd b0) == 0 && gos b0 (.ldN 9 2 1 0 0)) = true ∧ (lanesAre b0 4 1 4 (rd b0) == 1016 && gos b0 (.ld128 12 4 1 1 0)) = true ∧
    (gos (sr [(1, 1)]) (.ld32 9 0 1 1 0) && lanesAre (sr [(1, 1)]) 4 1 0 (rd (sr [(1, 1)])) == 0x22) = true ∧
    (gos (sr [(1, 1)]) (.ld64 12 0 1 0xE 0) && lanesAre (sr [(1, 1)]) 8 1 0 (rd (sr [(1, 1)])) == 0x22) = true ∧
    (gos (sr [(1, 1)]) (.ld128 12 0 1 1 0) && lanesAre (sr [(1, 1)]) 16 1 0 (rd (sr [(1, 1)])) == 0x22) = true ∧
    (gos (sr [(1, 1)]) (.ldN 9 0 1 3 0) && lanesAre (sr [(1, 1)]) 2 1 0 (rd (sr [(1, 1)])) == 0x22) = true ∧
    (gos cold (.ld32 9 0 1 1 0) && lanesAre cold 4 1 0 (rd cold) == 1) = true ∧ (gos fl63 (.ld32 9 0 1 1 0) && stuck fl63) = true ∧
    (gos cold (.ld64 12 0 1 1 0) && lanesAre cold 8 1 0 (rd cold) == 1) = true ∧ (gos fl63 (.ld64 12 0 1 1 0) && stuck fl63) = true ∧
    (gos cold (.ld128 12 0 1 1 0) && lanesAre cold 16 1 0 (rd cold) == 1) = true ∧ (gos fl63 (.ld128 12 0 1 1 0) && stuck fl63) = true ∧
    (gos cold (.ldN 9 0 1 5 0) && lanesAre cold 2 1 0 (rd cold) == 1) = true ∧ (gos fl63 (.ldN 9 0 1 5 0) && stuck fl63) = true ∧
    (gos (sr [(1, 1)]) (.lds 3 1 6 0 0) && lk ((sr [(1, 1)]).checkLanes 8 [(0, (sr [(1, 1)]).scalAddr 1 0)] (rd (sr [(1, 1)]))) == 0x22) = true ∧
    (gos cold (.lds 3 1 6 0 0) && lk (cold.checkLanes 8 [(0, cold.scalAddr 1 0)] (rd cold)) == 1) = true ∧
    (gos fl63 (.lds 3 1 6 0 0) && stuck fl63) = true ∧
    (gos (sr [(1, 1)]) (.ldb 9 1 1 0) && lk ((sr [(1, 1)]).checkLanes 4 [(0, (sr [(1, 1)]).sreg 1)] (rd (sr [(1, 1)]))) == 0x22) = true ∧
    (gos cold (.ldb 9 1 1 0) && lk (cold.checkLanes 4 [(0, cold.sreg 1)] (rd cold)) == 1) = true ∧
    (gos fl63 (.ldb 9 1 1 0) && stuck fl63) = true ∧
    (let s := sr [(1, 0x00E2000000000340)] ldp
     gos s (.ldw 9 1 0) && wreg s 13 && s.pendingV s.actor 13 &&& s.me.mask != 0) = true ∧
    ((b0.laneAddrs (fun l => BitVec.ofNat 64 (4 * l)) 1).length == 16 && gos b0 (.ld32 9 0 1 1 0)) = true ∧
    (gos (me (fun f => { f with mask := 4 })) (.pref 0 1 0) && lanesAre (me (fun f => { f with mask := 4 })) 4 1 0 (rd b0) == 0) = true ∧
    (gos (me (fun f => { f with mask := 4 })) (.pref 0 1 1) && gos (me (fun f => { f with mask := 4 }) cold) (.pref 0 1 0)) = true := by
  decide +kernel

/-- The lanes of an atomic, as `lanesAre`. -/
def am (s : State) (n : Need) (custom : Bool) : DWord → Access := s.atomAccess n custom
def isErr {α : Type} : Except (BitVec 8 × Nat) α → Nat
  | .ok _ => 0
  | .error e => e.1.toNat
/-- A machine whose address leads into the register window, the pass-through table, a scratchpad, or a peer. -/
def at1 (x : DWord) (s : State := b0) : State := sr [(1, x)] s
/-- A custom atomic of handler 0 is in flight. -/
def hbusy : State := opd (.acust 0 hndl 10) [pt0] id hins
/-- `ASINST` has begun: the words it read stand in the fibre. -/
def hbeg (s : State) : State := me (fun f => { f with begun := some hndl, mark := s.nextId }) s
/-- 64 handlers are held. -/
def h64 : State := { ctxr (fun c => { c with handlers := (List.range 64).map (fun k => (k + 1, [])) }) (sr [(1, 0x10000), (2, 8)]) with mem := hmem.mem }

theorem wit_AtomicsIssue_stops :
    (isErr (more.atomType 0 16) == 0 && isErr (more.atomType 0 18) == 0 && more.vtagOf 16 == 0xE && more.vtagOf 18 == 0xE) = true ∧
    (isErr (more.atomType 0 22) == 0x10) = true ∧
    (isErr (more.casType 28) == 0 && isErr (more.casType 16) == 0 && isErr (more.casType 22) == 0x10) = true ∧
    (decide (b0.accessMe 0x00E2000000000040 .amo = .at (.regw 0 0 64) none) && isErr (b0.atomType 0 0) == 0) = true ∧
    (decide (b0.accessMe 0x00E3000000000000 .amo = .at (.pt 0 0) none)) = true ∧
    (decide (b0.accessMe 0x00E0000000000008 .amo = .at (.scratch 0 8) none)) = true ∧
    (decide (fab.accessMe 0x40000000 .amo = .at (.peer 7 0) (some leaf7))) = true ∧
    (gos b0 (.amo 4 0 1 3 0 0) && gos b0 (.amor 4 0 1 3 0 0) && isErr (b0.atomType 3 4) == 0x10) = true ∧
    (gos b0 (.amo 0 4 1 0 0 0) && gos b0 (.amor 0 4 1 0 0 0) && gos b0 (.cas 10 4 1 0 0 0) && lanesAre b0 4 1 4 (am b0 .amo false) == 1016) = true ∧
    (gos hins (.acust 10 4 1 0 0 0) && lanesAre hins 4 1 4 (am hins .amo true) == 1016) = true ∧
    (gos (at1 1) (.amo 0 0 1 0 1 0) && lanesAre (at1 1) 4 1 0 (am (at1 1) .amo false) == 0x22) = true ∧
    (gos (at1 1) (.amor 0 0 1 0 2 0) && lanesAre (at1 1) 4 1 0 (am (at1 1) .amo false) == 0x22) = true ∧
    (gos (at1 1) (.cas 10 0 1 3 0 0) && lanesAre (at1 1) 4 1 0 (am (at1 1) .cas false) == 0x22) = true ∧
    (gos (at1 1 hins) (.acust 10 0 1 0 3 0) && lanesAre (at1 1 hins) 4 1 0 (am (at1 1 hins) .amo true) == 0x22) = true ∧
    (gos cold (.amo 0 0 1 0 4 0) && lanesAre cold 4 1 0 (am cold .amo false) == 1) = true ∧ (gos cold (.amor 0 0 1 0 0 0)) = true ∧
    (gos cold (.cas 10 0 1 0 1 0) && lanesAre cold 4 1 0 (am cold .cas false) == 1) = true ∧
    (gos (cold hins) (.acust 10 0 1 0 0 0) && lanesAre (cold hins) 4 1 0 (am (cold hins) .amo true) == 1) = true ∧
    (gos fl63 (.amo 0 0 1 0 0 0) && stuck fl63) = true ∧ (gos fl63 (.amor 0 0 1 0 0 0) && stuck fl63) = true ∧
    (gos fl63 (.cas 10 0 1 2 0 0) && stuck fl63) = true ∧ (gos (fl63 hins) (.acust 10 0 1 0 0 0) && stuck (fl63 hins)) = true ∧
    (gos (more b0) (.amo 16 0 1 0 0 0) && gos (more b0) (.cas 28 0 1 0 0 0)) = true ∧
    (gos b0 (.cas 2 0 1 0 0 0) && isErr (b0.casType 2) == 0x10) = true ∧
    (gos hins (.acust 2 0 1 0 0 0) && hins.vtagOf 3 == 0) = true ∧
    (gos (hbeg hbusy) (.asinst 0 1 2) && (hbeg hbusy).handlerBusy 0 (hbeg hbusy).me.mark) = true ∧
    (gos (hbeg hmem) (.asinst 0 1 2) && !(hbeg hmem).handlerBusy 0 (hbeg hmem).me.mark) = true ∧
    (gos hbusy (.asinst 0 1 2) && hbusy.handlerBusy 0 hbusy.nextId) = true ∧
    (gos (sr [(1, 0x10000), (2, 6)]) (.asinst 0 1 2)) = true ∧ (gos (cold (sr [(1, 0x10000), (2, 8)])) (.asinst 0 1 2)) = true ∧
    (gos (sr [(1, 0x10100), (2, 8)]) (.asinst 0 1 2) && decide (handlerBad [0, 0] ≠ none)) = true ∧
    (gos h64 (.asinst 0 1 2) && decide (64 ≤ h64.handlersHeld)) = true := by
  decide +kernel

/-- Pairs and groups of an atomic that do not fit: `v[25]` and `v[18]` are tagged 0xE, `v[0]` is not. -/
theorem wit_AtomicsIssue_pairs :
    (more.issuing && more.me.hLimm.isNone && more.me.hMod.isNone && more.ops.isEmpty && more.vtagOf 25 == 0xE && more.vtagOf 18 == 0xE &&
      more.vtagOf 0 != 0xE && wellFormed (.amo 25 0 1 0 0 0) && wellFormed (.amor 25 0 1 0 0 0) && wellFormed (.cas 18 0 1 0 0 0)) = true ∧
    (∀ n, more.pendingV more.actor n = 0) ∧
    (let s := wgr (fun w => { w with regs := 29 }) more
     s.issuing && s.vtagOf 28 == 0xE && s.vtagOf 0 != 0xE && decide (s.myWg.regs < s.me.base.toNat + 28 + 2)) = true ∧
    (wgr (fun w => { w with regs := 29 }) more).ops = [] := by
  refine ⟨by decide +kernel, fun n => rfl, by decide +kernel, rfl⟩

/-- A load of the part: bound, and not bound behind a poisoned line, and without a lease. -/
def ptb : Part := { pt0 with st := .bound, data := (List.range 32).map (fun k => BitVec.ofNat 8 (0x91 + k)) }
def psn (s : State) : State := { s with poison := [(0x10000, 0)] }
/-- Two stores of the fibre to one sector, neither performed. -/
def twoSt : State := { opd .store [pw0] with ops := (opd .store [pw0]).ops ++ (opd .store [pw0] (fun o => { o with id := 2, holders := [(b0.me.fid, 2)] })).ops }

theorem wit_LoadsAndStoresArePerformed_more :
    (extendN 5 0x7C01 == 0x7F802000 && extendN 5 0x3C00 == 0x3F800000 && decide (0x7C01 < 65536) && decide (0x3C00 < 65536)) = true ∧
    ((psn (opd (.load (.vec 9 4 0)) [pt0])).poisoned 0x10000 && decide (0 < 1)) = true ∧
    ((opd (.load (.vec 9 4 0)) [{ pt0 with lease := none }]).poisoned 0x10000 == false && decide (0 < 1)) = true ∧
    ((opd (.load (.vec 9 4 0)) [ptb]).poisoned 0x10000 == false && decide (4 * 1 = 4) && decide (0 < 9)) = true ∧
    ((opd (.load (.vec 8 8 0)) [ptb]).poisoned 0x10000 == false && decide (4 * 2 = 8) && decide (0 < 1)) = true ∧
    ((opd (.load (.vec 9 1 1)) [ptb]).poisoned 0x10000 == false && decide (0 < 1)) = true ∧
    ((opd (.load (.vec 9 2 3)) [ptb, { pt0 with st := .done }]).poisoned 0x10000 == false && decide (0 < 1)) = true ∧
    ((opd (.load (.bcast 8)) [ptb]).poisoned 0x10000 == false && decide (0 < 1)) = true ∧
    ((opd (.load (.scal 3 2 true)) [ptb]).poisoned 0x10000 == false && decide (0 < 1)) = true ∧
    (twoSt.op 2).any (fun o => twoSt.mustFollow o pw0 true) = true ∧
    ((opd .store [{ pw0 with st := .performed }, pw0]).op 1).isSome = true ∧
    ((opd .store [{ pw0 with st := .done }] (fun o => { o with st := .settling, gwct := 2 ^ 40, cls := clsW, scope := .device })).op 1).isSome = true := by
  decide +kernel

def ty (k : Nat) : AtomTy := { op := k, wide := false, tag := 1, tagHi := 0 }
/-- An operation of an atomic kind, in the queue of service fibre 0. -/
def atq (k : OpKind) (p : Part := pt0) (f : Op → Op := id) : State := { opd k [p] f with ase := [(0, .slot 0 0, .op 1 0)] }

theorem wit_AtomicsArePerformed_more :
    ((ty 0).apply 1 2 == (3, 0)) = true ∧ ((ty 1).apply 1 0xFFFFFFFF == (0xFFFFFFFF, 0)) = true ∧ ((ty 2).apply 1 0xFFFFFFFF == (1, 0)) = true ∧
    ((ty 3).apply 5 6 == (4, 0)) = true ∧ ((ty 4).apply 5 6 == (7, 0)) = true ∧ ((ty 5).apply 5 6 == (3, 0)) = true ∧
    ((ty 6).apply 5 6 == (6, 0)) = true ∧ (({ op := 0, wide := false, tag := 3, tagHi := 0 } : AtomTy).apply 0x3F800000 0x3F800000 == (0x40000000, 0)) = true ∧
    (({ op := 1, wide := true, tag := 0xE, tagHi := 0xF } : AtomTy).apply 1 0xFFFFFFFFFFFFFFFF == (0xFFFFFFFFFFFFFFFF, 0)) = true ∧
    ((applyLanes (some (ty 0)) 4 (fun _ => true) (List.replicate 32 1) [⟨0, 1, 0⟩, ⟨28, 1, 0⟩]).olds == [0x01010101, 0x01010101]) = true ∧
    ((applyLanes none 4 (fun k => k == 1) (List.replicate 32 1) [⟨0, 1, 0⟩]).olds == [0x01010101]) = true ∧
    ((applyLanes none 4 (fun k => k == 0) (List.replicate 32 1) [⟨4, 0x01010101, 7⟩]).wrote) = true ∧
    ((applyLanes none 8 (fun _ => false) (List.replicate 32 1) [⟨8, 0x0101010101010101, 7⟩]).denied == [0]) = true ∧
    (nextSource 1 [(.slot 0 3, AReq.op 1 0), (.slot 0 2, .op 2 0)] == some (.slot 0 2, .op 2 0)) = true ∧
    ((atq (.cas false 10) pt0 (fun o => { o with argv := [(0, [0, 5])] })).op 1).isSome = true ∧
    ((atq (.cas false 10) { pt0 with writable := false } (fun o => { o with argv := [(0, [0, 5])] })).op 1).isSome = true ∧
    ((atq (.acust 0 hndl 10)).op 1).isSome = true ∧ ((atq (.acust 0 [] 10)).op 1).isSome = true ∧
    ((atq (.cas false 10) { ptb with st := .performed, data := [1, 2, 3, 4] }).op 1).isSome = true ∧
    ((atq (.acust 0 hndl 10) { ptb with st := .performed, data := [1, 2, 3, 4, 5, 6, 7, 8] }).op 1).isSome = true := by
  decide +kernel

def mcd (k : Nat) (z : Nat := 4) (v : DWord := 5) : MonCond := { op := BitVec.ofNat 4 k, size := z, v := v }
/-- A monitor waits in its slice's queue or is armed, for a value that memory does not hold. -/
def mon1 (a : Bool) (c : MonCond := { mc0 with v := 9 }) : State := { opd (.monitor c 3) [pt0] with mons := [{ op := 1, slice := homeOf 0x10000, armed := a }] }
/-- 256 monitors of other operations are armed in the slice. -/
def mon256 (l : List Mon) : State :=
  { opd (.monitor mc0 3) [pt0] with mons := (List.range 256).map (fun k => { op := 100 + k, slice := homeOf 0x10000, armed := true }) ++ l }
def stq8 : Part := { pt0 with wr := (leBytes 9 8).zipIdx.map (fun b => (b.2, b.1)) }
/-- A store of 9 to the watched bytes is on its way. -/
def monSt (c : MonCond) : State :=
  { mon1 true c with ops := (mon1 true c).ops ++ (opd .store [stq8] (fun o => { o with id := 2, holders := [(77, 2)], fid := 77 })).ops }
def fen (p : BitVec 8) (s : State := b0) : State := me (fun f => { f with fence := some { pred := p, succ := 2, scope := .workgroup, mark := 9, pc := 0 } }) s
/-- The page is UNCACHED. -/
def unc : State := cur fun c => { c with leaves := [{ leaf0 with pte := 0x29D }] }
def cause (a : Access) : Nat := match a with | .at .. => 0 | .miss => 1 | .fail c _ => c.toNat

theorem wit_FencesAndMonitors_more :
    ((mcd 0).holds 5) = true ∧ ((mcd 1).holds 6) = true ∧ ((mcd 2).holds 6) = true ∧ ((mcd 3).holds 4) = true ∧
    ((mcd 4).holds 6) = true ∧ ((mcd 5).holds 0xFFFFFFFF) = true ∧ ((mcd 6 8).holds 4) = true ∧ ((mcd 7 8).holds 0x10) = true ∧ ((mcd 9).holds 5 == false) = true ∧
    (fen 2 (opd .store [pw0] (fun o => { o with cls := clsW }))).earlierDone r0 9 2 .workgroup false = false ∧
    (gos (sr [(1, 4)]) (.waitc 1 2 0 1 0)) = true ∧ (gos (sr [(1, 2)]) (.waitc 1 2 0 0 0)) = true ∧
    (gos (sr [(1, 0x00E2000000000040)]) (.waitc 1 2 0 1 0)) = true ∧ (gos cold (.waitc 1 2 0 1 0) && cause (cold.accessMe 0 .read) == 1) = true ∧
    (gos (sr [(1, 0x0100000000000000)]) (.waitc 1 2 0 1 0) && cause ((sr [(1, 0x0100000000000000)]).accessMe 0x0100000000000000 .read) == 0x20) = true ∧
    (gos (sr [(1, 0x40000000)] fab) (.waitc 1 2 0 1 0) && decide (fab.accessMe 0x40000000 .read = .at (.peer 7 0) (some leaf7))) = true ∧
    (gos (sr [(1, 0x50000000)] dwin) (.waitc 1 2 0 1 0) && decide (dwin.accessMe 0x50000000 .read = .at (.decant 1 0 0) none)) = true ∧
    (gos unc (.waitc 1 2 0 1 0) && cause (unc.accessMe 0 .read) == 0) = true ∧ (gos fl63 (.waitc 1 2 0 1 0) && stuck fl63) = true ∧
    ((opd (.monitor { mc0 with v := 9 } 3) [pt0]).mons == [] && mc0.holds 0) = true ∧
    ((mon256 []).mons.length == 256 && ((mon256 []).op 1).isSome) = true ∧
    ((mon256 [{ op := 1, slice := homeOf 0x10000, armed := false }]).mons.length == 257) = true ∧
    ((mon1 false).mons.length == 1 && ((mon1 false).op 1).isSome) = true ∧ ((mon1 false mc0).mons.length == 1) = true ∧
    (({ op := 1, slice := homeOf 0x10000, armed := false } : Mon).op == 1) = true ∧
    ((monSt { mc0 with v := 9 }).mons.length == 1 && ((monSt { mc0 with v := 9 }).op 2).isSome && decide (9 < 256)) = true ∧
    ((monSt { mc0 with v := 8 }).mons.length == 1 && ((monSt { mc0 with v := 8 }).op 2).isSome && decide (9 < 256)) = true := by
  decide +kernel

/-- An invalidation of the fibre, as given. -/
def inv1 : Inv := { inv0 with fid := b0.me.fid }
def inv2 : Inv := { inv1 with applied := true, sys := true, waiting := [7] }
def inv3 : Inv := { inv1 with applied := true }
def invl (l : List Inv) (s : State := b0) : State := { s with invs := l }
def invd (f : Inv → Inv) (s : State := b0) : State := { s with invs := [f { inv0 with fid := s.me.fid }] }
def dead7 (s : State) : State := { s with fe := { s.fe with dead := [7] } }
/-- A DECANT record: index base 0x1000, source base 0x10000, count, bound, entry size code. -/
def drec (count bound esz : Byte) (a : DWord) (f : Ctx → Ctx := id) : State :=
  { ctxr f (sr [(1, 0x10000), (2, a)]) with mem := b0.mem ++ [(0x10001, 0x10), (0x1000A, 1), (0x10010, count), (0x10014, bound), (0x10018, esz)] }
def decs (n : Nat) : Tbl Nat Decant := (List.range n).map (fun k => (k, { dec0 with base := BitVec.ofNat 64 (0x60000000 + k * 0x10000) }))

theorem wit_TranslationAndDecantWindows_more :
    (gos (sr [(1, 0x0100000000000000)]) (.tlbinvVaDev 1 2) && gos (sr [(1, 0x0100000000000000)]) (.tlbinvVaSys 1 2)) = true ∧
    (gos (sr [(1, 0x2000), (2, 0x10000000)]) (.tlbinvVaDev 1 2) && gos (sr [(1, 0x2000), (2, 0x10000000)]) (.tlbinvVaSys 1 2)) = true ∧
    (gos (sr [(1, 0x2000), (2, 0x70001)]) (.tlbinvVaDev 1 2) && gos (sr [(1, 0x2000), (2, 0x70001)]) (.tlbinvVaSys 1 2)) = true ∧
    (gos (sr [(1, 0x10000)]) (.tlbinvAsidDev 1) && gos (sr [(1, 0x10000)]) (.tlbinvAsidSys 1)) = true ∧
    (!stq.writesHome && gos stq (.tlbinvVaDev 1 2) && gos stq (.tlbinvVaSys 1 2)) = true ∧
    (!stq.writesHome && gos stq (.tlbinvAsidDev 1) && gos stq (.tlbinvAsidSys 1)) = true ∧
    (!stq.writesHome && gos stq .tlbinvAllDev && gos stq .tlbinvAllSys) = true ∧
    (gos (dead7 b0) .tlbinvAllSys) = true ∧
    (gos (invl [inv1]) .tlbsyncDev && gos (invl [inv1]) .tlbsyncSys) = true ∧
    (gos (invl [inv3]) .tlbsyncDev && gos (invl [inv3]) .tlbsyncSys) = true ∧
    (gos (invl [inv2]) .tlbsyncSys) = true ∧
    (gos (dead7 (invl [{ inv2 with waiting := [7, 8] }])) .tlbsyncSys) = true ∧
    (gos cold (.atrans 3 1 0) && cause (cold.accessMe 0 .read) == 1) = true ∧
    (gos unc (.atrans 3 1 1) && cause (unc.accessMe 0 .amo) == 0x23) = true ∧
    (gos (sr [(1, 0x00E0000000000000)]) (.atrans 3 1 0) && cause ((sr [(1, 0x00E0000000000000)]).accessMe 0x00E0000000000000 .read) == 0) = true ∧
    (gos (sr [(1, 0x50000000)] dwin) (.atrans 3 1 0) && gos (plain (sr [(1, 0x5000)])) (.atrans 3 1 2)) = true ∧
    (gos (sr [(1, 0x40000000)] fab) (.atrans 3 1 0)) = true ∧
    (({ coal0 with mem := [] } : State).mem == []) = true ∧
    ((invd (fun v => { v with sys := true, range := .va 1 0 0x1000 }) coal0).invs.length == 1) = true ∧
    ((InvRange.asid 1).hits 1 0 32 && (InvRange.va 1 0x1000 0x2000).hits 1 0x1FE0 32 && !(InvRange.va 1 0x1000 0x2000).hits 1 0x2000 32 && InvRange.all.hits 5 0 32) = true ∧
    (gos (sr [(1, 0x10020)]) (.decantBind 2 1 2)) = true ∧ (gos (cold (sr [(1, 0x10000)])) (.decantBind 2 1 2)) = true ∧
    (gos (drec 1 1 0 0x50000000) (.decantBind 2 1 2)) = true ∧ (gos (drec 1 1 0 0x50000001) (.decantBind 2 1 2)) = true ∧
    (gos (drec 1 1 0 0x50000000 (fun c => { c with decants := [(0, dec0)] })) (.decantBind 2 1 2)) = true ∧
    (gos (drec 1 1 0 0x70000000 (fun c => { c with decants := [(0, dec0)] })) (.decantBind 2 1 2)) = true ∧
    (gos (drec 1 1 0 0x50000000 (fun c => { c with decants := decs 64 })) (.decantBind 2 1 2)) = true ∧
    (gos (drec 9 1 4 0x50000000) (.decantBind 2 1 2)) = true ∧
    (gos (dwin) (.decantUnbind 3 1) && gos (opd (.load (.vec 9 4 0)) [{ pt0 with loc := .decant 1 0 0 }] id dwin) (.decantUnbind 3 1)) = true ∧
    (gos (opd (.load (.vec 9 4 0)) [pt0] id dwin) (.decantUnbind 3 1)) = true := by
  decide +kernel

/-- Gang 0 in a state of its own. -/
def gat (f : Gang → Gang) (s : State := sr [(1, 1)]) : State := gg (f Gang.idle) s

theorem wit_GangRegisters_more :
    (gos (sr [(1, 0x20)]) (.mbind 1 0 1)) = true ∧ (gos ldp .mready && ldp.pendingV r0 13 &&& 0xFFFF != 0) = true ∧
    (gos (sr [(1, 0)]) (.msign 1 0 0)) = true ∧ (gos (sr [(1, 2)]) (.msign 1 0 0)) = true ∧
    (gos (gat fun g => { g with st := .issued, e := 1, signers := [sg0] }) (.msign 1 0 0)) = true ∧
    (gos (gat fun g => { g with st := .gathering, e := 3 }) (.msign 1 0 0)) = true ∧
    (gos (gat fun g => { g with st := .gathering, e := 1, signers := [sg0] }) (.msign 1 0 0)) = true ∧
    (gos (gat (fun g => { g with st := .gathering, e := 3, signers := [{ sg0 with bit := 1 }] }) (sr [(1, 3)])) (.msign 1 0 0)) = true ∧
    (gos (gat (fun g => { g with st := .gathering, post := some mp0 })) (.msign 1 0 0)) = true ∧
    (gos (gat (fun g => { g with st := .gathering, post := some mp0 }) (cur (fun c => { c with mxq := [9] }) (sr [(1, 1)]))) (.msign 1 0 0)) = true ∧
    (gos (gat fun g => { g with st := .issued }) (.mma 4 1 0) && gos (gat fun g => { g with st := .issued }) (.mtile 4 1 0) &&
      gos (gat fun g => { g with st := .issued }) (.mepi 4 0 3)) = true ∧
    (gos (gat fun g => { g with st := .gathering, post := some mp0 }) (.mma 4 1 0) && gos (gat fun g => { g with st := .gathering, post := some mp0 }) (.mtile 4 1 0) &&
      gos (gat fun g => { g with st := .gathering, post := some mp0 }) (.mepi 4 0 3)) = true ∧
    (gos (gat fun g => { g with st := .gathering, e := 1, signers := [sg0] }) (.mma 4 1 0) &&
      gos (gat fun g => { g with st := .gathering, e := 1, signers := [sg0] }) (.mepi 4 0 3)) = true ∧
    (gos (gat (fun g => { g with st := .gathering, e := 1, signers := [sg0] }) (cur (fun c => { c with mxq := [9] }) (sr [(1, 1)]))) (.mtile 4 1 0)) = true ∧
    (gos (gat fun g => { g with st := .gathering, e := 1, signers := [sg0], post := some mp0, cause := 5, step := 7 }) (.mstat 1 3 0)) = true ∧
    (gos stq .mrfence && !stq.writesHome) = true := by
  decide +kernel

/-- An operation of gang 0 in the queue with other records: `mmEntry` then fails, or `epiEntry` goes. -/
def mxE (p : MxPost) : State := mx (.gang 0 p [sg0])
def recS : ShapeRec := { recA with addr := 0x40000, base := 0x41000, mode := true, fmt := 8, theta := 0x3F800000, dim0 := 16, dim1 := 1 }
def spl (enc : Bool) (a b : ShapeRec) : State := mx (.split enc a.addr b.addr 0) (fun c => { c with recs := [(1, a.addr, a, 0), (1, b.addr, b, 0)] })

theorem wit_MatrixOperations_more :
    (gos (sr [(1, 0x20), (2, 0x20)]) (.splitEnc 1 2 0) && gos (sr [(1, 0x20), (2, 0x20)]) (.splitDec 1 2 0)) = true ∧
    (gos (sr [(1, 0x40), (2, 0x20)]) (.splitEnc 1 2 0) && gos (sr [(1, 0x40), (2, 0x20)]) (.splitDec 1 2 0)) = true ∧
    (gos (cur (fun c => { c with mxq := [9] })) (.splitEnc 1 1 0) && gos (cur (fun c => { c with mxq := [9] })) (.splitDec 1 1 0)) = true ∧
    (gos b0 (.splitEnc 1 1 0) && gos b0 (.splitDec 1 1 0)) = true ∧
    ((mxE { mp0 with b := 0x10000 }).op 1).any (fun o => goes? ((mxE { mp0 with b := 0x10000 }).mmEntry o 0 { mp0 with b := 0x10000 } [sg0]) == 1) = true ∧
    ((mxE { mp0 with op := 3, minor := 2 }).op 1).any (fun o => goes? ((mxE { mp0 with op := 3, minor := 2 }).epiEntry o 0 { mp0 with op := 3, minor := 2 } [sg0]) == 1) = true ∧
    ((mxE { mp0 with op := 3, minor := 1 }).op 1).any (fun o => goes? ((mxE { mp0 with op := 3, minor := 1 }).epiEntry o 0 { mp0 with op := 3, minor := 1 } [sg0]) == 0) = true ∧
    ((spl true recA recB).op 1).isSome = true ∧ ((spl true recA recS).op 1).isSome = true ∧ ((spl false recS recA).op 1).isSome = true ∧
    ((mx (.split true 0x10000 0x20000 0) (fun c => { c with mxRuns := [{ run0 0 2 with img := some img0 }] })).op 1).isSome = true ∧
    ((mx (.gang 0 { mp0 with op := 3, minor := 1 } [sg0]) (fun c => { c with mxRuns := [{ run0 0 2 with img := some img0 }] })).op 1).isSome = true ∧
    ((mx (.split true 0x10000 0x20000 0) (fun c => { c with mxRuns := [run0 2 2] })).op 1).isSome = true ∧
    ((mx (.gang 0 mp0 [sg0]) (fun c => { c with mxRuns := [run0 0 1] })).op 1).isSome = true := by
  decide +kernel

def rk0 : RackSec := { asid := 1, va := 0x10000, pa := 0x10000, data := (List.range 32).map (BitVec.ofNat 8), expiry := none, wvt := 3, retained := true, page := 0, bytes := 2 ^ 30 }
/-- A flush of the list at scratchpad byte 0 to 0x10000, and the list's own count. -/
def spf (w : DWord) (p : Option Loc) (st : OpSt) (pad : Tbl Nat Byte) (f : Op → Op := id) (d : DWord := 0x10000) : State :=
  wgr (fun g => { g with scratch := pad }) (opd (.spgFlush d w p) [] (fun o => f { o with st := st }) (cur fun c => { c with gseq := [1] }))

theorem wit_SparseOperations_more :
    ((addTerm 3 0x3F800000 [(1, 5), (3, 0x3F800000)]).1 == [(1, 5), (3, 0x40000000)]) = true ∧ ((addTerm 2 0x3F800000 [(1, 5), (3, 0x3F800000)]).1.length == 3) = true ∧
    (b0.readSpa 0 0 == some []) = true ∧ ((wgr fun w => { w with scratch := [(4, 1)] }).readSpa 0 0 == none) = true ∧
    ((wgr fun w => { w with scratch := [(0, 2), (0x40, 1), (0x44, 2), (0x4040, 7)] }).readSpa 0 0 == some [(1, 7), (2, 0)]) = true ∧
    ((wgr fun w => { w with scratch := [(0, 2), (0x40, 2), (0x44, 1), (0x4040, 7)] }).readSpa 0 0 == none) = true ∧
    (match (cur fun c => { c with rack := [rk0] }).rackRead 0 0 1 0x10000 4 false with | .ok .. => true | _ => false) = true ∧
    (match b0.rackRead 0 0 1 0x10000 4 true with | .ok .. => decide (cause (b0.accessOp 0 0 1 0x10000 .read) = 0) | _ => false) = true ∧
    (gos (sr [(1, 0x40), (2, 0)]) (.spgRow 1 2 0) && gos (sr [(1, 0x8), (2, 0)]) (.spgFlush 1 2 0)) = true ∧
    (gos (sr [(1, 0), (2, 1 <<< 53)]) (.spgRow 1 2 0) && gos (sr [(1, 0), (2, 1 <<< 21)]) (.spgFlush 1 2 0)) = true ∧
    (gos (sr [(1, 0), (2, 32 <<< 32)]) (.spgRow 1 2 0) && gos (sr [(1, 0), (2, 32)]) (.spgFlush 1 2 0)) = true ∧
    (gos (sr [(1, 0), (2, 4097 <<< 32)]) (.spgFlush 1 2 0)) = true ∧ (gos (sr [(1, 0), (2, 0)] fl63) (.spgRow 1 2 0) && gos (sr [(1, 0), (2, 0)] fl63) (.spgFlush 1 2 0)) = true ∧
    (gos (sr [(1, 0x10000), (2, 64)] (cur fun c => { c with rack := [rk0] })) (.rackInv 1 2)) = true ∧
    (match (opd (.spgRow 0x10000 0 0) [] (fun o => { o with st := .queued }) (cur fun c => { c with gseq := [1] })).op 1 with | some _ => true | none => false) = true ∧
    ((spq fun o => { o with st := .running, argv := [(0, [3]), (1, [5])] }).op 1).isSome = true ∧
    ((spf 0 none .queued [(4, 1)]).op 1).isSome = true ∧ ((spf (1 <<< 32) none .queued [(0, 1), (0x40, 2), (0x4040, 7)]).op 1).isSome = true ∧
    ((spf 0 none .queued [(0, 1), (0x40, 2), (0x4040, 7)]).op 1).isSome = true ∧
    ((spf (1 <<< 32) none .queued [(0, 1), (0x40, 2), (0x4040, 7)] id 0x00E5000000000000).op 1).isSome = true ∧
    ((spf 0 (some (.mem 0x10000)) .running [] (fun o => { o with argv := [(0, [5])] })).op 1).isSome = true ∧
    ((spf 0 (some (.mem 0x10000)) .running [] (fun o => { o with argv := [(0, [5])], gwct := 2 ^ 40, cls := clsW, scope := .device })).op 1).isSome = true := by
  decide +kernel

/-- Scalar registers of a copy: destination, source, length and guard word. -/
def cpr (d x n g : DWord) (s : State := b0) : State := sr [(1, d), (2, x), (4, n), (5, g)] s
def cpG (g : DWord) (off : Nat) : State := cpy { cp0 with kind := 1, guard := g, off := off } .running
def recC : ShapeRec := { recA with addr := 0x10000, base := 0x11000, dim0 := 4, dim1 := 1, fmt := 1 }
/-- Two equal tensor records of four BF16 elements, in memory at 0x10000 and 0x20000, their bases 0x11000 and 0x21000. -/
def tens : List Host.Cell := [(0x10001, 0x10), (0x10002, 1), (0x10008, 4), (0x1000C, 1), (0x10010, 1), (0x10014, 1), (0x10018, 8), (0x10030, 1),
  (0x20001, 0x10), (0x20002, 2), (0x20008, 4), (0x2000C, 1), (0x20010, 1), (0x20014, 1), (0x20018, 8), (0x20030, 1)]
def cpT (l : List Host.Cell) (f : CopyArgs → CopyArgs := id) (st : OpSt := .queued) : State :=
  { cpy (f { cp0 with kind := 2, dst := 0x20000, src := 0x10000, len := 0 }) st (fun c => { c with ceq := [1] }) with mem := b0.mem ++ l }

theorem wit_CopyOperations_more :
    (decide (0 < 200) && unitCount 100 200 == 3) = true ∧
    (gos (cpr 0x20000 0x10000 (1 <<< 36) 0) (.cp 4 1 2 0) && gos (cpr 0x20000 0x10000 (1 <<< 36) 0x12) (.cpG 4 1 2 0) && gos (cpr (1 <<< 32) 0x10000 (1 <<< 36) 0) (.cpMc 4 1 2 0)) = true ∧
    (gos (cpr 0x20000 0x20040 128 0x12) (.cp 4 1 2 0)) = true ∧ (gos (cpr 0x20000 0x20000 128 0x12) (.cpG 4 1 2 0)) = true ∧
    (gos (cpr 0x20000 0x10000 128 0x8) (.cpG 4 1 2 0)) = true ∧ (gos (cpr 0x20000 0x10000 128 0) (.cpG 4 1 2 0)) = true ∧
    (gos (cpr 0x20000 0x10000 128 0x16) (.cpG 4 1 2 0)) = true ∧ (gos (cpr 0x20001 0x10000 128 0x12) (.cpG 4 1 2 0)) = true ∧
    (gos (cpr 0x20000 0x10000 127 0x12) (.cpG 4 1 2 0)) = true ∧
    (gos (cpr 0x20000 0x10000 128 0x12 fl63) (.cpG 4 1 2 0) && gos (cpr 0x20000 0x10000 128 0x12 fl63) (.cp 4 1 2 0) && gos (cpr (1 <<< 32) 0x10000 128 0 fl63) (.cpMc 4 1 2 0)) = true ∧
    (gos (cpr (1 <<< 32) 0x10000 8 0) (.cpMc 4 1 2 0)) = true ∧ (gos (cpr ((1 <<< 32) + 8) 0x10000 16 0) (.cpMc 4 1 2 0)) = true ∧
    (gos (cpr 0 0x10000 16 0) (.cpMc 4 1 2 0)) = true ∧ (gos (cpr (1 <<< 40) 0x10000 16 0) (.cpMc 4 1 2 0)) = true ∧
    (gos (cpr (1 <<< 32) 0x10000 16 0 (b0.setCluster 0 { b0.cluster 0 with place := .stopping })) (.cpMc 4 1 2 0)) = true ∧
    (gos (sr [(1, 0x20)]) (.cpT 1 3 0)) = true ∧ (gos (sr [(1, 0x40), (3, 0x20)]) (.cpT 1 3 0)) = true ∧ (gos (sr [(1, 0x40), (3, 0x40)]) (.cpT 1 3 0)) = true ∧
    (gos (sr [(1, 0x40), (3, 0x40)] fl63) (.cpT 1 3 0)) = true ∧ (gos b0 (.cpStat 1 3) && gos b0 (.cpStat 2 3)) = true ∧
    ((cpy cp0 .queued fun c => { c with ceq := [1], chans := [(0, 9)] }).op 1).isSome = true ∧
    ((cpT []).op 1).isSome = true ∧ ((cpT tens).op 1).isSome = true ∧
    ((cpG 0 0).op 1).any (fun o => (cpG 0 0).copyTagless o { cp0 with kind := 1, guard := 0 } == none) = true ∧
    ((cpG 0x10 0).op 1).isSome = true ∧ ((cpG 0x11 0).op 1).isSome = true ∧ ((cpG 0x12 0).op 1).isSome = true ∧ ((cpG 0x6 0).op 1).isSome = true ∧ ((cpG 0x1 0).op 1).isSome = true ∧
    ((cpG 0x5 0).op 1).isSome = true ∧ ((cpG 0x5 1).op 1).isSome = true ∧
    ((cpy { cp0 with src := 0x00E5000000000000 } .running).op 1).isSome = true ∧
    ((cpT [] (fun c => { c with recD := some { recC with base := 0x21000 }, recS := some recC }) .running).op 1).isSome = true ∧
    ((cpT [] (fun c => { c with recD := some { recC with base := 0x00E0000000000000, guard := true, version := 1 }, recS := some recC }) .running).op 1).isSome = true ∧
    ((cpy { cp0 with kind := 3, dst := 1 <<< 32, len := 32 } .running).op 1).isSome = true ∧
    ((cpy { cp0 with off := 1 } .running (fun c => { c with chans := [(2, 1)] })).op 1).isSome = true := by
  decide +kernel

/-- The operands of a transfer: destination, source, length and guard word. -/
def fx (d x n g : DWord) (s : State := b0) : State := sr [(1, d), (2, x), (4, n), (5, g)] (fab s)
/-- How a plan ends: 0 whole, 1 a miss, else the cause. -/
def planIs (s : State) (get : Bool) (g : Option DWord) (n : Nat) : Nat :=
  match s.plan (fun need va => s.accessMe va need) get g (s.sreg 1) (s.sreg 2) n with | .ok _ => 0 | .miss _ => 1 | .fail c .. => c.toNat
def regionIs (s : State) (n : Nat) : Nat := match (s.regionCheck (s.sreg 1) n).1 with | .ok .. => 0 | .miss _ => 1 | .fail c .. => c.toNat
/-- `QPOST`'s record in memory at 0x10000, its BASE's second and third byte and its word given. -/
def qrec (b0' b1 b2 w : Byte) (f : State → State := id) : State :=
  f { sr [(1, 0), (2, 0x10000)] with mem := b0.mem ++ ([(0x10000, b0'), (0x10001, b1), (0x10002, b2), (0x10008, w)].filter (fun e => e.2 ≠ 0)) }
def mqo : Owed := { Owed.none with queue := some (0, 3) }

theorem wit_FabricInstructions_more :
    (gos (fx 0x40000000 0x10000 ((1 <<< 32) + 128) 0x10) (.put 4 1 2 0) && gos (fx 0x40000000 0x10000 ((1 <<< 32) + 128) 0x10) (.putG 4 1 2 0)) = true ∧
    (gos (fx 0x10000 0x40000000 ((1 <<< 32) + 128) 0x11) (.get 4 1 2 0) && gos (fx 0x10000 0x40000000 ((1 <<< 32) + 128) 0x11) (.getG 4 1 2 0)) = true ∧
    (planIs (fx 0x10000 0x40000000 128 0x10) false none 128 == 0x51 && gos (fx 0x10000 0x40000000 128 0x10) (.put 4 1 2 0)) = true ∧
    (planIs (fx 0x40000000 0x10000 128 0x11) true none 128 == 0x51 && gos (fx 0x40000000 0x10000 128 0x11) (.get 4 1 2 0)) = true ∧
    (planIs (fx 0x40000000 0x40000000 128 0x11) true none 128 == 0x51 && gos (fx 0x40000000 0x40000000 128 0x11) (.getG 4 1 2 0)) = true ∧
    (let s := fx 0x40000000 0x00E0000000000000 128 0x10
     planIs s false (some 0x10) 128 == 0x51 && gos s (.putG 4 1 2 0)) = true ∧
    (let s := fx 0x40000000 0x10000 128 0x10; let u : State := { s with fe := { s.fe with dead := [7] } }
     planIs u false none 128 == 0x50 && gos u (.put 4 1 2 0)) = true ∧
    (let s := fx 0x40000000 0x10000 128 0x10; let u : State := { s with fe := { s.fe with members := 1 } }
     planIs u false none 128 == 0x52 && gos u (.tsend 4 1 2 0)) = true ∧
    (let s := cold (fx 0x40000000 0x10000 128 0x10)
     planIs s false none 128 == 1 && gos s (.put 4 1 2 0) && gos s (.putG 4 1 2 0) && gos s (.tsend 4 1 2 0)) = true ∧
    (let s := cold (fx 0x10000 0x40000000 128 0x11)
     planIs s true none 128 == 1 && gos s (.get 4 1 2 0) && gos s (.getG 4 1 2 0)) = true ∧
    (gos (fx 0x40000001 0x10000 128 0x10) (.putG 4 1 2 0) && gos (fx 0x10000 0x40000001 128 0x11) (.getG 4 1 2 0)) = true ∧
    (gos (fx 0x40000000 0x10000 128 0x12) (.putG 4 1 2 0) && gos (fx 0x10000 0x40000000 128 0x10) (.getG 4 1 2 0)) = true ∧
    (gos (fx 0x40000000 0x10000 ((1 <<< 32) + 128) 3) (.tsend 4 1 2 0)) = true ∧ (gos (fx 0x40000000 0x10000 (1 <<< 36) 3) (.tsend 4 1 2 0)) = true ∧
    (gos (fx 0x40000000 0x10000 128 3 (opd (.tsend xf0 0 1) [] (fun o => { o with cu := 0 }))) (.tsend 4 1 2 0)) = true ∧
    (gos (opd (.tsend xf0 0 1) []) (.cntSet 2 1 3)) = true ∧ (gos (sr [(1, 0x10000), (2, 128)] (opd (.tsend xf0 0 1) [])) (.cntSet 2 1 3)) = true ∧
    (regionIs (sr [(1, 0x10000), (2, 64)]) 64 == 0x55 && gos (sr [(1, 0x10000), (2, 64)]) (.cntSet 2 1 3)) = true ∧
    (let s := sr [(1, 0x10000), (2, 128)]
     let u : State := { s with fe := { s.fe with regions := [{ wg := 0, counter := 7, pa := 0x10000, len := 64 }] } }
     regionIs u 128 == 0x55 && gos u (.cntSet 2 1 3)) = true ∧
    (let s := sr [(1, 0x10000), (2, 128)]
     let u : State := { s with fe := { s.fe with regions := [{ wg := 0, counter := 0, pa := 0x20000, len := 64 }] } }
     regionIs u 128 == 0 && gos u (.cntSet 2 1 3)) = true ∧
    (regionIs (cold (sr [(1, 0x10000), (2, 128)])) 128 == 1 && gos (cold (sr [(1, 0x10000), (2, 128)])) (.cntSet 2 1 3)) = true ∧
    (gos (sr [(3, 0x100)]) (.cntSet 2 1 3)) = true ∧
    (gos stq (.cntAdd 1 2) && !stq.earlierDone stq.actor stq.nextId clsW .device false) = true ∧
    (gos (sr [(1, 0xFFFFFFFFFF), (3, 255)]) (.cntAdd 1 3)) = true ∧ (gos (sr [(3, 256)]) (.cntRd 3 3) && gos (sr [(3, 256)]) (.cntAdd 1 3) && gos (sr [(3, 256)]) (.cntwait 1 3 0)) = true ∧
    (gos (mq { mq0 with ctx := 2 }) (.qpost 1 2) && gos (mq { mq0 with ctx := 2 }) (.qpop 1 4 3)) = true ∧
    (gos b0 (.qpost 1 2)) = true ∧ (gos (sr [(1, 1024)]) (.qpost 1 2)) = true ∧
    (let s := mq mq0; let u : State := { s with fe := { s.fe with owed := [mqo] } }; gos u (.qpost 1 2)) = true ∧
    (gos (sr [(1, 0), (2, 0x10001)]) (.qpost 1 2)) = true ∧ (gos (qrec 0 0 2 3) (.qpost 1 2)) = true ∧ (gos (qrec 0 0 2 17) (.qpost 1 2)) = true ∧
    (gos (qrec 0 0 2 4 (fun s => mq mq0 s)) (.qpost 1 2)) = true ∧ (gos (qrec 1 0 2 4) (.qpost 1 2)) = true ∧
    (gos (qrec 0 0 0 4 fun s => { s with mem := s.mem ++ [(0x1000C, 0)] }) (.qpost 1 2)) = true ∧
    (let s := qrec 0 0 0 4; let u : State := { s with mem := s.mem ++ [(0x10003, 0x50)] }; gos u (.qpost 1 2)) = true ∧
    (gos (sr [(3, 9)] fab) (.msend 2 3 1 0)) = true ∧ (gos (sr [(3, 0)] fab) (.msend 2 3 1 0)) = true ∧
    (let s := sr [(3, 7)] fab; gos { s with fe := { s.fe with dead := [7] } } (.msend 2 3 1 0)) = true ∧
    (gos (sr [(3, 1 <<< 26)] fab) (.msend 2 3 1 0)) = true ∧ (gos (sr [(3, 7), (2, 257)] fab) (.msend 2 3 1 0)) = true ∧
    (gos (sr [(1, 0x10000)] (mq mq0)) (.qpop 1 4 3)) = true ∧ (gos (sr [(3, 1024)] (mq mq0)) (.qpop 1 4 3)) = true ∧
    (gos (sr [(1, 0x10000)] (mq { mq0 with slots := [(0, .held), (3, .filled)], order := [3], waiting := [(7, pk 8 3)] })) (.qpop 1 4 3)) = true ∧
    ((plain b0).issuing && privileged (.peerClr 1)) = true ∧ (gos (sr [(1, 0x10000)]) (.peerClr 1)) = true ∧ (gos (sr [(1, 1024)]) (.peerStat 3 1)) = true ∧
    (let s := sr [(1, 7)] fab
     let u : State := { s with fe := { s.fe with dead := [7], rx := [((7, 1), (5, []))], nextSeq := [((7, 0), 9), ((7, 2), 4)] } }; gos u (.peerClr 1)) = true := by
  decide +kernel

/-- Every local port trains up. -/
def ups (s : State := fab) : State := { s with locals := (List.range 62).map (fun k => (k, { LocalPort.down with up := true })) }
def hasTx (s : State) (n : Nat) (x : TxPkt) : Bool := s.fe.tx.find? (fun z => z.id == n) == some x
def xfS (v : XferArgs) (f : Op → Op := id) (s : State := fab) : State := opd (.xfer v) [] f s
def xfg (g : DWord) : XferArgs := { xf0 with guard := some g, len := 128 }
def xtx (ty : BitVec 8) (n : Nat) : TxPkt := { tx .waiting ty 2 with pkt := { (tx .waiting ty 2).pkt with len := BitVec.ofNat 9 n, aux := 128 } }
def xget : XferArgs := { xf0 with get := true, dst := xf0.src, src := xf0.dst }
def mso (s : State := fab) (a : DWord := 0x10000) : State := opd (.msend 7 3 a []) [] id s
def gw1 (l : List (Nat × DWord)) (s : State := fab) : State := { s with fe := { s.fe with gateways := l } }
def way (m p : Nat) : DWord := BitVec.ofNat 64 (2 ^ 63 + m + p * 256)
def ts2 (th h : Word) : State :=
  let s := opd (.tsend xf0 0 h) [] id fab
  let o := s.ops.getD 0 (b0.newOp .token none 0 0 .slot)
  { s with ops := s.ops ++ [{ o with id := 2, kind := .tsend xf0 0 th }], nextId := 9 }

theorem wit_FabricSteps_more :
    (let x := { tx .waiting 9 0 with op := 0 }; hasTx (txd x) 5 x && (txd x).mayHold x.pkt) = true ∧
    (let x := tx .waiting 2 0; hasTx (txd x (opd .store [pw0] id fab)) 5 x) = true ∧
    (let x := xtx 6 0; hasTx (txd x (xfS xget)) 5 x) = true ∧ (let x := xtx 4 32; hasTx (txd x (xfS xf0)) 5 x) = true ∧
    (let x := xtx 4 30; hasTx (txd x (xfS { xf0 with len := 60 })) 5 x) = true ∧
    (let x := xtx 5 128; hasTx (txd x (xfS (xfg 0x10))) 5 x) = true ∧ (let x := xtx 5 128; hasTx (txd x (xfS (xfg 0x11))) 5 x) = true ∧
    (let x := xtx 5 128
     hasTx { (txd x (xfS (xfg 0x11))) with guards := [(0x10000, mkTag 1 0x10000 0)] } 5 x) = true ∧
    (let x := xtx 4 32; hasTx { (txd x (xfS xf0)) with poison := [(0x10000, 1)] } 5 x) = true ∧
    (let x := xtx 0 32; hasTx { (txd x (xfS { xf0 with dst := [{ off := 0, loc := .mem 0x20000 }] })) with nextId := 9 } 5 x) = true ∧
    (let x := xtx 0 30; hasTx { (txd x (xfS { xf0 with len := 60, dst := [{ off := 0, loc := .mem 0x20000 }] })) with nextId := 9 } 5 x) = true ∧
    (let x := xtx 8 32; hasTx (txd x mso) 5 x) = true ∧ (let x := xtx 8 32; hasTx (txd x (mso (cold fab))) 5 x) = true ∧
    (let x := xtx 8 32; hasTx (txd x (mso fab 0x40000000)) 5 x) = true ∧ (let x := xtx 8 32; hasTx (txd x (mso fab (1 <<< 56))) 5 x) = true ∧
    (let x := tx .sent 2 0; hasTx (txd x (ups (opd .store [pw0] id fab))) 5 x && (ups fab).hopUp (false, 14)) = true ∧
    (let x := { tx .sent 2 0 with pkt := { (tx .sent 2 0).pkt with route := 3 } }
     hasTx (txd x (opd .store [{ pw0 with loc := .peer 7 0x10000, st := .sent }] id fab)) 5 x) = true ∧
    (let x := { tx .sent 9 0 with op := 0, pkt := { (tx .sent 9 0).pkt with route := 3, aux := 3 } }
     let s := txd x; hasTx { s with fe := { s.fe with resync := [(7, r0, b0.me.fid)] } } 5 x) = true ∧
    (let x := { tx .sent 4 2 with pkt := { (tx .sent 4 2).pkt with route := 3 } }; hasTx (txd x (xfS xf0)) 5 x) = true ∧
    (let x := tx .busy 8 3; hasTx (txd x (mso fab)) 5 x) = true ∧ (let x := { tx .sent 2 0 with deadline := 2 ^ 40 }; hasTx (txd x) 5 x) = true ∧
    (let x := { tx .busy 8 3 with deadline := 2 ^ 40 }; hasTx (txd x) 5 x) = true ∧
    (fab.nextHop { pk 2 0 with dst := 5, src := 0, route := 2, viam := 9 } == some (false, 18)) = true ∧
    (fab.nextHop { pk 2 0 with dst := 32 } == none) = true ∧ (fab.nextHop { pk 2 0 with dst := 0x45, val := true, mid := 1 } == none) = true ∧
    ((gw1 [(4, way 0 3), (5, way 2 4)]).nextHop { pk 2 0 with dst := 32 } == some (false, 4)) = true ∧
    ((gw1 [(4, way 0 3), (5, way 2 4)]).nextHop { pk 2 0 with dst := 33 } == some (true, 3)) = true ∧
    ((gw1 [(8, way 0 3)]).nextHop { pk 2 0 with dst := 32, val := true, mid := 2 } == some (true, 3)) = true ∧
    (let s := { gw1 [(4, way 0 3)] with ports := [(3, { Port.down with st := .retrain })] }
     s.nextHop { pk 2 0 with dst := 33 } == some (true, 3) && s.hopUp (true, 3)) = true ∧
    (let s := { gw1 [(4, way 0 3)] with ports := [(3, { Port.down with st := .up, credits := [(0, 9)] })] }
     s.nextHop { pk 2 0 with dst := 33 } == some (true, 3) && s.hopUp (true, 3)) = true ∧
    (let s := { fab with locals := [(14, { LocalPort.down with up := true, fails := 1 })] }
     s.nextHop { pk 2 0 with dst := 7, src := 9 } == some (false, 14) && s.hopUp (false, 14)) = true ∧
    ((ups fab).nextHop { pk 2 0 with dst := 7, src := 3, route := 1 } == some (false, 14)) = true ∧
    ((mq mq0).msgQ 0 == some mq0) = true ∧ ((mq { mq1 with reserved := [(2, 7, 2 ^ 40)] }).msgQ 0).isSome = true ∧
    ((mq mq1 ups).msgQ 0 == some mq1) = true ∧
    ((mq { mq1 with waiting := [(7, pk 8 3), (9, { pk 8 3 with src := 9 })] } ups).msgQ 0).isSome = true ∧
    ((ts2 0 0).op 2).isSome = true ∧ ((ts2 0 1).op 2).isSome = true ∧ ((ts2 1 1).op 1).isSome = true ∧
    (decide (((cold (ts2 0 1)).op 2).isSome)) = true ∧ ((let s := ts2 0 1; { s with fe := { s.fe with dead := [7] } } : State).op 2).isSome = true ∧
    ((opd (.cntwait 0 0) []).op 1).isSome = true ∧ ((opd (.cntwait 0 (1 <<< 40)) []).op 1).isSome = true := by
  decide +kernel

/-- Device 7's packets have arrived with number 0 in every class. -/
def dup7 (s : State := fab) : State :=
  { s with fe := { s.fe with rx := [((7, 0), (1, [])), ((7, 1), (1, [])), ((7, 2), (1, [])), ((7, 3), (1, []))] } }
def isD (s : State) (p : Packet) : Bool := match s.receive p [p.ty.toNat] with | .dup => true | _ => false
def noCtx : State := { fab with ctxs := [] }
def cx7 (f : Ctx → Ctx) : State := ctxr f fab
def lease9 (s : State := fab) : State := { s with sects := (List.range 64).map (fun k => (0x10000 + 32 * k, { recExp := 2 ^ 40, wvt := 2 ^ 41 })) }
def owe7 (k : Nat) (s : State := dup7 (ups fab)) : State :=
  { s with fe := { s.fe with owed := [{ Owed.none with reply := some (ackOf (pk 2 0) false), gwct := k }] } }
def pg5 (ver n : Nat) (ts : List DWord) : Packet :=
  { pk 5 2 with len := BitVec.ofNat 9 n, aux := BitVec.ofNat 32 (ver * 2 ^ 20 + 3), payload := List.replicate n 1, trailer := ts }
def crcB : Nat := (crc32c (List.replicate 128 1)).toNat
def ase48 (s : State := ups fab) : State := { s with ase := List.replicate 48 (ownerOf 0x10000, .peer 7, .packet (pk 3 0)) }
def p9 (k : Nat) : Packet := { pk 9 0 with aux := BitVec.ofNat 32 k, payload := List.replicate 24 0, len := 24 }
def inv9 (r : Option Packet) : State := { dup7 with invs := [{ inv0 with reply := r }] }

theorem wit_FabricTargets_more :
    (let p := { pk 1 0 with dst := 9 }; p.dst ≠ fab.fe.devid) = true ∧ (formed { pk 1 0 with rsv := 1 }) = false ∧ (formed (pk 2 1)) = false ∧
    (let s := { fab with fe := { fab.fe with dead := [7] } }; s.shunned (pk 2 0).src && s.shunned (pk 8 3).src) = true ∧
    (let s := { fab with fe := { fab.fe with rx := (List.range 4096).map (fun k => ((BitVec.ofNat 16 (8 + k), 0), (0, [1]))) } }
     s.noBitmap { pk 2 0 with seq := 1 }) = true ∧
    (noCtx.refuses (pk 1 0) == some 1 && noCtx.refuses (pk 2 0) == some 1 && noCtx.refuses (p9 3) == some 1) = true ∧
    ((cx7 fun c => { c with share := [] }).refuses (pk 4 2) == some 1) = true ∧ ((cx7 fun c => { c with live := false }).refuses (pk 8 3) == some 5) = true ∧
    (fab.refuses { pk 2 0 with addr := BitVec.ofNat 40 (hbmEnd - 31) } == some 2 && (fab.refuses { pk 2 0 with addr := BitVec.ofNat 40 (hbmEnd - 32) } == none)) = true ∧
    (fab.refuses { pk 4 2 with addr := BitVec.ofNat 40 (hbmEnd - 31) } == some 2 && (fab.refuses { pk 6 2 with aux := 64, addr := BitVec.ofNat 40 (hbmEnd - 31) } == some 2)) = true ∧
    (isD (dup7 noCtx) (pk 2 0) || (dup7 noCtx).refuses (pk 2 0) == some 1) = true ∧
    (let s := { fab with poison := [(0x10000, 1)] }; s.readPoisoned (pk 1 0) && s.readPoisoned { pk 6 2 with aux := 64 } && s.readPoisoned { pk 7 2 with aux := 128 }) = true ∧
    (isD dup7 (pk 2 0) && isD dup7 (pk 4 2) && isD dup7 (pg5 1 128 [0]) && isD dup7 (pk 8 3)) = true ∧
    (isD (dup7 (ups fab)) (pk 2 0)) = true ∧ (isD (owe7 (2 ^ 40)) (pk 2 0)) = true ∧ (isD (owe7 0) (pk 2 0)) = true ∧
    (isD dup7 { pk 1 0 with aux := 3 } && isD dup7 { pk 6 2 with aux := 64 } && isD dup7 { pk 7 2 with aux := 128 }) = true ∧
    (fresh (ups fab) { pk 1 0 with aux := 3, tag := 9 } [1]) = true ∧ (fresh (lease9 (ups fab)) (pk 1 0) [1]) = true ∧
    (fresh (ups fab) { pk 6 2 with aux := 256 } [6]) = true ∧ (fresh (ups { fab with guards := [(0x10000, 5), (0x10080, 6)] }) { pk 7 2 with aux := 256 } [7]) = true ∧
    (fresh (ups fab) { pk 2 0 with aux := 0xF000000F } [2]) = true ∧ (fresh (lease9 (ups fab)) { pk 2 0 with aux := 0xF000000F } [2]) = true ∧
    (fresh (lease9 fab) { pk 2 0 with aux := 0 } [2]) = true ∧ (fresh (lease9 fab) { pk 4 2 with addr := 0x10003 } [4]) = true ∧
    (fresh (ups { fab with guards := [(0x10000, 5), (0x10080, 6)] }) { pk 4 2 with addr := 0x1007F } [4]) = true ∧
    (fresh (ups fab) (pg5 1 256 [0, 0]) [5]) = true ∧ (fresh (lease9 fab) (pg5 1 256 [0, 0]) [5]) = true ∧
    (fresh (ups fab) (pg5 1 128 [mkTag 2 0 0]) [5] && (receiverCheck (mkTag 2 0 0) 1 []).isSome) = true ∧
    (fresh (ups fab) (pg5 1 256 [mkTag 1 0 (crc32c (List.replicate 128 1)), mkTag 1 0 0]) [5]) = true ∧
    (fresh (ups fab) (pg5 0 256 [mkTag 1 0 (crc32c (List.replicate 128 1)), mkTag 3 0 (crc32c (List.replicate 128 1))]) [5]) = true ∧
    (fresh ase48 (pk 3 0) [3] && decide (48 ≤ (ase48.aseOf (ownerOf 0x10000) (.peer 7)).length)) = true ∧
    (isD dup7 (pk 3 0)) = true ∧ (let s := dup7 (ups fab); isD { s with fe := { s.fe with dedup := [(7, [(0, ackOf (pk 3 0) false)])] } } (pk 3 0)) = true ∧
    (let s := dup7 (ups fab); isD { s with fe := { s.fe with dedup := [(7, [(0, answerTo (pk 3 0) 0x12)])] } } (pk 3 0)) = true ∧
    (fresh (ups fab) (pk 8 3) [8]) = true ∧ (fresh (mq { mq0 with slots := (List.range 16).map (fun j => (j, MSlot.held)) } ups) (pk 8 3) [8]) = true ∧
    (fresh (lease9 (mq mq0 ups)) (pk 8 3) [8]) = true ∧ (fresh (mq { mq0 with reserved := [(2, 7, 9)] } ups) (pk 8 3) [8]) = true ∧
    (fresh fab (p9 1) [9]) = true ∧ (isD (inv9 none) (p9 1)) = true ∧ (isD (inv9 (some (p9 1))) (p9 1)) = true ∧ ((p9 2).aux.setWidth 8 ≠ 1#8) = true ∧
    (formed { p9 3 with rsv := 1 }) = false ∧ (let s := { fab with fe := { fab.fe with dead := [7] } }; s.shunned (p9 3).src) = true ∧
    (let s := { ups fab with fe := { fab.fe with rx := [((7, 0), (5, [2])), ((7, 2), (5, [2])), ((9, 2), (4, []))], dedup := [(7, [(0, ackOf (pk 3 0) false)])] } }
     formed (p9 3) && s.refuses (p9 3) == none) = true := by
  decide +kernel

/-- An answer of device 7. -/
def an (ty : BitVec 8) (aux : Word) (n : Nat := 32) : Packet :=
  { pk ty 1 with aux := aux, len := BitVec.ofNat 9 n, payload := (List.range n).map (BitVec.ofNat 8) }
def snt (ty : BitVec 8) (tc : BitVec 2) (f : Packet → Packet := id) : TxPkt :=
  { tx .sent ty tc with pkt := f { (tx .sent ty tc).pkt with aux := 128 } }
def ldS (dst : LoadDst) (f : Op → Op := id) : State := opd (.load dst) [{ pt0 with loc := .peer 7 0x10000, st := .sent }] f fab
def hasR (s : State) (p : Packet) (x : TxPkt) (tc : Nat) : Bool := s.hears p p.ty.toNat && s.txFor p [tc] == some x
def atS (k : OpKind) (f : Part → Part := id) (g : Op → Op := id) : State := opd k [f { pt0 with st := .sent, lanes := [(0, 0), (3, 4)] }] g fab
def carry : XferArgs := { xget with guard := some 0x11, len := 128 }
def tg1 (v : Nat) (c : Word) : DWord := mkTag v 0x10000 c

theorem wit_FabricAnswers_more :
    (hasR (txd (tx .sent 1 0) (ldS (.vec 9 4 0))) (an 0x10 7) (tx .sent 1 0) 0) = true ∧
    (let x := { tx .sent 1 0 with pkt := { (tx .sent 1 0).pkt with aux := 3 } }
     hasR (txd x (ldS (.vec 9 4 0))) (an 0x10 7 128) x 0) = true ∧
    (let s := txd (tx .sent 1 0); let u : State := { s with fe := { s.fe with dead := [7] } }
     !u.hears (pk 0x11 1) 0x11 && !u.hears (pk 0x10 1) 0x10 && !u.hears (pk 0x12 1) 0x12) = true ∧
    (let s := txd (tx .sent 1 0); let u : State := { s with fe := { s.fe with dead := [7] } }
     !u.hears (pk 0x13 1) 0x13 && !u.hears (pk 0x14 1) 0x14 && !u.hears (pk 0x15 1) 0x15 && !u.hears (pk 0x16 1) 0x16) = true ∧
    (let s := txd (tx .sent 1 0); let u : State := { s with fe := { s.fe with replayed := [(7, 2, 0)] } }
     u.hears { an 0x11 2 with dup := true } 0x11 && (u.txFor { an 0x11 2 with dup := true } [2]).isNone) = true ∧
    (hasR (txd (tx .sent 1 0) (ldS (.vec 9 4 0))) (an 0x11 0) (tx .sent 1 0) 0) = true ∧ (hasR (txd (snt 6 2) (xfS xget)) (an 0x11 2) (snt 6 2) 2) = true ∧
    (let x := { snt 9 0 with op := 0 }; hasR (txd x) (an 0x11 0) x 0) = true ∧
    (let x := { snt 9 0 with op := 1 }; hasR { txd x with invs := [{ inv0 with waiting := [7, 9] }] } (an 0x11 0) x 0) = true ∧
    (let x := { snt 9 0 with op := 0, pkt := { (snt 9 0).pkt with aux := 3 } }; let s := txd x
     hasR { s with fe := { s.fe with resync := [(7, r0, 0)] } } (an 0x11 0) x 0) = true ∧
    (hasR (txd (snt 2 0) (opd .store [pw0] id fab)) (an 0x11 0) (snt 2 0) 0) = true ∧
    (hasR (txd (snt 3 0) (atS (.atomic { op := 0, wide := false, tag := 1, tagHi := 0 } false 0))) { an 0x11 0 with addr := 0 } (snt 3 0) 0) = true ∧
    (hasR (txd (snt 3 0) (atS (.atomic { op := 0, wide := false, tag := 3, tagHi := 0 } false 0))) { an 0x11 0 with addr := 3 } (snt 3 0) 0) = true ∧
    (let x := snt 4 2 (fun p => { p with len := 16 }); hasR (txd x (xfS { xf0 with acked := 8, sent := 32 })) (an 0x11 2) x 2) = true ∧
    (let x := snt 4 2 (fun p => { p with len := 24 }); hasR (txd x (xfS { xf0 with acked := 8, sent := 32 })) (an 0x11 2) x 2) = true ∧
    (let x := snt 5 2 (fun p => { p with len := 128 }); hasR (txd x (xfS { xfg 0x10 with sent := 128 })) (an 0x11 2) x 2) = true ∧
    (hasR (txd (snt 8 3) mso) (an 0x11 3) (snt 8 3) 3) = true ∧
    (hasR (txd (snt 3 0) (atS (.atomic { op := 0, wide := false, tag := 9, tagHi := 0 } true 0))) (an 0x12 0 8) (snt 3 0) 0) = true ∧
    (hasR (txd (snt 3 0) (atS (.atomic { op := 0, wide := true, tag := 0xE, tagHi := 0xF } true 6))) (an 0x12 0 16) (snt 3 0) 0) = true ∧
    (hasR (txd (snt 3 0) (atS (.cas false 0))) (an 0x12 0 8) (snt 3 0) 0) = true ∧
    (hasR (txd (snt 3 0) (atS (.cas false 0) (fun p => { p with writable := false }) (fun o => { o with argv := [(0, [0x03020100, 1]), (3, [5, 1])] })))
      (an 0x12 0 8) (snt 3 0) 0) = true ∧
    (hasR (txd (snt 3 0) (atS (.cas true 6) (fun p => { p with writable := false, lanes := [(0, 0), (3, 8)] }) (fun o =>
      { o with argv := [(0, [0x03020100, 0x07060504, 1, 1]), (3, [0x0B0A0908, 0x0F0E0D0C, 1, 1])] }))) (an 0x12 0 16) (snt 3 0) 0) = true ∧
    (let x := { snt 6 2 with got := [(0, 32)] }; hasR (txd x (xfS xget)) (an 0x13 0) x 2) = true ∧
    (let x := { snt 6 2 with got := [(32, 32)] }; hasR (txd x (xfS { xget with len := 128 })) { an 0x13 0 with addr := 0 } x 2) = true ∧
    (let x := { snt 6 2 with pkt := { (snt 6 2).pkt with aux := 32 } }; hasR (txd x (xfS xget)) { an 0x13 0 with addr := 0 } x 2) = true ∧
    (hasR (txd (snt 6 2) (xfS { xget with len := 60, dva := 0x10003, dst := [{ off := 0, loc := .mem 0x10003 }] })) { an 0x13 0 with addr := 0 } (snt 6 2) 2) = true ∧
    (hasR (txd (snt 7 2) (xfS carry)) { an 0x13 1 128 with addr := 0, trailer := [0, 0] } (snt 7 2) 2) = true ∧
    (hasR (txd (snt 7 2) (xfS { carry with guard := some 0x21 })) { an 0x13 1 128 with addr := 0, trailer := [mkTag 1 0x40000000 0, 0] } (snt 7 2) 2) = true ∧
    (hasR (txd (snt 7 2) (xfS carry)) { an 0x13 1 128 with addr := 0, trailer := [mkTag 1 0x40000000 (crc32c (an 0x13 1 128).payload), 0] } (snt 7 2) 2) = true ∧
    (hasR (txd (snt 8 3) mso) (an 0x14 5) (snt 8 3) 3) = true ∧ (hasR (txd (snt 3 0) (atS (.cas false 0))) (an 0x14 1030) (snt 3 0) 0) = true ∧
    (let x := { snt 8 3 with st := .busy }; hasR (txd x mso) (an 0x14 5) x 3) = true ∧ (let x := { snt 8 3 with st := .busy, backoff := 64 }; hasR (txd x mso) (an 0x15 5) x 3) = true ∧
    (hasR (txd (snt 8 3) mso) (an 0x15 5) (snt 8 3) 3) = true ∧ (hasR (txd (snt 8 3) mso) (an 0x16 0x307) (snt 8 3) 3) = true ∧
    (hasR (txd (snt 1 0) (ldS (.vec 9 4 0))) (an 0x16 4) (snt 1 0) 0) = true ∧ (hasR (txd (snt 1 0) (ldS .none)) (an 0x16 4) (snt 1 0) 0) = true ∧
    (hasR (txd (snt 1 0) (ldS .none fun o => { o with cls := 0 })) (an 0x16 4) (snt 1 0) 0) = true ∧
    (let x := snt 5 2 (fun p => { p with len := 128 }); hasR (txd x (xfS { xfg 0x10 with sent := 128 })) (an 0x16 0x292) x 2) = true ∧
    (hasR (txd (snt 4 2) (xfS xf0)) (an 0x16 0x202) (snt 4 2) 2) = true ∧ (hasR (txd (snt 2 0) (opd .store [pw0] id fab)) (an 0x16 1) (snt 2 0) 0) = true ∧
    (let x := { snt 9 0 with op := 0, pkt := { (snt 9 0).pkt with aux := 3 } }; let s := txd x
     hasR { s with fe := { s.fe with resync := [(7, r0, s.me.fid)] } } (an 0x16 1) x 0) = true := by
  decide +kernel

/-- A flit that fails its CRC. -/
def torn (f : Flit) : Flit := { f with crc := crc64 f.body + 1 }
def pst (st : LinkSt) : Port := { Port.down with st := st }
def ok? (s : State) (f : Flit) : Bool := (s.port 0).st == .up && f.good
def cr9 : Port := { up0 with held := [], credits := (List.range 12).map (fun c => (c, 9)) }
def ackf : Flit := fl { fl0 with ack := 1, ackv := true, crvc := 2, crn := 3 }
def sl7 : Port := { up0 with slices := (List.range 7).map (fun v => ((1, v), List.replicate 640 (BitVec.ofNat 8 v))) }
def locl (p : LocalPort) : State := { b0 with locals := [(0, p)] }

theorem wit_Links_more :
    ((prt (pst .train)).port 0 == pst .train) = true ∧ (ok? (prt { up0 with lastNak := some 19900 }) (torn fl0)) = false ∧
    (ok? (prt { up0 with lastNak := some 19000 }) (torn fl0)) = false ∧ (ok? (prt { up0 with lastNak := some 19900 }) (fl { fl0 with seq := 5 })) = true ∧
    (ok? (prt up0) (torn ts1f)) = false ∧ (ok? (prt up0) ackf && (up0.held.findIdx? (fun h => h.seq == ackf.ack)) == some 0) = true ∧
    (ok? (prt { up0 with credits := [(2, 4)] }) ackf) = true ∧ (ok? (prt up0) (fl { fl0 with pvc := 7, first := 16 })) = true ∧
    ((prt cr9).port 0 == cr9 && !(pk 2 0).bytes.isEmpty) = true ∧ ((prt { cr9 with txSeq := 4095 }).port 0).queue.isEmpty = true ∧
    (!(pk 4 2).bytes.isEmpty && ({ prt cr9 with now := 9 } : State).now == 9) = true ∧
    ({ prt up0 with lines := [(0, { wait := List.replicate 30 fl0, count := 4095 })] } : State).lines.isEmpty = false ∧
    ({ prt up0 255 with lines := [(255, { wait := [fl0], count := 5 })] } : State).lines.isEmpty = false ∧
    ((prt { up0 with ackAt := 17000 }).port 0).held.isEmpty = false ∧ ((prt { up0 with replays := 7 }).port 0).held.isEmpty = false ∧
    ((prt { Port.down with waves := lit }).port 0).lockedAll 0 = true ∧ (ts1f.good && ((prt { Port.down with waves := lit }).port 0).lockedAll 0) = true ∧
    ((prt { Port.down with lastTs1 := 19500 }).port 0).st == .down ∧ ((prt Port.down).port 0 == Port.down) = true ∧
    (ts1f.good && (prt (pst .train)).port 0 == pst .train) = true ∧ (ts1f.good && (prt (pst .retrain)).port 0 == pst .retrain) = true ∧
    (ts1f.good && (prt (pst .credit)).port 0 == pst .credit) = true ∧
    (let q := { pst .retrain with ts2 := true, held := [fl0], txSeq := 9, rxNext := 8 }; ts1f.good && (prt q).port 0 == q) = true ∧
    (let q := { pst .retrain with retrains := 2, held := [fl0], queue := [(0, (pk 2 0).bytes)] }; (prt q).port 0 == q) = true ∧
    (let q := { pst .train with since := 15000 }; (prt q).port 0 == q) = true ∧
    (let q := { up0 with waves := [] }; (prt q).port 0 == q) = true ∧ (let q := { up0 with waves := [], since := 19500 }; (prt q).port 0 == q) = true ∧
    ((prt sl7).port 0 == sl7 && (0x1A7 : BitVec 20).toNat % 16 == 7) = true ∧
    (let q := { up0 with waves := [(7, { Wave.dark with good := 7, locked := false })] }; (prt q).port 0 == q && (0x1A7 : BitVec 20).toNat % 16 == 7) = true ∧
    (let q := { up0 with waves := [(7, { Wave.dark with bad := 3, locked := true })] }; (prt q).port 0 == q && (7 : Nat) == 7) = true ∧
    (let q := { up0 with waves := [(7, { Wave.dark with bad := 2, locked := true })] }; (prt q).port 0 == q && (7 : Nat) == 7) = true ∧
    (let q := { up0 with waves := [(7, { Wave.dark with good := 2, locked := false })] }; (prt q).port 0 == q && (7 : Nat) == 7 && (8 : Nat) == 8) = true ∧
    ((locl { LocalPort.down with fails := 2, queue := [(3, pk 2 0)], other := 4 }).localPort 0).fails = 2 ∧
    ((locl { LocalPort.down with up := true, fails := 1, queue := [(3, pk 2 0), (0, pk 1 0)] }).localPort 0).fails = 1 := by
  decide +kernel

def spn (f : State → State := id) : State := f (its (pip q3))
def evo (l : List (Nat × DWord)) (e : EvCnt) : State := sr l (cur fun c => { c with ev := [(0, { e with owner := 0x1001 })] })

theorem wit_WorkInstructions_more :
    (gos (spn (fun s => fl63 s)) (.spawn 0 1 2 0) && stuck (spn (fun s => fl63 s))) = true ∧ (gos (spn (fun s => fl63 s)) (.spawnv 12 0 0) && stuck (spn (fun s => fl63 s))) = true ∧
    (gos (pip q3) (.spawn 3 1 2 0) && gos (pip q3) (.spawnv 8 3 0)) = true ∧ (gos (pip q3) (.spawnv 12 0 0) && decide ((pip q3).vtagOf 12 = 0)) = true ∧
    (gos (spn fun s => me (fun f => { f with mask := 0 }) s) (.spawnv 12 0 0)) = true ∧
    (gos (spn fun s => sr [(1, 5), (2, 7)] s) (.spawn 0 1 2 0)) = true ∧
    (gos (sr [(1, 1)] (lq lq0)) (.launch 1 2 0)) = true ∧ (gos b0 (.launch 1 2 0)) = true ∧ (gos (sr [(2, 64)] (lq lq0)) (.launch 1 2 0)) = true ∧
    (gos (lq { lq0 with ctx := some 2 }) (.launch 1 2 0)) = true ∧ (gos (lq { lq0 with deviceFed := false }) (.launch 1 2 0)) = true ∧
    (gos (fl63 (lq lq0)) (.launch 1 2 0) && stuck (fl63 (lq lq0))) = true ∧
    (gos (wgr fun w => { w with preempt := some 3 }) (.preemptPt 1 2)) = true ∧
    (gos (slt (fun t => { t with runs := some 0, items := 0x30007 }) (pip { q3 with claimed := 5 })) .itemdone) = true ∧
    (gos (evo [(1, 0x13)] EvCnt.zero) (.evctl 0 1)) = true ∧ (gos (evo [(1, 0x800)] EvCnt.zero) (.evctl 0 1)) = true ∧
    (gos (plain (evo [(1, 1)] EvCnt.zero)) (.evctl 0 1)) = true ∧ (gos (plain (evo [(1, 0x501)] EvCnt.zero)) (.evctl 0 1)) = true ∧
    (gos (evo [(1, 0x712)] { EvCnt.zero with count := 5, ovf := true }) (.evctl 0 1)) = true ∧
    (gos (evo [(1, 0x12)] { EvCnt.zero with count := 5, ovf := true, event := 0x11, en := true }) (.evctl 0 1)) = true ∧
    (gos (evo [(1, 0)] { EvCnt.zero with count := 5, ovf := true }) (.evread 0 1)) = true ∧
    (gos (ctxr (fun c => { c with trbase := 0x10000, trctl := 43 })) (.tmark 1)) = true ∧ (gos (ctxr (fun c => { c with trbase := 0x10000, trctl := 7 })) (.tmark 1)) = true ∧
    (gos (ctxr (fun c => { c with trbase := 1 <<< 56, trctl := 9 })) (.tmark 1)) = true ∧
    (gos (sr [(1, 0x77)] { trc with mem := trc.mem ++ [(0x10000, 0x13)] }) (.tmark 1)) = true := by
  decide +kernel

def spo (q : StageQ) (l : List (BitVec 128)) (f : Op → Op := id) : State := opd (.spawn 0 l) [] f (pip q)
def blkN (l : List Host.Cell) (f : LQueue → LQueue := id) : State := let s := blk l; lq (f qrun) s
def tst (op ctl : Byte) (v : Byte := 0) : List Host.Cell :=
  [(0x10010, op * 2 + ctl), (0x10019, 2), (0x1001A, 1)] ++ (if v = 0 then [] else [(0x10020, v)])
def lqs (q : LQueue) : State := let s := blk []; lq q s

theorem wit_WorkSteps_more :
    ((spo q3 [9]).op 1).isSome = true ∧ ((spo { q3 with items := List.replicate 16 1 } [9]).op 1).isSome = true ∧
    ((spo q3 [9] fun o => { o with cls := 0 }).op 1).isSome = true ∧ ((cold (spo q3 [9])).op 1).isSome = true ∧
    (let s := spo q3 [9] fun o => { o with id := 2, gate := some { mark := 2, ot := 0, gwct := 0 } }; ({ s with ops := s.ops ++ stq.ops } : State).op 2).isSome = true ∧
    (let s := spo q3 [9]; let o := s.ops.getD 0 (b0.newOp .token none 0 0 .slot)
     ({ s with ops := s.ops ++ [{ o with id := 3, kind := .spawn 0 [5] }] } : State).op 3).isSome = true ∧
    ((opd (.launch 0x10000 0 3) [] id (lq { lq0 with fifo := List.replicate 256 (0x10000, 1) })).op 1).isSome = true ∧
    ((opd (.launch 0x10000 0 3) [] (fun o => { o with cls := 0 }) (lq lq0)).op 1).isSome = true ∧
    ((lq { lq0 with st := .run, gwct := 2 ^ 40 }).queue 0).ctx.isSome = true ∧ ((lq LQueue.unbound).queue 0).ctx.isNone = true ∧
    ((lq { lq0 with st := .run, deviceFed := false }).queue 0).block = 0 ∧ ((lqs { lq0 with st := .run, deviceFed := false, bell := true, via := some 0x10008 }).queue 0).bell = true ∧
    ((lq { lq0 with st := .run, block := 0x10001 }).queue 0).block = 0x10001 ∧ ((lq { lq0 with st := .run, block := 1 <<< 56 }).queue 0).block ≠ 0 ∧
    ({ blkN [(0x10010, 0x20)] with poison := [(0x10080, 1)] } : State).poisoned 0x10080 = true ∧
    headerBad ((blkN [(0x10012, 0x20)]).hbmBytes 0x10000 256) = true ∧ headerMisaligned ((blkN [(0x10010, 0x22), (0x10018, 1)]).hbmBytes 0x10000 256) = true ∧
    blkBits ((blkN [(0x10010, 0x21)]).hbmBytes 0x10000 256) 0x10 0 1 = 1 ∧ blkBits ((blkN (tst 1 0x20)).hbmBytes 0x10000 256) 0x10 1 3 = 1 ∧
    blkBits ((blkN (tst 1 0x20 5)).hbmBytes 0x10000 256) 0x10 1 3 = 1 ∧ blkBits ((blkN (tst 1 0x30 5)).hbmBytes 0x10000 256) 0x10 4 1 = 1 ∧
    blkBits ((blkN (tst 2 0x30)).hbmBytes 0x10000 256) 0x10 1 3 = 2 ∧ blkBits ((blkN (tst 3 0x20 1)).hbmBytes 0x10000 256) 0x10 1 3 = 3 ∧
    blkBits ((blkN (tst 4 0x30)).hbmBytes 0x10000 256) 0x10 1 3 = 4 ∧
    blkBits ((blkN [(0x10010, 0x22), (0x1001F, 1)]).hbmBytes 0x10000 256) 0x10 1 3 = 1 ∧
    (let s := good; ({ s with queues := [(0, { qrun with last := some 0 })] } : State).grids.length == s.grids.length) = true ∧
    (let s := blkN [(0x10010, 0x60), (0x10054, 16), (0x10056, 1), (0x10062, 0x10)] fun q => { q with last := some 0 }
     !(s.grid 0).done && blkBits (s.hbmBytes 0x10000 256) 0x10 6 1 == 1) = true ∧
    (let s := blkN [(0x10010, 0x60), (0x10054, 16), (0x10056, 1), (0x10062, 0x10)]; valid s == 0) = true ∧
    (let s := blkN [(0x10010, 0x20), (0x10011, 1), (0x10029, 2), (0x1002A, 1), (0x10030, 7), (0x10054, 16), (0x10056, 1), (0x10062, 0x10)]; valid s == 0) = true ∧
    (valid bad != 0) = true ∧
    ((lq { lq0 with st := .parked }).queue 0).st = .parked ∧ ((lqs { qrun with st := .serial, held := good.hbmBytes 0x10000 256 }).queue 0).st = .serial ∧
    ((lqs { qrun with st := .status, code := 0x0123, link := 8, held := (List.range 256).map (BitVec.ofNat 8), ot := 2 ^ 40 }).queue 0).st = .status ∧
    ((lqs { qrun with st := .status, code := 0x0123, link := 8, held := (List.range 256).map (BitVec.ofNat 8) }).queue 0).link = 8 ∧
    ((lqs { qrun with st := .status, code := 3, block := 1 <<< 56 }).queue 0).code = 3 ∧
    (let s := lqs { qrun with st := .status, code := 0x0010, link := 0, held := (List.range 256).map (BitVec.ofNat 8) }
     (lease9 s).queueSettled 0) = true ∧
    ((lqs { qrun with st := .hit, held := good.hbmBytes 0x10000 256 }).queue 0).st = .hit ∧
    ((lqs { qrun with st := .hit, held := (blkN (tst 5 0x20)).hbmBytes 0x10000 256 }).queue 0).st = .hit ∧
    ((lqs { qrun with st := .hit, held := (blkN (tst 5 0x20)).hbmBytes 0x10000 256, ot := 2 ^ 40 }).queue 0).st = .hit ∧
    (let s := pend; let x := s.grid 0
     ({ s with grids := [(0, { x with launch := { x.launch with regs := 1024, slots := 8, widthCode := 2, scratch := 0x200000 } })] } : State).fits [(0, 0, 0)] [] == false) = true ∧
    ((pend.setCluster 0 { pend.cluster 0 with since := 0 }).cluster 0).promoted = false ∧
    ({ pend with now := 2000000 } : State).now = 2000000 ∧ ((pip q3).gridEnded 0) = false ∧
    ((ended (some (0x10041, 1))).grid 0).done = false ∧ ((ended (some (1 <<< 56, 1))).grid 0).done = false ∧
    (let s := ended none; (s.setGrid 0 { s.grid 0 with block := 1 <<< 56 }).gridEnded 0) = true ∧
    (let s := ended none; (s.setGrid 0 { s.grid 0 with gwct := 2 ^ 40 }).gridPerformed 0) = false ∧ (place (lease9 (ended (some (0x10040, 1)))) 0x10040 .write 0x10040) = true ∧
    ((ended (some (0x10040, 1))).gridEnded 0) = true ∧ ((ended none).gridPerformed 0) = true ∧
    (place (ended none) 0x10038 .write 0x10038 && place (ended (some (0x10040, 1))) 0x10040 .write 0x10040) = true ∧
    (let s := lqs { qrun with st := .hit, held := (blkN (tst 5 0x20)).hbmBytes 0x10000 256 }; place s 0x10200 .amo 0x10200) = true ∧
    (let s := lqs { qrun with st := .hit, held := (blkN (tst 5 0x20)).hbmBytes 0x10000 256, ot := 2 ^ 40 }; place s 0x10200 .amo 0x10200) = true ∧
    ((lqs { qrun with st := .hit, held := List.replicate 256 (0 : Byte) }).queue 0).st = .hit ∧
    ((lqs { qrun with st := .hit, held := (blkN [(0x10010, 0x60), (0x10054, 16), (0x10056, 1), (0x10062, 0x10)]).hbmBytes 0x10000 256, last := some 0 }).queue 0).st = .hit ∧
    ((lqs { qrun with st := .hit, held := bad.hbmBytes 0x10000 256 }).queue 0).st = .hit := by
  decide +kernel

/-- The machine with one entry in its agenda. -/
def ag (x : Turn) (s : State := b0) : State := { s with agenda := [x] }
/-- Fibre 1 is frozen outside a clause. -/
def frq (f : Fibre → Fibre) : State := let s := frz 1 false; s.setFib { r0 with idx := 1 } (f (s.fib { r0 with idx := 1 }))
def r1 : FRef := { r0 with idx := 1 }

theorem wit_LeaseTimeAndRuntime :
    (ag (.tick 4 [(3, 4), (3, 8)])).agenda = [.tick 4 [(3, 4), (3, 8)]] ∧ (ag (.tick 4 [(3, 4), (3, 8)])).ctl.phase ≠ .frozen ∧
    (let s : State := { ag (.tick 8 [(3, 0), (5, 8)]) with lags := [(3, 8), (5, 1)], now := 100 }
     s.agenda = [.tick 8 [(3, 0), (5, 8)]] ∧ s.ctl.phase ≠ .frozen ∧ ∀ k, Tbl.get s.lags k 0 ≤ 8) ∧
    (let s := ag (.tick 4 []); ({ s with ctl := { s.ctl with phase := .frozen } } : State).ctl.phase = .frozen) ∧
    (let s := ag (.resume r0 .again); s.agenda = [.resume r0 .again] ∧ (s.fib r0).st ≠ .frozen) ∧
    (let s := ag (.resume r1 .again) (frz 1 true); s.agenda = [.resume r1 .again] ∧ s.ctl.phase = .ready ∧ (s.fib r1).st = .frozen ∧ (s.fib r1).inside = true) ∧
    (let s := ag (.resume r1 .again) (frq fun f => { f with inside := false, fault := some { fr0 with pc := 0x20040 } })
     s.agenda = [.resume r1 .again] ∧ s.ctl.phase = .ready ∧ (s.fib r1).st = .frozen ∧ (s.fib r1).inside = false ∧
     (s.fib r1).fault = some { fr0 with pc := 0x20040 } ∧ (s.fib r1).doomed = false ∧ (s.fib r1).dbg = .run) ∧
    (let s := ag (.resume r1 .again) (frq fun f => { f with inside := false, pc := 0x20040, fault := some { fr0 with pc := 0x20040 } })
     s.agenda = [.resume r1 .again] ∧ s.ctl.phase = .ready ∧ (s.fib r1).fault = some { fr0 with pc := 0x20040 }) ∧
    (let s := ag (.resume r1 (.goTo 0x20010)) (frz 1 true); s.agenda = [.resume r1 (.goTo 0x20010)] ∧ s.ctl.phase = .ready ∧ (s.fib r1).st = .frozen ∧
     (0x20010 : DWord).toNat % 4 = 0 ∧ (s.fib r1).doomed = false ∧ (s.fib r1).dbg = .run) ∧
    (let s := ag (.resume r1 (.goTo 0x20011)) (frz 1 true); s.agenda = [.resume r1 (.goTo 0x20011)] ∧ s.ctl.phase = .ready ∧ (s.fib r1).st = .frozen ∧
     (0x20011 : DWord).toNat % 4 ≠ 0) ∧
    (let s := ag (.resume r1 .fin) (frz 1 true); s.agenda = [.resume r1 .fin] ∧ s.ctl.phase = .ready ∧ (s.fib r1).st = .frozen) := by
  refine ⟨rfl, by decide, ⟨rfl, by decide, ?_⟩, rfl, ⟨rfl, by decide⟩, ⟨rfl, rfl, rfl, rfl⟩, ⟨rfl, rfl, rfl, rfl, rfl, rfl, rfl⟩, ⟨rfl, rfl, rfl⟩,
    ⟨rfl, rfl, rfl, by decide, rfl, rfl⟩, ⟨rfl, rfl, rfl, by decide⟩, ⟨rfl, rfl, rfl⟩⟩
  intro k
  by_cases h : k = 3
  · subst h; decide
  · by_cases h5 : k = 5
    · subst h5; decide
    · simp [Tbl.get, Ne.symm h, Ne.symm h5]

def psl2 (f : StageQ → StageQ := id) : State := slt (fun t => { t with stage := some 0, runs := none }) (two (f q3) (f q3))
def spots : State := { ((psl { q3 with starved := [(0, 5)] })) with agenda := [] }
def moving (x y : Nat) (f : Cluster → Cluster := id) : State := clu fun c => f { c with place := .stopping, moveTo := some (x, y) }
def asked (s : State) : State := wgr (fun w => { w with preempt := some 3 }) s
def saved (f : Cluster → Cluster := id) : State := clu fun c => f { c with place := .saved, saveT := 77 }
def fwd : State := { b0 with forwards := [{ id := 4, wg := 0, cu := 3, expires := 5 }, { id := 4, wg := 0, cu := 4, expires := 2 ^ 40 }, { id := 5, wg := 0, cu := 4, expires := 5 }] }

theorem wit_PipelineAndPlacementSteps_more :
    (let l := [(0, 3), (1, 2), (2, 2)]; (l.map (·.1)).Nodup ∧ 0 < (l.map (·.2)).sum ∧ (largestRemainder 5 l).length = 3) ∧
    ((psl2 id).cluster 0).place = .resident ∧
    (let s := psl { q3 with items := (List.range 20).map (fun k => BitVec.ofNat 128 (k + 5 * 2 ^ 96)), tail := 20 }
     (s.slot 0 0).stage = some 0 ∧ s.slotFree 0 0 = true ∧ (s.wg 0).warp ≤ ((s.cluster (s.wg 0).cluster).stageQ 0).items.length) ∧
    (let s := cold (psl { q3 with headDue := true }); (s.slot 0 0).stage = some 0 ∧ s.slotFree 0 0 = true ∧ ((s.cluster 0).stageQ 0).headDue = true) ∧
    (let s := two { StageQ.empty 0 with victim := some 9 } q3; ((s.cluster 0).stageQ 0).victim = some 9 ∧ s.clusterNo (s.cluster 0).grid 9 = none) ∧
    (let s := two { StageQ.empty 0 with victim := some 1 } { q3 with items := [7], tail := 1 }
     ((s.cluster 0).stageQ 0).victim = some 1 ∧ s.clusterNo (s.cluster 0).grid 1 = some 1 ∧ 1 ≠ 0 ∧ ((s.cluster 1).stageQ 0).items = [7]) ∧
    (let s := two { StageQ.empty 0 with victim := some 1, items := [4] } { q3 with items := [7, 8, 9, 10], tail := 4 }
     ((s.cluster 0).stageQ 0).victim = some 1 ∧ s.clusterNo (s.cluster 0).grid 1 = some 1 ∧ 1 ≠ 0 ∧ ((s.cluster 1).stageQ 0).items = [7, 8, 9, 10]) ∧
    (let s := cold (two { StageQ.empty 0 with victim := some 1, items := [4] } { q3 with items := [7, 8, 9, 10], tail := 4 })
     ((s.cluster 0).stageQ 0).victim = some 1 ∧ s.clusterNo (s.cluster 0).grid 1 = some 1 ∧ 1 ≠ 0 ∧ ((s.cluster 1).stageQ 0).items = [7, 8, 9, 10]) ∧
    ((spots.cluster 0).place = .resident ∧ spots.openStages (spots.wg 0).cluster = [0] ∧ spots.slotFree 0 0 = true ∧ 0 < (spots.wg 0).nslots ∧
      4 ≤ Tbl.get ((spots.cluster (spots.wg 0).cluster).stageQ 0).starved (spots.wg 0).rank 0) ∧
    ((psl (StageQ.empty 0)).openStages 0 = []) ∧
    (let s := vict; (s.cluster 0).place = .resident ∧ (s.victim 7 == some 0) = true ∧ (s.freeRects 0).contains (1, 0) = true ∧ (s.wg 0).preempt = none) ∧
    ((clu id).cluster 0).place = .resident ∧
    (let s := moving 3 3; (s.cluster 0).place = .stopping ∧ (s.cluster 0).moveTo = some (3, 3) ∧ s.settled 0 = true ∧ s.fits [(0, 3, 3)] [] = true) ∧
    (let s := moving 1 0; let t := s.setGrid 0 { s.grid 0 with launch := { Launch.zero with regs := 1024, slots := 8, widthCode := 2, scratch := 0x400000 } }
     (t.cluster 0).place = .stopping ∧ (t.cluster 0).moveTo = some (1, 0) ∧ t.settled 0 = true ∧ t.fits [(0, 1, 0)] [] = false) ∧
    (let s := { moving 1 0 with fibres := b0.fibres }; (s.cluster 0).place = .stopping ∧ s.settled 0 = false) ∧
    fwd.forwards.length = 3 ∧
    (let s := { (clu fun c => { c with place := .stopping }) with fibres := b0.fibres }
     (s.cluster 0).place = .stopping ∧ (s.cluster 0).moveTo = none ∧ s.group 0 = [0] ∧ s.settled 0 = false) ∧
    (let s := asked vict; (s.cluster 0).place = .resident ∧ (s.wg 0).preempt = some 3 ∧ s.group 0 = [0] ∧ s.chosen 0 7 = true ∧ 7 < 8) ∧
    (let s := asked b0; (s.cluster 0).place = .resident ∧ (s.wg 0).preempt = some 3 ∧ s.group 0 = [0] ∧ ∀ p, p < 8 → s.chosen 0 p = false) ∧
    (let s := vict; (s.cluster 0).place = .resident ∧ s.chosen 0 7 = true ∧ s.freeRects 0 ≠ [] ∧ s.group 0 = [0] ∧ (s.wg 0).preempt = none) ∧
    (let s := { vict with reserved := (List.range 256).map (fun k => (k, 7)) }; (s.cluster 0).place = .resident ∧ s.chosen 0 7 = true ∧ s.freeRects 0 = [] ∧
      s.group 0 = [0] ∧ (s.wg 0).preempt = none) ∧
    (let s := saved; (s.cluster 0).place = .saved ∧ (3, 2) ∈ rectsOf (s.cluster 0).cw (s.cluster 0).ch ∧ s.restoreTurn (s.cluster 0).grid = true ∧
      s.fits [(0, 3, 2)] [] = true ∧ notReserved s.reserved (s.levelOf 0) (cusOf 3 2 1 1) = true ∧ s.wholeGrid (s.cluster 0).grid = false) ∧
    (let s := saved; let t := s.setGrid 0 { s.grid 0 with launch := { Launch.zero with regs := 1024, slots := 8, widthCode := 2, scratch := 0x400000 } }
     (t.cluster 0).place = .saved ∧ t.fits [(0, 3, 2)] [] = false) := by
  refine ⟨?_, ?_, ?_, ?_, ?_, ?_, ?_, ?_, ?_, ?_, ?_, ?_, ?_, ?_, ?_, ?_, ?_, ?_, ?_, ?_, ?_, ?_, ?_⟩ <;> decide +kernel

/-- The fibre stands where its code is not. -/
def hdrAt (a : DWord) (s : State := nobuf []) : State := me (fun f => { f with pc := a }) s
def viaAt (l : Option (Nat × DWord)) : State := me (fun f => { f with via := some { clause := clause2, unit0 := 1, t := [(2, reg 1 4)], link := l } }) (nobuf [])
def peerPage : State := cur (fun c => { c with leaves := [] }) { (nobuf []) with mem := b0.mem ++ [(0x3001, 8)] }
def ce (used : Nat) (a : DWord) (dead : Bool := false) : CEntry := { asid := 1, clause := { clause2 with addr := a }, used := used, dead := dead }
def buf4 (l : List CEntry) : State := slt (fun t => { t with cbuf := l }) (nobuf code1)
def stand (f : Fibre → Fibre) : State := hdr (some cw0) f
def lag1 (f : State → State := id) : State := f half

theorem wit_FibreHardware_more :
    loads (hdrAt 0x20001) = 3 ∧ (match (hdrAt (1 <<< 46)).loadClause 0 (1 <<< 46) with | .far .. => true | .fault .. => true | _ => false) = true ∧
    ({ (nobuf []) with poison := [(0x20000, 1)] } : State).loadClause 0 0x20000 = .wait ∧
    ((viaAt (some (3, 9))).fib r0).via.isSome = true ∧ ((viaAt none).fib r0).via.isSome = true ∧
    ((buf4 [ce 5 0x30000, ce 3 0x30040, ce 9 0x30080, ce 4 0x300C0]).slot 0 0).cbuf.length = 4 ∧
    ((buf4 [ce 5 0x20000 true, ce 3 0x30040]).slot 0 0).cbuf.length = 2 ∧
    (let s := hdr none (fun f => { f with inside := true, idx := 1, st := .ready }) (buf4 [ce 5 0x20000]); (s.fib r0).inside = true) ∧
    (let s := hdr none (fun f => { f with st := .ready }) (buf4 [ce 5 0x20000]); (s.fib r0).st = .ready) ∧
    (let s := slt (fun t => { t with cbuf := [{ ce 5 0x20000 with clause := cw0 }] }) (hdr none (fun f => { f with st := .ready }) half); (s.fib r0).clause = none) ∧
    (let s := hdr none (fun f => { f with dbg := .halted }) (buf4 [ce 5 0x20000]); (s.fib r0).dbg = .halted) ∧
    (let s := stand fun f => { f with pend := [{ af0 with flag := some 0, at' := 7 }, { af0 with flag := some 3, at' := 5 }, { af0 with flag := some 1, at' := 5 }] }
     (s.fib r0).freezesAt cw0 = true ∧ (s.fib r0).pend.length = 3 ∧ (s.fib r0).doomed = false) ∧
    (let s := stand fun f => { f with pend := [{ af0 with flag := some 3 }] }; (s.fib r0).freezesAt cw0 = false ∧ (s.fib r0).clause = some cw0) ∧
    (let s := stand fun f => { f with st := .blocked, blk := .ending, pend := [{ af0 with flag := some 3 }] }
     (s.fib r0).blk = .ending ∧ (s.fib r0).pend ≠ [] ∧ (s.fib r0).clause = some cw0) ∧
    (let s := stand fun f => { f with doomed := true, pend := [{ af0 with flag := some 0 }] }; (s.fib r0).doomed = true ∧ (s.fib r0).clause = some cw0) ∧
    (let s := stand fun f => { f with st := .ready, blk := .none }; (s.fib r0).st = .ready ∧ (s.fib r0).clause = some cw0) ∧
    (let s := stand fun f => { f with fence := some { pred := 1, succ := 2, scope := .workgroup, mark := 9, pc := 0 } }; (s.fib r0).fence.isSome = true) ∧
    ((half.fib r0).clause = some cw0 ∧ half.freeRecord 0 0 = some 1 ∧ (half.fib r0).fsplit = b0.me.fsplit) ∧
    (let s := ({ half with now := 0 } : State).setMe { half.me with fsplit := 0x10001, came := 0 }; (s.fib r0).clause = some cw0 ∧ s.freeRecord 0 0 = some 1) ∧
    (let s := half.setMe { half.me with fsplit := 0x0A0005, came := 0 }; let t : State := { s with now := 2000 }; (t.fib r0).clause = some cw0 ∧ t.freeRecord 0 0 = some 1) ∧
    (let s : State := { half with ops := half.ops.map fun o => { o with split := false } }; (s.fib r0).clause = some cw0) ∧
    (let s := half.setMe { half.me with mask := 1 }; (s.fib r0).clause = some cw0 ∧ (s.fib r0).mask = 1) ∧
    (let s := (List.range 7).foldl (fun (u : State) k => u.setFib { r0 with idx := k + 1 } { b0.me with fid := 90 + k }) half; s.freeRecord 0 0 = none ∧ (s.fib r0).clause = some cw0) ∧
    (let s := fibAt 1 { b0.me with since := 5, clause := some clause2, inside := false, fid := 8 } (fibAt 2 { b0.me with since := 3, inside := false, fid := 7 } (stand fun f => { f with st := .frozen, blk := .none }))
     s.wgRuns 0 = true ∧ s.nextFibre 0 0 = some { r0 with idx := 2 }) ∧
    (let s := fibAt 1 { b0.me with since := 5, inside := false, fid := 8 } (hdr (some { clause2 with header := 0xFE000003 }) fun f => { f with st := .ready, yield := true })
     s.wgRuns 0 = true ∧ s.nextFibre 0 0 = some { r0 with idx := 1 }) ∧
    (let s := slt (fun t => { t with cbuf := [ce 5 0x20000] }) (hdr (some clause2) fun f => { f with st := .ready }); s.wgRuns 0 = true ∧ s.nextFibre 0 0 = some r0) ∧
    b0.nextFibre 0 0 = none ∧ (clu (fun c => { c with place := .stopping })).wgRuns 0 = false := by
  decide +kernel

def rst (s : State := b0) : State := { s with locals := [], ctl := { s.ctl with phase := .boot } }
def cc (f : Ctx → Ctx) (s : State := b0) : State := s.setCtx 2 (f { Ctx.absent with live := true, asid := 9, root := 0x1000 })
def fp (s : State) (c : BitVec 12) (va : DWord) (n : Need) : Nat := match s.frontPlace c va n with | .ok (.mem p) => p | .ok _ => 1 | .error (k, _) => k.toNat
def fpis (s : State) (c : BitVec 12) (va : DWord) (n : Need) (pa : Nat) : Bool :=
  (match s.frontPlace c va n with | .ok x => decide (x = .mem pa) | .error _ => false) && inHbm pa
def dbgd (v : BitVec 3) (s : State) : State := ctxr (fun c => { c with dbgctl := v }) s

theorem wit_ControlCommands_more :
    (rst).portUp = false ∧ b0.portUp = true ∧ (cc id).hasCtx 2 = true ∧ (cc id).gridsRemain 2 = false ∧ (cc id).hasCtx 3 = false ∧
    (b0.recordSave { Ctx.absent with live := true, asid := 5, root := 0x1000, save := 0x100000, size := 0x1000, share := [] }).isSome = true ∧
    b0.recordSave { Ctx.absent with live := true, asid := 5, root := 0x1000, save := 0x70000000, size := 0x1000 } = none ∧
    (∃ e, e ∈ b0.ctxs ∧ e.2.asid = 1) ∧
    (let s := lq { lq0 with block := 0x10000 } (cc id); (s.queue 0).ctx ≠ none ∧ (s.queue 0).block ≠ 0) ∧
    (let s := lq { lq0 with ctx := some 2 } (cc id); (s.queue 0).ctx = some 2 ∧ s.gridsRemain 2 = false) ∧
    (cc fun c => { c with live := false }).hasCtx 2 = true ∧ ((cc fun c => { c with live := false }).ctx 2).live = false ∧
    fpis b0 1 0x10008 .read 0x10008 = true ∧ fpis b0 1 0x10008 .write 0x10008 = true ∧ fp b0 1 0x70000000 .read ≠ 0x70000000 ∧
    ({ b0 with poison := [(0x10000, 0)] } : State).poisoned 0x10000 = true ∧ (lease9).now = fab.now ∧
    (let s := hdr (some clause2); (s.fib r0).st = .blocked ∧ (s.fib r0).dbg ≠ .halted ∧ (s.ctx (s.wg r0.wg).ctx).dbgctl.getLsbD 1 = false) ∧
    (let s := dbgd 2 (hdr (some clause2)); (s.fib r0).st = .blocked ∧ (s.ctx (s.wg r0.wg).ctx).dbgctl.getLsbD 1 = true) ∧
    ((b0.fib r0).st = .ready ∧ (b0.fib r0).inside = true ∧ (b0.fib r0).dbg ≠ .halted ∧ (b0.ctx (b0.wg r0.wg).ctx).dbgctl.getLsbD 1 = false) ∧
    (let s := dbgd 4 (me fun f => { f with idx := 1, unit0 := 0 }); (s.fib r0).st = .ready ∧ (s.fib r0).inside = true ∧ (s.fib r0).idx ≠ (s.fib r0).unit0) ∧
    (let s := dbgd 6 halted; (s.fib r0).dbg = .halted ∧ r0 ∈ s.wgRefs r0.wg ∧ (s.fib r0).st ≠ .absent) ∧
    (let s := dbgd 4 (me fun f => { f with dbg := .halted }); (s.fib r0).dbg = .halted ∧ r0 ∈ s.wgRefs r0.wg) ∧
    (let s := (fibAt 1 { b0.me with dbg := .halted, fault := some { fr0 with cause := 0x73 } } halted); (s.fib r0).dbg = .halted) ∧
    (let s := lq { lq0 with deviceFed := false }; (s.queue 0).ctx ≠ none ∧ (s.queue 0).deviceFed = false ∧ (s.queue 0).st = .parked) ∧
    (let s := lq { lq0 with deviceFed := false, via := some 8 }; (s.queue 0).ctx ≠ none ∧ (s.queue 0).deviceFed = false ∧ (s.queue 0).via = some 8) ∧
    (Tbl.get ((cur (fun c => { c with ev := [(0, { EvCnt.zero with owner := 5, en := true })] })).cu 0).ev 0 EvCnt.zero).en = true ∧
    inMmio (mmioBase + 0x300000) = true ∧ inMmio (mmioBase + 0x200000) = true ∧ inMmio 5 = false := by
  refine ⟨rfl, rfl, rfl, ?_, rfl, ?_, ?_, ⟨_, List.mem_cons_self, rfl⟩, ?_, ?_, rfl, rfl, ?_, ?_, ?_, ?_, ?_, ?_, ?_, ?_, ?_, ?_, ?_, ?_, ?_, ?_, ?_, ?_, ?_, ?_⟩ <;> decide +kernel

def phs (p : Phase) (s : State := b0) : State := { s with ctl := { s.ctl with phase := p } }
def ctlf (f : Ctl → Ctl) (s : State := b0) : State := { s with ctl := f s.ctl }
def agp (p : Packet) (s : State := ups fab) : State := { s with agenda := [.packet p true 1] }
def rdPk (src : BitVec 16) : Packet := { pk 1 0 with src := src, dst := fab.fe.devid, aux := 0, len := 0 }

theorem wit_ResetErrorsAndManagement_more :
    (∃ i, (ctlf fun c => { c with phase := .boot, flash := some i }).ctl.phase = .boot) ∧ (phs .recovery).ctl.phase = .recovery ∧
    b0.ctl.phase ≠ .boot ∧ (ctlf fun c => { c with corrected := 1023 }).ctl.corrected = 1023 ∧
    (ctlf fun c => { c with corrected := 1024 }).ctl.corrected = 1024 ∧
    (let s := { b0 with owners := [(0x10000, 1)] }; s.lineOwner 0x10000 = 1 ∧ (s.ctx 1).live = true ∧ s.agenda = []) ∧
    (let s := ctxr (fun c => { c with live := false }) { b0 with owners := [(0x10000, 1)] }; s.lineOwner 0x10000 = 1 ∧ (s.ctx 1).live = false ∧ s.agenda = []) ∧
    (let s := agp (rdPk 7); s.agenda = [.packet (rdPk 7) true 1] ∧ s.lineOwner 0x10000 = 0) ∧
    (let s := { b0 with poison := [(0x10000, 1)], owners := [(0x10000, 1)], guards := [(0x10000, 7)] }; s.poisoned 0x10000 = true) ∧
    (ctlf fun c => { c with capw := 1, aclk := 235, power := List.replicate 10 5000 }).ctl.aclk = 235 ∧
    (ctlf fun c => { c with capw := 1, aclk := 500, power := List.replicate 10 5000 }).ctl.aclk = 500 ∧
    (ctlf fun c => { c with spacing := 3, aclk := 500 }).ctl.spacing = 3 ∧ (ctlf fun c => { c with thermal := true, aclk := 468 }).ctl.thermal = true ∧
    (ctlf fun c => { c with aclk := 300 }).ctl.aclk = 300 ∧
    (ctlf fun c => { c with spdmVersion := true }).ctl.spdmVersion = true ∧
    (ctlf fun c => { c with spdmVersion := true, spdmCaps := true }).ctl.spdmCaps = true ∧
    (ctlf fun c => { c with spdmVersion := true, spdmCaps := true, spdmAlgs := true }).ctl.spdmAlgs = true := by
  refine ⟨⟨Image.mk [] 0 [] [], rfl⟩, ?_, ?_, ?_, ?_, ?_, ?_, ?_, ?_, ?_, ?_, ?_, ?_, ?_, ?_, ?_, ?_⟩ <;> decide +kernel

-- Witnesses of the clauses about debug halts, joined fences, boot, the Ocush port and local links ---------------------------------------

/-- Fibre 1 waits at rejoin register 0, in which the lanes of fibre 0 alone are missing. -/
def rjm (f : Fibre → Fibre := id) : State :=
  fibAt 1 (f { Fibre.absent with st := .blocked, blk := .waitj 0, mask := 0x10000, fid := 9 }) (rj 0x1FFFF 0x10000 (some 1))
/-- Fibre 1 as changed, with its number in `s[2]`. -/
def fs1 (f : Fibre → Fibre) : State := sr [(2, 1)] (fibAt 1 (f { b0.me with fid := 9 }))
/-- Fibres 0 and 1 wait at `FSYNC`, the second as changed. -/
def syn2f (f : Fibre → Fibre) : State := syn2.setFib { r0 with idx := 1 } (f (syn2.fib { r0 with idx := 1 }))
/-- Fibre 1 is frozen at a fence that a dead peer ended. -/
def frf (pc : DWord) (f : Fibre → Fibre := id) : State := sr [(1, 1)] (fibAt 1 (f { Fibre.absent with
  st := .frozen, fid := 9, pc := 0x20000, fault := some { fr0 with cause := 0x50 },
  fence := some { pred := 1, succ := 2, scope := .workgroup, mark := 9, pc := pc } }))

theorem wit_FibresEndYieldAndAreRead_more :
    (let s := me fun f => { f with pend := [af0] }; s.goes .fend ∧ s.me.pend ≠ []) ∧
    (let s := me fun f => { f with pend := [af0] }; s.goes .exit ∧ s.me.pend ≠ []) ∧
    (let s := me fun f => { f with doomed := true, idx := 1 }; s.goes .nop ∧ s.me.doomed = true ∧ s.me.clause = some clause2 ∧
      clause2.words.length ≤ s.me.idx + 1) ∧
    (let s := sr [(2, 9)]; s.goes (.fstatMask 1 2) ∧ s.goes (.fstatPc 1 2) ∧ s.goes (.fstatInfo 1 2) ∧ 8 < (s.sreg 2).toNat) ∧
    (let s := fs1 fun f => { f with dbg := .halted, fault := some fr0 }
     s.goes (.fstatPc 1 2) ∧ s.goes (.fstatInfo 1 2) ∧ (s.fib { s.actor with idx := 1 }).dbg = .halted) ∧
    (let s := fs1 fun f => { f with st := .frozen, fault := some fr0 }
     s.goes (.fstatPc 1 2) ∧ s.goes (.fstatInfo 1 2) ∧ (s.fib { s.actor with idx := 1 }).st = .frozen) ∧
    (let s := fs1 fun f => { f with clause := none, inside := true, idx := 1, unit0 := 1, lead := 2 }
     s.goes (.fstatPc 1 2) ∧ s.goes (.fstatMask 1 2) ∧ (s.fib { s.actor with idx := 1 }).clause = none) ∧
    (let s := fs1 fun f => { f with wait := true }; s.goes (.fstatInfo 1 2) ∧ (s.fib { s.actor with idx := 1 }).wait = true) := by
  refine ⟨⟨⟨rfl, rfl⟩, by decide⟩, ⟨⟨rfl, rfl⟩, by decide⟩, ⟨⟨rfl, rfl⟩, rfl, rfl, by decide⟩, ⟨⟨rfl, rfl⟩, ⟨rfl, rfl⟩, ⟨rfl, rfl⟩, by decide⟩,
    ⟨⟨rfl, rfl⟩, ⟨rfl, rfl⟩, rfl⟩, ⟨⟨rfl, rfl⟩, ⟨rfl, rfl⟩, rfl⟩, ⟨⟨rfl, rfl⟩, ⟨rfl, rfl⟩, rfl⟩, ⟨⟨rfl, rfl⟩, rfl⟩⟩

theorem wit_RejoinGathersLanes_more :
    (let s := rjm; s.goes (.join 0) ∧ (s.rejoin 0 0 0).waiter = some 1 ∧ (s.fib { s.actor with idx := 1 }).blk = .waitj 0 ∧
      (s.rejoin 0 0 0).arrived ||| s.me.mask = (s.rejoin 0 0 0).expected) ∧
    (let s := rjm fun f => { f with dbg := .halted }; s.goes (.join 0) ∧ (s.fib { s.actor with idx := 1 }).dbg = .halted) ∧
    (let s := rj 0x1FFFF 0 none; s.goes (.waitj 0) ∧ (s.rejoin 0 0 0).arrived ||| s.me.mask ≠ (s.rejoin 0 0 0).expected) ∧
    (rjw.rejoin 0 0 (0 : BitVec 4).toNat).waiter = some 1 ∧
    (let s := fibAt 1 { rjw.fib { r0 with idx := 1 } with dbg := .halted } rjw
     (s.rejoin 0 0 (0 : BitVec 4).toNat).waiter = some 1 ∧ (s.fib { r0 with idx := 1 }).dbg = .halted) := by
  refine ⟨⟨⟨rfl, rfl⟩, rfl, rfl, by decide⟩, ⟨⟨rfl, rfl⟩, rfl⟩, ⟨⟨rfl, rfl⟩, by decide⟩, rfl, ⟨rfl, rfl⟩⟩

theorem wit_FibreSynchronisation_more :
    (let s := syn2f fun f => { f with st := .frozen }; s.isSaved 0 = false ∧ (s.fib { wg := 0, slot := 0, idx := 1 }).st = .frozen ∧
      (s.fib r0).blk = .fsync 3 true 0) ∧
    (let s := syn2f fun f => { f with dbg := .halted }; s.isSaved 0 = false ∧ (s.fib { wg := 0, slot := 0, idx := 1 }).dbg = .halted ∧
      (s.fib r0).blk = .fsync 3 true 0) ∧
    (let s := syn2f fun f => { f with blk := .fsync 3 true 0, mask := 0xF0000 }; s.isSaved 0 = false ∧ s.me.mask &&& 0xF0000 = 0 ∧
      (s.fib { wg := 0, slot := 0, idx := 1 }).blk = .fsync 3 true 0) ∧
    (let s := syn2f fun f => { f with blk := .fsync 3 true 4, mask := 0xF0000 }; s.isSaved 0 = false ∧
      (s.fib { wg := 0, slot := 0, idx := 1 }).blk = .fsync 3 true 4) := by
  refine ⟨⟨rfl, rfl, rfl⟩, ⟨rfl, rfl, rfl⟩, ⟨rfl, by decide, rfl⟩, ⟨rfl, rfl⟩⟩

theorem wit_FrozenFibresResume_more :
    (let s := sr [(1, 8), (2, 0x20002)] (frz 8 true); s.goes (.fresumePc 1 2) ∧ (s.sreg 2).toNat % 4 ≠ 0) ∧
    (let s := sr [(1, 8), (2, 0x20000)] (frz 8 true ldp); s.goes (.fresume 1) ∧ s.goes (.fresumePc 1 2) ∧ s.goes (.fresumeEnd 1) ∧
      s.earlierDone s.actor s.nextId 0xFF .slot false = false) ∧
    (let s := frf 0x20000; s.goes (.fresume 1) ∧ (s.fib { r0 with idx := 1 }).fence.isSome = true) ∧
    (let s := frf 0x30000; s.goes (.fresume 1) ∧ (s.fib { r0 with idx := 1 }).fence.isSome = true) ∧
    (let s := sr [(1, 8), (2, 0x20000)] (frz 8 false); s.goes (.fresumePc 1 2) ∧ (s.sreg 2).toNat % 4 = 0) := by
  refine ⟨⟨⟨rfl, rfl⟩, by decide⟩, ⟨⟨rfl, rfl⟩, ⟨rfl, rfl⟩, ⟨rfl, rfl⟩, by decide +kernel⟩, ⟨⟨rfl, rfl⟩, rfl⟩, ⟨⟨rfl, rfl⟩, rfl⟩, ⟨⟨rfl, rfl⟩, by decide⟩⟩

/-- Fibre 0 waits at the workgroup's barrier. -/
def atBar (f : Fibre → Fibre := id) (s : State := b0) : State := me (fun x => f { x with st := .blocked, blk := .barWg 0 }) s

theorem wit_BarriersArriveAndRelease_more :
    (hnd.goes .barWg ∧ hnd.actor.idx = 8) ∧ (hnd.goes .barGrid ∧ hnd.actor.idx = 8) ∧ (hnd.goes .barCa ∧ hnd.actor.idx = 8) ∧
    (hnd.goes .barCw ∧ hnd.actor.idx = 8) ∧
    (let s := atBar; (s.fib r0).blk = .barWg 0 ∧ s.parties .workgroup 0 ≠ [] ∧ s.hasArrived .workgroup 0 r0 = true) ∧
    (let s := atBar fun f => { f with dbg := .halted }; (s.fib r0).dbg = .halted ∧ r0 ∈ s.parties .workgroup 0) ∧
    (let s := atBar fun f => { f with st := .frozen }; (s.fib r0).st = .frozen ∧ r0 ∈ s.parties .workgroup 0) := by
  refine ⟨⟨⟨rfl, rfl⟩, rfl⟩, ⟨⟨rfl, rfl⟩, rfl⟩, ⟨⟨rfl, rfl⟩, rfl⟩, ⟨⟨rfl, rfl⟩, rfl⟩, ⟨rfl, ?_, ?_⟩, ⟨rfl, ?_⟩, ⟨rfl, ?_⟩⟩ <;> decide +kernel

/-- A segment copy that has read its first block, and one that stands at the end with that block unwritten. -/
def cpF (off : Nat) (sc : Scope := .slot) : State :=
  opd (.copy { cp0 with kind := 1, guard := 0x5, off := off, first := some ([1, 2, 3], 9) }) [] (fun o => { o with st := .running, scope := sc, gwct := if sc = .system then 2 ^ 40 else 0 })

theorem wit_CopyOperations_held :
    (let c : CopyArgs := { cp0 with held := some (0x10000, [1, 2, 3]) }
     (cpy c .running).op 1 ≠ none ∧ c.held = some (0x10000, [1, 2, 3]) ∧ (2 : Nat) ≤ [1, 2, 3].length) ∧
    (cpG 0x4 0).op 1 ≠ none ∧ (cpG 0x6 0).op 1 ≠ none ∧ (cpF 1).op 1 ≠ none ∧ (cpF 1 .system).op 1 ≠ none ∧
    (cpT tens (fun c => { c with recD := some { recC with base := 0x21000 }, recS := some recC }) .running).op 1 ≠ none ∧
    (cpT tens (fun c => { c with recD := some { recC with base := 0x21000 }, recS := some recC, off := 3 }) .running).op 1 ≠ none := by
  decide +kernel

/-- A credit advertisement of three flits for each channel; an acknowledgement that asks for a replay; a flit with a record of 64 bytes. -/
def crf : Flit := fl { fl0 with ftype := 2, payload := List.replicate 8 0 ++ (List.replicate 12 [3, 0]).flatten ++ List.replicate 208 0 }
def nakf : Flit := fl { fl0 with ack := 1, ackv := true, nak := true, crvc := 2, crn := 3 }
def recf : Flit := fl { fl0 with payload := List.replicate 64 7 ++ List.replicate 176 0 }
/-- A local port that holds two frames while one waits. -/
def lph (z : Option Nat) (n : Nat := 0) : State :=
  { (locl { LocalPort.down with up := true, since := z, held := [(0, pk 2 0), (3, pk 1 0)], queue := [(3, pk 3 0)], fails := n }) with now := 20000 }

theorem wit_Links_clauses :
    (let q := { pst .retrain with ts2 := true, held := [fl0, { fl0 with seq := 1 }], txSeq := 9, rxNext := 8 }
     crf.good && (prt q).port 0 == q) = true ∧
    (let q := { pst .credit with txSeq := 4095 }; crf.good && (prt q).port 0 == q) = true ∧
    (let q := { up0 with again := up0.held }; (prt q).port 0 == q && !q.held.isEmpty) = true ∧
    (let q := { up0 with held := up0.held ++ [fl { fl0 with seq := 2 }], again := [fl { fl0 with seq := 2 }] }; (prt q).port 0 == q) = true ∧
    (nakf.good && (prt up0).port 0 == up0) = true ∧
    (List.replicate 64 (7 : Byte)).length = 64 ∧
    (recf.good && (prt up0 255).port 255 == up0) = true ∧
    (recf.good && (prt { up0 with stream := [(0, List.replicate 8 9)] } 255).port 255 != up0) = true ∧
    (let f := fl { recf with pvc := 1 }; f.good && (prt up0 255).port 255 == up0) = true ∧
    (lph none).localPort 0 ≠ LocalPort.down ∧ (lph (some 15000)).localPort 0 ≠ LocalPort.down ∧ (lph (some 10000)).localPort 0 ≠ LocalPort.down ∧
    (lph (some 10000) 2).localPort 0 ≠ LocalPort.down ∧ (lph (some 9999) 1).localPort 0 ≠ LocalPort.down ∧
    UaTrain.answer 4 ≠ UaTrain.answer 2 ∧ (lph (some 15000)).frameOk 0 .atomic true (pk 3 0) = true := by
  decide +kernel

/-- A note of a new grid, a reply and a note of a kill wait for the link; the first is through. -/
def waiting (n : Nat) (s : State := b0) : State := { s with out := [.note 0x81 [9], .flit 3 fl0, .reply 0 [1], .note 0x83 [1, 5, 6]], said := n }

theorem wit_ControlCommands_clauses :
    (let s := lq { lq0 with deviceFed := false, st := .run }; (s.queue 0).ctx ≠ none ∧ (s.queue 0).via = none ∧ (s.queue 0).held = []) ∧
    (let s := lq { lq0 with deviceFed := false, st := .run, held := [1] }; (s.queue 0).ctx ≠ none ∧ (s.queue 0).held ≠ []) ∧
    (let s := lq { lq0 with deviceFed := false, st := .status }; (s.queue 0).ctx ≠ none ∧ (s.queue 0).st = .status) ∧
    (4096 < (0x1001 : BitVec 16).toNat ∧ b0.hasCtx 1 = true ∧ (List.replicate 8 (3 : Byte)).length = 8) ∧
    ((waiting 0).out = [] ++ Msg.note 0x81 [9] :: [.flit 3 fl0, .reply 0 [1], .note 0x83 [1, 5, 6]] ∧ (waiting 0).said = 0) ∧
    ((waiting 2).out = [.note 0x81 [9], .flit 3 fl0] ++ Msg.reply 0 [1] :: [.note 0x83 [1, 5, 6]] ∧ (waiting 2).said = 2) ∧
    (let s := { waiting 2 with ports := [] }; s.out = [.note 0x81 [9], .flit 3 fl0] ++ Msg.reply 0 [1] :: [.note 0x83 [1, 5, 6]] ∧ s.said = 2) ∧
    ((waiting 0).hasCtx (1 : BitVec 16).toNat = true ∧ ((waiting 0).ctx 1).live = true) ∧
    (let s := ctxr (fun c => { c with live := false }) (waiting 0); s.hasCtx (1 : BitVec 16).toNat = true ∧ (s.ctx 1).live = false) := by
  refine ⟨⟨?_, ?_, ?_⟩, ⟨?_, ?_⟩, ⟨?_, ?_⟩, ⟨?_, ?_, ?_⟩, ⟨?_, ?_⟩, ⟨?_, ?_⟩, ⟨?_, ?_⟩, ⟨?_, ?_⟩, ⟨?_, ?_⟩⟩ <;> decide +kernel

theorem wit_ResetErrorsAndManagement_clauses :
    ((phs .links).ctl.phase = .links ∧ ((phs .links).port 255).st = .up) ∧
    (let s : State := { phs .links with ports := [] }; s.ctl.phase = .links ∧ (s.port 255).st ≠ .up) ∧
    (let s : State := { waiting 1 with owners := [(0x10000, 1)] }; s.lineOwner 0x10000 = 1 ∧ (s.ctx 1).live = true ∧ s.agenda = []) ∧
    (let s := ctxr (fun c => { c with live := false }) { waiting 1 with owners := [(0x10000, 1)] }
     s.lineOwner 0x10000 = 1 ∧ (s.ctx 1).live = false ∧ s.agenda = []) ∧
    (let s := ctxr (fun c => { c with live := false }) { waiting 4 with owners := [(0x10000, 1)] }
     s.lineOwner 0x10000 = 1 ∧ (s.ctx 1).live = false ∧ s.agenda = []) ∧
    (fld (1 : DWord) 0 12 = (1 : BitVec 12).toNat ∧ Msg.moreErrors 1 (.note 0x83 ((1 : DWord) :: [5, 6])) ≠ .note 0x83 [1, 5, 6]) ∧
    (fld (0xFFFFFFFF : DWord) 18 14 = 16383 ∧ fld (0xFFFFFFFF : DWord) 0 12 = (0xFFF : BitVec 12).toNat ∧ ([5, 6] : List DWord) ≠ []) ∧
    Msg.moreErrors 1 (.reply 0 [1]) = .reply 0 [1] ∧
    ((own.cu 0).ev ≠ [] ∧ (some 0 : Option Nat) ≠ none) := by
  refine ⟨⟨?_, ?_⟩, ⟨?_, ?_⟩, ⟨?_, ?_, ?_⟩, ⟨?_, ?_, ?_⟩, ⟨?_, ?_, ?_⟩, ⟨?_, ?_⟩, ⟨?_, ?_, ?_⟩, ?_, ⟨?_, ?_⟩⟩ <;> decide +kernel

theorem wit_TranslationAndDecantWindows_poison :
    (let s : State := { coal0 with poison := [(0x1000, 0)] }; s.poisoned 0x1000 = true ∧ (s.cu 0).coal ≠ [] ∧
      s.walkPath (0x10000 : DWord).toNat 4 0x1000 = coal0.walkPath (0x10000 : DWord).toNat 4 0x1000) := by
  decide +kernel

end Sys2Proof.Tests
end

section
/-!
The module reset state (R6, R393): its tables and its memory are empty, so whatever is looked up there answers the default.
-/
namespace Sys2Proof.Machine

@[simp] theorem Tbl.get_nil {κ α : Type} [DecidableEq κ] (k : κ) (d : α) : Tbl.get ([] : Tbl κ α) k d = d := rfl

@[simp] theorem Mem.read_nil (a : Nat) : Mem.read [] a = 0 := rfl

theorem State.empty_reset : State.reset.empty := ⟨rfl, rfl, rfl, rfl, rfl, rfl, rfl, rfl⟩

@[simp] theorem State.hbm_reset (a : Nat) : State.reset.hbm a = 0 := Mem.read_nil a

@[simp] theorem State.guardTag_reset (a : Nat) : State.reset.guardTag a = 0 := Tbl.get_nil (blockOf a) 0

@[simp] theorem State.port_reset (n : Nat) : State.reset.port n = Port.down := Tbl.get_nil n Port.down

@[simp] theorem State.fib_reset (r : FRef) : State.reset.fib r = Fibre.absent := Tbl.get_nil r Fibre.absent

/-- Settles O60: every table and the memory are empty at reset, and the registers hold the literals of `Ctl.reset` (R391) and
`Fe.reset` (R367). -/
theorem resetState : Obligations.ResetState := by
  unfold Obligations.ResetState
  have hmem : ∀ a, State.reset.hbm a = 0 ∧ State.reset.guardTag a = 0 := fun a => ⟨State.hbm_reset a, State.guardTag_reset a⟩
  have hport : ∀ n, (State.reset.port n).st = .down := fun n => by rw [State.port_reset, Port.down]
  refine ⟨State.empty_reset, State.memOk_reset, hmem, ?phase, ?aclk, ?capw, ?fertimer, ?replays, ?dead, hport, State.fib_reset⟩
  all_goals rfl

end Sys2Proof.Machine
end

section
/-!
R146, R373: a fibre that steps by issue units halts between two units of its clause. If an invalidation has marked the entry it
issues from, the halted fibre gives the entry up and fetches its clause again when it is released: its record holds no clause.
-/
namespace Sys2Proof.Machine
variable (s : State)

/-- The running fibre steps by issue units, more units of its clause follow, and the buffer entry it issues from is marked
invalid (R146, R373). -/
structure State.StepsInvalidated (s : State) (c : Clause) : Prop where
  clause : s.me.clause = some c
  more : s.me.idx + 1 < c.words.length
  steps : s.me.dbg = .stepUnit
  inside : s.me.inside = true
  current : s.mySlot.cur = s.actor.idx
  dead : s.mySlot.cbuf.any (·.dead) = true

theorem State.fib_dropDead (r q : FRef) : (s.dropDead r).fib q = s.fib q := by
  simp only [State.fib, State.dropDead_fibres]

theorem State.fib_shedDead_ne {r q : FRef} (h : q ≠ r) : (s.shedDead r).fib q = s.fib q := by
  unfold State.shedDead
  dsimp only
  split
  · rw [State.fib_setFib_ne _ _ h, State.fib_dropDead]
  · rfl

/-- Inside a clause whose entry is marked invalid, the fibre gives its clause up. -/
theorem State.clause_shedDead {r : FRef} (hin : (s.fib r).inside = true) (hcur : (s.slot r.wg r.slot).cur = r.idx)
    (hdead : (s.slot r.wg r.slot).cbuf.any (·.dead) = true) : ((s.shedDead r).fib r).clause = none := by
  have hgives : ((s.fib r).inside && (s.slot r.wg r.slot).cur == r.idx && (s.slot r.wg r.slot).cbuf.any (·.dead)) = true := by
    simp [hin, hcur, hdead]
  rw [State.shedDead, if_pos hgives, State.fib_setFib_same, Fibre.refetch]

theorem State.fib_haltOne_ne {r q : FRef} (c : BitVec 8) (d : Nat) (p : DWord) (h : q ≠ r) :
    (s.haltOne r c d p).fib q = s.fib q :=
  ((s.shedDead r).fib_setFib_ne _ h).trans (s.fib_shedDead_ne h)

theorem State.clause_haltOne (r : FRef) (c : BitVec 8) (d : Nat) (p : DWord) :
    ((s.haltOne r c d p).fib r).clause = ((s.shedDead r).fib r).clause :=
  (congrArg Fibre.clause ((s.shedDead r).fib_setFib_same r _)).trans rfl

/-- The other fibres that halt in all-stop mode leave the record of the first alone. -/
theorem State.fib_halt_self (r : FRef) (c : BitVec 8) (d : Nat) (p : DWord) :
    (s.halt r c d p).fib r = (s.haltOne r c d p).fib r := by
  unfold State.halt
  dsimp only
  split
  · refine foldl_keeps (fun t : State => t.fib r) _ (fun t q => ?_) _ _
    split
    · rfl
    · rename_i hskip
      have hne : r ≠ q := fun h => hskip (.inl h.symm)
      split
      · exact t.fib_haltOne_ne _ _ _ hne
      · exact t.fib_setFib_ne _ hne
  · rfl

theorem State.me_endUnit : s.endUnit.me = { s.me with
    idx := s.me.idx + 1, unit0 := s.me.idx + 1, hMod := none, hLimm := none, wait := false, begun := none, bpSeen := [] } :=
  s.me_setMe _

variable {s}

/-- A fibre that steps halts after its unit and gives the invalidated clause up. -/
theorem State.StepsInvalidated.clause_retire {c : Clause} (h : s.StepsInvalidated c) : (s.retire.fib s.actor).clause = none := by
  have hme := s.me_endUnit
  have hcl : s.endUnit.me.clause = some c := by rw [hme]; exact h.clause
  have hmore : s.endUnit.me.idx < c.words.length := by rw [hme]; exact h.more
  have hsteps : s.endUnit.me.dbg = .stepUnit := by rw [hme]; exact h.steps
  have hin : s.endUnit.me.inside = true := by rw [hme]; exact h.inside
  have hgo : s.endUnit.goOn = s.endUnit.halt s.actor 0x72 0 (c.wordAddr s.endUnit.me.idx) := by
    simp only [State.goOn, hcl, if_pos hmore, hsteps]
    rfl
  rw [State.retire, hgo, State.fib_halt_self, State.clause_haltOne]
  exact s.endUnit.clause_shedDead hin h.current h.dead

/-- Entering a fence leaves the fibre stepping through the invalidated clause. -/
theorem State.StepsInvalidated.setMe_fence {c : Clause} (h : s.StepsInvalidated c) (x : Option FenceSt) :
    (s.setMe { s.me with fence := x }).StepsInvalidated c := by
  have hme := s.me_setMe { s.me with fence := x }
  refine ⟨?clause, ?more, ?steps, ?inside, h.current, h.dead⟩
  case clause => rw [hme]; exact h.clause
  case more => rw [hme]; exact h.more
  case steps => rw [hme]; exact h.steps
  case inside => rw [hme]; exact h.inside

theorem exec_fence_goes {p q : BitVec 8} {c : BitVec 3} {sc : Scope} (hgo : s.goes (.fence p q c)) (hsc : scopeOf c.toNat = some sc) :
    exec (.fence p q c) s = .next (s.setMe { s.me with
      fence := some { pred := p, succ := q, scope := sc, mark := s.nextId, pc := s.me.unitPc } }).retire := by
  obtain ⟨hissuing, hverdict⟩ := hgo
  simp only [exec_fence, execFence, issue, hissuing, hverdict, hsc, if_true]

/-- A fence that issues there does not stand before the next word of its clause afterwards. -/
theorem State.StepsInvalidated.not_completes_fence {k : Clause} (h : s.StepsInvalidated k) {p q : BitVec 8} {c : BitVec 3} {sc : Scope}
    (hgo : s.goes (.fence p q c)) (hsc : scopeOf c.toNat = some sc) : ¬ Completes (.fence p q c) s s.advanced := by
  rintro ⟨t, hexec, hadv⟩
  obtain rfl := Host.Outcome.next.inj ((exec_fence_goes hgo hsc).symm.trans hexec)
  obtain ⟨-, hclause, -⟩ := (hadv k h.clause).1 h.more
  exact Option.some_ne_none k (hclause.symm.trans (h.setMe_fence _).clause_retire)

/-- A clause of `FENCE` 1, 2 at system scope and a `NOP`. -/
def fenceClause : Clause := { addr := 0, header := 0xFE000002, ext := none, words := [0x96020580, 0x1A000000] }

/-- The module with fibre 0 of warp slot 0 released by the debugger for one issue unit (R373), before the `FENCE` of that clause; the
invalidation of another agent has marked the entry it issues from (R146). -/
def fenceStep : State :=
  let s := State.reset.withFetchWord 32 0x1A000000
  let s1 := s.setMe { s.me with clause := some fenceClause, dbg := .stepUnit }
  (s1.setMySlot { s1.mySlot with cbuf := [{ asid := 1, clause := fenceClause, used := 0, dead := false }] }).dropEntries 0 0
    (fun _ => true)

theorem fenceStep_goes : fenceStep.goes (.fence 1 2 6) := by
  refine ⟨?_, ?_⟩ <;> decide

theorem fenceStep_stepsInvalidated : fenceStep.StepsInvalidated fenceClause := by
  refine ⟨?_, ?_, ?_, ?_, ?_, ?_⟩ <;> decide

/-- Refutes O35: a fence ends its unit before the next word of its clause only while the fibre holds the clause. A fibre that steps
by issue units halts after the fence (R373), and gives the clause up if its entry is marked invalid (R146). -/
theorem not_fencesAndMonitors : ¬ Obligations.FencesAndMonitors := by
  unfold Obligations.FencesAndMonitors
  rintro ⟨-, hall⟩
  obtain ⟨hfence, -⟩ := hall fenceStep
  obtain ⟨t, hexec, -, hadv, -⟩ := hfence 1 2 6 .system fenceStep_goes rfl
  exact fenceStep_stepsInvalidated.not_completes_fence fenceStep_goes rfl ⟨t, hexec, hadv⟩

end Sys2Proof.Machine
end

section
/-!
R137, R373: a poll of the pre-emption request by a fibre that steps by issue units. As after every other unit, the fibre halts, and
gives its clause up if an invalidation has marked the entry it issues from (R146).
-/
namespace Sys2Proof.Machine
variable {s : State}

/-- Writing the running fibre's record leaves it stepping through the invalidated clause if its place there stays. -/
theorem State.StepsInvalidated.setMe {c : Clause} (h : s.StepsInvalidated c) {f : Fibre} (hclause : f.clause = s.me.clause)
    (hidx : f.idx = s.me.idx) (hdbg : f.dbg = s.me.dbg) (hinside : f.inside = s.me.inside) : (s.setMe f).StepsInvalidated c := by
  have hme := s.me_setMe f
  refine ⟨?clause, ?more, ?steps, ?inside, h.current, h.dead⟩
  case clause => rw [hme, hclause]; exact h.clause
  case more => rw [hme, hidx]; exact h.more
  case steps => rw [hme, hdbg]; exact h.steps
  case inside => rw [hme, hinside]; exact h.inside

theorem exec_preemptPt_goes {n : VReg} {a : SReg} (hgo : s.goes (.preemptPt n a)) :
    ∃ v, exec (.preemptPt n a) s = .next ((s.setMe { s.me with live := some n }).setS a.toNat v).retire := by
  obtain ⟨hissuing, hverdict⟩ := hgo
  simp only [exec_preemptPt, execPreemptPt, issue, hissuing, hverdict, if_true]
  exact ⟨_, rfl⟩

/-- A poll that issues there does not stand before the next word of its clause afterwards. -/
theorem State.StepsInvalidated.not_completes_preemptPt {c : Clause} (h : s.StepsInvalidated c) {n : VReg} {a : SReg}
    (hgo : s.goes (.preemptPt n a)) : ¬ Completes (.preemptPt n a) s s.advanced := by
  rintro ⟨t, hexec, hadv⟩
  obtain ⟨v, hpoll⟩ := exec_preemptPt_goes hgo
  obtain rfl := Host.Outcome.next.inj (hpoll.symm.trans hexec)
  have hlive : (s.setMe { s.me with live := some n }).StepsInvalidated c := h.setMe rfl rfl rfl rfl
  have hwritten : ((s.setMe { s.me with live := some n }).setS a.toNat v).StepsInvalidated c := hlive.setMe rfl rfl rfl rfl
  obtain ⟨-, hclause, -⟩ := (hadv c h.clause).1 h.more
  exact Option.some_ne_none c (hclause.symm.trans hwritten.clause_retire)

/-- A clause of `PREEMPT.PT` into `s0` with `v0` live, and a `NOP`. -/
def pollClause : Clause := { addr := 0, header := 0xFE000002, ext := none, words := [0xE6000002, 0x1A000000] }

/-- The machine of `fenceStep` before the `PREEMPT.PT` of that clause. -/
def pollStep : State :=
  let s := fenceStep.setMe { fenceStep.me with clause := some pollClause }
  s.setMySlot { s.mySlot with cbuf := s.mySlot.cbuf.map (fun e => { e with clause := pollClause }) }

theorem pollStep_goes : pollStep.goes (.preemptPt 0 0) := by
  refine ⟨?_, ?_⟩ <;> decide

theorem pollStep_stepsInvalidated : pollStep.StepsInvalidated pollClause := by
  refine ⟨?_, ?_, ?_, ?_, ?_, ?_⟩ <;> decide

/-- Refutes O48: a poll of the pre-emption request ends its unit before the next word of its clause only while the fibre holds the
clause. A fibre that steps by issue units halts after the poll (R373), and gives the clause up if its entry is marked invalid (R146). -/
theorem not_workInstructions : ¬ Obligations.WorkInstructions := by
  unfold Obligations.WorkInstructions
  intro hall
  obtain ⟨-, -, -, -, hpoll, -⟩ := hall pollStep 0 0 0 0 0 0
  obtain ⟨t, hexec, -, hadv, -⟩ := hpoll pollStep_goes
  exact pollStep_stepsInvalidated.not_completes_preemptPt pollStep_goes ⟨t, hexec, hadv⟩

end Sys2Proof.Machine
end

section
/-!
R111, R387: a host-fed queue whose doorbell was written reads its last link again. The link may stand in the on-chip physical map
(R23, R206), and there it is no word of HBM.
-/
namespace Sys2Proof.Machine
variable {s : State}

theorem exec_launchBlockProcess_run {qn : Nat} {c : BitVec 12} (hctx : (s.queue qn).ctx = some c)
    (htime : (s.queue qn).gwct ≤ s.frontTime) (hst : (s.queue qn).st = .run) (hblock : (s.queue qn).block = 0) :
    exec (.launchBlockProcess qn) s = .next (s.nextChain qn) := by
  have hgoes : ¬((s.queue qn).ctx.isNone = true ∨ s.frontTime < (s.queue qn).gwct) := by
    rintro (hnone | hlate)
    · rw [hctx] at hnone
      exact Bool.false_ne_true hnone
    · exact Nat.not_lt.mpr htime hlate
  simp only [exec_launchBlockProcess, execLaunchBlockProcess, if_neg hgoes, hst, if_pos hblock]

theorem State.ownRead_past_hbm {pa : Nat} (cid : BitVec 12) (h : hbmEnd ≤ pa) : s.ownRead cid pa = s := by
  have hout : inHbm pa = false := decide_eq_false (Nat.not_lt.mpr h)
  simp only [State.ownRead, hout, Bool.false_and, Bool.false_eq_true, if_false]

/-- The next block of a host-fed queue is what the physical map holds at its link. -/
theorem State.block_nextChain_link {qn pa : Nat} {c : BitVec 12} {a : DWord} (hctx : (s.queue qn).ctx = some c)
    (hfed : (s.queue qn).deviceFed = false) (hbell : (s.queue qn).bell = true) (hvia : (s.queue qn).via = some a)
    (hplace : s.frontPlace c a .read = .ok (.mem pa)) (hpast : hbmEnd ≤ pa) (hscrub : s.mustScrub (.mem pa) 8 = false) :
    ((s.nextChain qn).queue qn).block = BitVec.ofNat 64 (leNat ((List.range 8).map (fun i => s.physByte (pa + i)))) := by
  have hlast : hbmEnd ≤ pa + 8 - 1 := by omega
  have hread : (s.readAs c (.mem pa) 8).2.1 = (List.range 8).map (fun i => s.physByte (pa + i)) := by
    simp only [State.readAs, State.ownRead_past_hbm c hpast, State.ownRead_past_hbm c hlast, State.readLoc]
  simp only [State.nextChain, hctx, Option.getD_some, hfed, hbell, hvia, hplace, hscrub, Bool.false_eq_true, if_false,
    State.queue_setQueue, if_true, hread]

/-- Context 1 maps the first GiB of its addresses to the first GiB of the on-chip map. The link of queue 0 is its first word, which
names the block at 0x20000; the doorbell was written. -/
def chipLink : State :=
  { State.reset with
    mem := [(0x1000, 3), (0x1001, 0x20), (0x2000, 3), (0x2001, 0x30), (0x3000, 0xAD), (0x3006, 8)]
    ctxs := [(1, { Ctx.absent with live := true, asid := 1, root := 0x1000, priv := true })]
    slack := (leBytes 0x20000 8).zipIdx.map (fun e => (chipBase + e.2, e.1))
    queues := [(0, { LQueue.unbound with ctx := some 1, st := .run, bell := true, via := some 0 })] }

theorem chipLink_frontPlace : chipLink.frontPlace 1 0 .read = .ok (.mem chipBase) := rfl

theorem chipLink_block : ((chipLink.nextChain 0).queue 0).block = 0x20000 := by
  have hlink : BitVec.ofNat 64 (leNat ((List.range 8).map (fun i => chipLink.physByte (chipBase + i)))) = 0x20000 := by decide +kernel
  exact (State.block_nextChain_link rfl rfl rfl rfl chipLink_frontPlace (by decide) (by decide)).trans hlink

/-- Refutes O49: the link that a doorbell makes a host-fed queue read again is a word of HBM only where its page is one of HBM. A
link that was written in the on-chip map is read there (R23), and memory has nothing at its address. -/
theorem not_workSteps : ¬ Obligations.WorkSteps := by
  unfold Obligations.WorkSteps
  intro hall
  obtain ⟨-, -, -, hqueue, -⟩ := hall chipLink
  obtain ⟨hlate | ⟨-, hhostFed, -⟩, -⟩ := hqueue 0 1 rfl
  · exact absurd hlate (by decide)
  · obtain ⟨-, -, hlink⟩ := hhostFed rfl rfl rfl
    obtain ⟨t, hexec, -, -, -, hblock⟩ := hlink 0 chipBase rfl rfl chipLink_frontPlace rfl
    obtain rfl := Host.Outcome.next.inj ((exec_launchBlockProcess_run rfl (by decide) rfl rfl).symm.trans hexec)
    exact absurd (chipLink_block.symm.trans hblock) (by decide)

end Sys2Proof.Machine
end

section
/-!
R120, R121, R134: a queue area need not begin at a multiple of 16, so that an item can stand across the end of HBM. A spawn writes
such an item whole, but a read past the end of HBM finds nothing there (R206).
-/
namespace Sys2Proof.Machine
variable {s : State}

theorem exec_stagePacking_due {g k st : Nat} (hstage : (s.slot g k).stage = some st) (hfree : s.slotFree g k = true)
    (hitems : ((s.cluster (s.wg g).cluster).stageQ st).items ≠ [])
    (hdue : ((s.cluster (s.wg g).cluster).stageQ st).headDue = true) :
    ∃ t, exec (.stagePacking g k) s = .next t ∧ ∀ i, t.vreg g k i = Tbl.get (itemRegs (s.ringItems (s.wg g).cluster st 0
      (Nat.min (s.wg g).warp ((s.cluster (s.wg g).cluster).stageQ st).items.length))) i VVal.invalid := by
  simp only [exec_stagePacking, execStagePacking, hstage, hfree, hdue, List.isEmpty_eq_false_iff.mpr hitems,
    Bool.not_true, Bool.or_self, Bool.or_true, Bool.false_eq_true, if_false]
  refine ⟨_, rfl, fun i => ?_⟩
  simp only [State.vreg, State.slot, State.setSlot, State.bump, State.setFib, State.setStageQ, State.setCluster, Tbl.get_set_same]

/-- A pipeline whose stage 0 has its ring at the last four bytes of HBM, and a free slot for it.
Context 1 maps the first GiB of its addresses to the last GiB of HBM, and the GiB after it, where the rest of the ring lies, to the
first. -/
def ringAtEnd : State :=
  let s := State.reset.withFetchWord 32 0x1A000000
  let s1 := s.setCtx 1 { s.ctx 1 with root := 0x1000 }
  let s2 := s1.setGrid 0 { s1.grid 0 with
    launch := { Launch.zero with pipe := true }, stages := [{ entry := 0, qbase := 0x3FFFFFFC, depth := 256, stealable := false }] }
  let s3 := s2.setSlot 0 0 { s2.slot 0 0 with stage := some 0 }
  { s3.setStageQ 0 0 (StageQ.empty 0) with
    fibres := []
    mem := [(0x1000, 3), (0x1001, 0x20), (0x2000, 3), (0x2001, 0x30), (0x3000, 0x8D), (0x3003, 0xC0), (0x3004, 0xBF), (0x3008, 0x8D)] }

/-- That pipeline after it has appended an item of the words 1, 2, 3, 4, which has become due. -/
def itemAtEnd : State :=
  let s := ringAtEnd.appendItems 0 0 [0x00000004000000030000000200000001]
  s.setStageQ 0 0 { (s.cluster 0).stageQ 0 with headDue := true }

/-- The queue of stage 0 there. -/
abbrev itemAtEnd.queue : StageQ := (itemAtEnd.cluster (itemAtEnd.wg 0).cluster).stageQ 0

theorem itemAtEnd_slotFree : itemAtEnd.slotFree 0 0 = true := by decide +kernel

theorem itemAtEnd_items : itemAtEnd.queue.items ≠ [] := by decide +kernel

theorem itemAtEnd_headDue : itemAtEnd.queue.headDue = true := by decide +kernel

theorem itemAtEnd_stage : (itemAtEnd.slot 0 0).stage = some 0 := by decide +kernel

theorem itemAtEnd_ringLoc : itemAtEnd.ringLoc (itemAtEnd.wg 0).cluster 0
    (itemAtEnd.queue.tail - itemAtEnd.queue.items.length + 0) .read = some (.mem (hbmEnd - 4)) := by decide +kernel

/-- The second word of the item as the spawn wrote it. -/
theorem itemAtEnd_word : leNat (itemAtEnd.hbmBytes (hbmEnd - 4 + 4 * 1) 4) = 2 := by decide +kernel

/-- The same word as a fibre that takes the item finds it in lane 0 of `v1`. -/
theorem itemAtEnd_packed : (Tbl.get (itemRegs (itemAtEnd.ringItems (itemAtEnd.wg 0).cluster 0 0
    (Nat.min (itemAtEnd.wg 0).warp itemAtEnd.queue.items.length))) 1 VVal.invalid).lane 0 = 0 := by
  decide +kernel

/-- Refutes O50: the words of an item that stands across the end of HBM are packed as zero from there on, whatever a spawn has
written. -/
theorem not_pipelineAndPlacementSteps : ¬ Obligations.PipelineAndPlacementSteps := by
  unfold Obligations.PipelineAndPlacementSteps
  rintro ⟨-, -, hall⟩
  obtain ⟨hpacking, -⟩ := hall itemAtEnd
  obtain ⟨-, hpacks⟩ := hpacking 0 0
  obtain ⟨t, hexec, -, -, -, -, -, -, hregs⟩ :=
    hpacks 0 ⟨itemAtEnd_stage, itemAtEnd_slotFree, itemAtEnd_items, .inr itemAtEnd_headDue⟩
  obtain ⟨u, hpacked, hvreg⟩ := exec_stagePacking_due itemAtEnd_stage itemAtEnd_slotFree itemAtEnd_items itemAtEnd_headDue
  obtain rfl := Host.Outcome.next.inj (hpacked.symm.trans hexec)
  obtain ⟨-, hlane, -⟩ := hregs 1 0 (by decide) (by decide +kernel)
  have hword := hlane (hbmEnd - 4) itemAtEnd_ringLoc
  rw [hvreg, itemAtEnd_packed, itemAtEnd_word] at hword
  exact absurd hword (by decide)

end Sys2Proof.Machine
end
